-- ==== Sys2Proof/Word.lean ====
section
/-!
DEFINITION. Words, bytes, byte strings and sparse tables: the plainest data every other file is written over.
Multi-byte fields are little-endian (00_scope R5); a sparse table is a list of (key, entry) pairs, keys strictly rising.
-/

namespace Sys2Proof

/-- One byte. -/
abbrev Byte := BitVec 8

/-- One 32-bit register value (R11). -/
abbrev Word := BitVec 32

/-- The unsigned number a byte string spells, lowest byte first (R5). -/
def leNat : List Byte → Nat
  | [] => 0
  | b :: bs => b.toNat + 256 * leNat bs

/-- `n` bytes of the number `v`, lowest byte first (R5). -/
def natLE : Nat → Nat → List Byte
  | 0, _ => []
  | n + 1, v => BitVec.ofNat 8 v :: natLE n (v / 256)

/-- `n` zero bytes. -/
def zeroBytes (n : Nat) : List Byte := List.replicate n 0#8

/-- `n` bytes of `bs` from offset `off`. -/
def bytesAt (bs : List Byte) (off n : Nat) : List Byte := (bs.drop off).take n

/-- The `n`-byte field of `bs` at offset `off` (R5). -/
def fieldAt (bs : List Byte) (off n : Nat) : Nat := leNat (bytesAt bs off n)

/-- Bits `[hi:lo]` of `v`, both ends included (R5). -/
def bitsOf (v hi lo : Nat) : Nat := v / 2 ^ lo % 2 ^ (hi + 1 - lo)

/-- Bit `i` of `v`. -/
def bitOf (v i : Nat) : Bool := v / 2 ^ i % 2 == 1

/-- 1 for true. -/
def boolNat (b : Bool) : Nat := if b then 1 else 0

/-- `v` held between `lo` and `hi`. -/
def clampNat (lo hi v : Nat) : Nat := max lo (min hi v)

/-- The quotient rounded up. -/
def ceilDiv (a b : Nat) : Nat := if b = 0 then 0 else (a + b - 1) / b

/-- The two's-complement reading of the low `w` bits of `v`. -/
def signedOf (w v : Nat) : Int :=
  let m := v % 2 ^ w
  if m < 2 ^ (w - 1) then (m : Int) else (m : Int) - (2 ^ w : Nat)

/-- The low `w` bits of an integer's two's complement. -/
def toTwos (w : Nat) (i : Int) : Nat := (i % (2 ^ w : Nat)).toNat

/-- A sparse table: entries by number, the numbers strictly rising. -/
abbrev Table (α : Type) := List (Nat × α)

namespace Table

variable {α : Type}

/-- The entry numbered `k`, if the table holds one. -/
def find? : Table α → Nat → Option α
  | [], _ => none
  | (k', a) :: rest, k => if k' = k then some a else find? rest k

/-- `t` with entry `k` set to `a`, the numbers still rising. -/
def set : Table α → Nat → α → Table α
  | [], k, a => [(k, a)]
  | (k', a') :: rest, k, a =>
    if k < k' then (k, a) :: (k', a') :: rest
    else if k = k' then (k, a) :: rest
    else (k', a') :: set rest k a

/-- `t` without entry `k`. -/
def erase (t : Table α) (k : Nat) : Table α := t.filter fun e => e.1 != k

/-- Entry `k`, or `d` where the table holds none. -/
def getD (t : Table α) (k : Nat) (d : α) : α := (find? t k).getD d

/-- Entry `k` changed by `f`, where the table holds one. -/
def modify (t : Table α) (k : Nat) (f : α → α) : Table α :=
  match find? t k with
  | none => t
  | some a => set t k (f a)

/-- Whether the table holds entry `k`. -/
def has (t : Table α) (k : Nat) : Bool := (find? t k).isSome

/-- How many entries satisfy `p`. -/
def countP (t : Table α) (p : α → Bool) : Nat := (t.filter fun e => p e.2).length

/-- Every entry changed by `f`. -/
def mapVal (t : Table α) (f : α → α) : Table α := t.map fun e => (e.1, f e.2)

/-- The numbers strictly rise. -/
def wf : Table α → Bool
  | [] => true
  | [_] => true
  | (k, _) :: (k', a') :: rest => decide (k < k') && wf ((k', a') :: rest)

/-- The lowest number from `lo` below `hi` that the table does not hold. -/
def lowestFree (t : Table α) (lo hi : Nat) : Option Nat :=
  (List.range' lo (min (hi - lo) (t.length + 1))).find? fun k => !(has t k)

/-- The number after the highest one held. -/
def nextKey (t : Table α) : Nat :=
  match t.getLast? with
  | none => 0
  | some e => e.1 + 1

end Table

end Sys2Proof
end

