-- ==== Sys2Proof/Config.lean ====
section
/-!
DEFINITION. What the manual leaves open: constants with no body, so that no proof can see their values. Each is named in a
log entry of notes/assumptions.
-/

namespace Sys2Proof.Config

/-- A byte the manual leaves undefined: read over a link that is down, or an area whose content is undefined (entry 6). -/
opaque freeByte : Nat → Byte

/-- The rate, in ppm, at which a TAPE_PPS phase error is worked off; used modulo 50, plus 1 (02 R38; entry 7). -/
opaque slewChoice : Nat

/-- Whether the Bloom stage, after so many slots, may have seen a slot that it has not: its hash functions are not laid down
(04 R128; entry 11). -/
opaque bloomFalse : Nat → Nat → Bool

/-- The region that an ExactSample search draws, by command tag and draw: its hash is not laid down (04 R152; entry 11). -/
opaque sampleRegion : Nat → Nat → Nat

/-- The main-graph place at which a post-filter pass starts, by command tag (05 R173; entry 11). -/
opaque postFilterStart : Nat → Nat

/-- Whether a byte of a discarded part still reads as its old contents (13 R430; entry 19). -/
opaque discardKeeps : Nat → Bool

/-- The FP16 result of an elementary function of the vector unit, by function code, for an FP32 operand: within 2 units in the
last place of the correctly rounded result, which is not repeated here (08 R280; entry 25). -/
opaque vectorFn (code : Nat) (x : BitVec 32) : BitVec 16

/-- Whether array layers inside a composite operator write FP32 and not FP16 (08 R267, R282; entry 25). -/
opaque innerFp32 : Bool

/-- The outputs of a NORM operator: its order of operations is not laid down (08 R282; entry 25). -/
opaque norm (layerNorm : Bool) (eps : BitVec 32) (params xs : List (BitVec 32)) : List (BitVec 32)

/-- What the attention of a WATTN operator gives its output layer, from a query and the keys and values it attends to: the
quantisation of its scores, keys and values is not laid down (08 R284; entry 25). -/
opaque attend (heads dim : Nat) (q : List (BitVec 32)) (ks vs : List (List (BitVec 32))) : List (BitVec 32)

/-- Whether a signature over a message verifies under a public key, by scheme: 0 ECDSA P-384, 1 HSS (09 R308, 21; entry 26). -/
opaque sigOk (scheme : Nat) (key msg sig : List (BitVec 8)) : Bool

/-- The SHA-384 digest of the boot ROM, which measurement block 1 reports (21 R671; entry 27). -/
opaque romDigest : List (BitVec 8)

/-- The 64-byte record of measurement block 5, of the floors, the slot-use mask, DebugLocked, FtmLocked, FtmActive and
DOM_FUSE_CFG: its layout is not laid down (21 R671; entry 27). -/
opaque hwRecord (floors : List Nat) (slots : Nat) (locks : List Bool) (fuseCfg : Nat) : List (BitVec 8)

/-- The HSS signature that leaf `q` of the DeviceID key gives an input, by the input's number (21 R666, R672; entry 26). -/
opaque hssSignature (q input : Nat) : List (BitVec 8)

/-- DeviceTag: the first 8 bytes of SHA-384 over the DeviceID ECDSA public key, which the UDS gives (21 R664; 22 R691; entry 29). -/
opaque deviceTag : BitVec 64

/-- The default calibration set, Zellyn's own (22 R690; entry 29). -/
opaque defaultSet : List (BitVec 8)

/-- The value that a training of a target leaves, by training and target (22 R688 to R691; entry 29). -/
opaque trainedValue (training target : Nat) : Nat

/-- Whether a flash program in progress when power or reset took the node landed, by free index (13 R429, R452; entry 30). -/
opaque landed : Nat → Bool

/-- Zellyn's IANA enterprise number, SEC_PEN (21 R675; entry 27). -/
opaque pen : BitVec 32

/-- Bytes that a stack's controller has read or written, which the meanings of the steps do not fix (12 R417; entry 33). -/
opaque busBytes (stack : Nat) (isWrite : Bool) (draw : Nat) : Nat

/-- A word of Prompter state or on-chip memory as the debug port first finds it, by debug address: the address map is not laid
down (16 R538; entry 34). -/
opaque debugWord (addr : Nat) : BitVec 32

/-- The opcode that DOM_LAST_DENY gives for a refused cue action, by action code (02 R51; 16 R533; entry 35). -/
opaque cueOpcode (action : Nat) : Nat

end Sys2Proof.Config
end

