-- ==== Sys2Proof/Machine/Operands.lean ====
section
/-!
DEFINITION. The forms in which operands and records reach the node: CRCs over byte strings, 16-byte-aligned parts, and the
fields of a 64-byte command entry (15 R496).
-/

namespace Sys2Proof.Machine

/-- One byte into a reflected 32-bit CRC register. -/
def crcByte (poly : Nat) (reg : Nat) (b : Byte) : Nat :=
  (List.range 8).foldl (fun r _ => if r % 2 = 1 then (r / 2) ^^^ poly else r / 2) (reg ^^^ b.toNat)

/-- A reflected 32-bit CRC with initial value and final inversion all ones. -/
def crcReflected (poly : Nat) (bs : List Byte) : Nat :=
  (bs.foldl (crcByte poly) 0xFFFFFFFF) ^^^ 0xFFFFFFFF

/-- CRC-32, IEEE 802.3 polynomial (02 R36, 17 R553). -/
def crc32 (bs : List Byte) : Nat := crcReflected 0xEDB88320 bs

/-- CRC-32C, Castagnoli polynomial (09 R302, 17 R573). -/
def crc32c (bs : List Byte) : Nat := crcReflected 0x82F63B78 bs

/-- The 16-bit elements of a byte string. -/
def elems16 : List Byte → List Nat
  | a :: b :: rest => (a.toNat + 256 * b.toNat) :: elems16 rest
  | _ => []

/-- `n` rounded up to a multiple of `m`. -/
def roundUp (n m : Nat) : Nat := ceilDiv n m * m

/-- `x` put into a sorted list, after the entries that stand at or before it. -/
def insertBy {α : Type} (le : α → α → Bool) (x : α) : List α → List α
  | [] => [x]
  | y :: ys => if le y x then y :: insertBy le x ys else x :: y :: ys

/-- A list sorted by `le`; entries that `le` does not tell apart keep their order. -/
def sortBy {α : Type} (le : α → α → Bool) (xs : List α) : List α := xs.foldl (fun acc x => insertBy le x acc) []

/-- `bs` padded with zeros to a multiple of `m` bytes. -/
def padTo (m : Nat) (bs : List Byte) : List Byte := bs ++ zeroBytes (roundUp bs.length m - bs.length)

/-- `bs` with `new` written over it from offset `off`. -/
def overlay (bs : List Byte) (off : Nat) (new : List Byte) : List Byte :=
  let b := bs ++ zeroBytes (off + new.length - bs.length)
  b.take off ++ new ++ b.drop (off + new.length)

/-- The command entry's common fields (15 R496). -/
def cmdOpcode (raw : List Byte) : Nat := fieldAt raw 0 1
def cmdFlags (raw : List Byte) : Nat := fieldAt raw 1 1
def cmdFormat (raw : List Byte) : Nat := fieldAt raw 2 1 / 16
def cmdClass (raw : List Byte) : Nat := fieldAt raw 2 1 % 16
def cmdTag (raw : List Byte) : Nat := fieldAt raw 4 4
def cmdPos (raw : List Byte) : Nat := fieldAt raw 16 8
def cmdPtrA (raw : List Byte) : Nat := fieldAt raw 24 8
def cmdPtrB (raw : List Byte) : Nat := fieldAt raw 32 8
def cmdPtrC (raw : List Byte) : Nat := fieldAt raw 40 8
def cmdAdminOp (raw : List Byte) : Nat := fieldAt raw 48 1

end Sys2Proof.Machine
end

