-- ==== Sys2Proof/Machine/RegTable.lean ====
section
/-!
DEFINITION. The register map (23 R703, R707 and each chapter's register tables): for every register that software can
write, which bits take a write and how, the range the node clamps to, the selector that indexes it, and its value at reset.
-/

namespace Sys2Proof.Machine

/-- The block that owns a page (23 R703). -/
inductive Block where
  | cxl | qmg | dom | prm | cbd | flt | cue | sec | pwr | cal | top | hmc | pnm | wlk | cst | enc | gth | bft | fch | fab | shp
  deriving DecidableEq, Repr

/-- The first page of a block and how many instances it has (23 R703, R709). -/
def Block.pages : Block → Nat × Nat
  | .cxl => (0, 1) | .qmg => (1, 1) | .dom => (2, 1) | .prm => (3, 1) | .cbd => (4, 1) | .flt => (5, 1) | .cue => (6, 1)
  | .sec => (7, 1) | .pwr => (8, 1) | .cal => (9, 1) | .top => (10, 1) | .hmc => (11, 8) | .pnm => (19, 8)
  | .wlk => (27, 1) | .cst => (28, 1) | .enc => (29, 4) | .gth => (33, 1) | .bft => (34, 1) | .fch => (35, 32)
  | .fab => (67, 4) | .shp => (71, 1)

/-- Every block, in page order. -/
def Block.all : List Block :=
  [.cxl, .qmg, .dom, .prm, .cbd, .flt, .cue, .sec, .pwr, .cal, .top, .hmc, .pnm, .wlk, .cst, .enc, .gth, .bft, .fch, .fab, .shp]

/-- The block code of 20 R629: the page of the block's first instance. -/
def Block.code (b : Block) : Nat := b.pages.1

/-- The block and instance of a page; none for a reserved page (23 R704). -/
def blockAt (page : Nat) : Option (Block × Nat) :=
  (Block.all.find? fun b => b.pages.1 ≤ page && page < b.pages.1 + b.pages.2).map fun b => (b, page - b.pages.1)

/-- What chooses the copy of a selected register. -/
inductive Sel where
  | one | source | vector | kind | port | gclEntry | gclBank | sub | prof | pol
  deriving DecidableEq, Repr

/-- One register that software can write (00 R8). -/
structure RegDef where
  off    : Nat
  reset  : Nat := 0
  rw     : Nat := 0                              -- bits that take the value written
  lk     : Nat := 0                              -- bits that take it until BLK_LOCK is set
  w1c    : Nat := 0                              -- bits that a 1 clears
  node   : Nat := 0                              -- bits that are node-wide (08 R297, 12 R417, 17 R580)
  clamps : List (Nat × Nat × Nat × Nat) := []    -- [hi:lo] held between two numbers
  sel    : Sel := .one
  deriving DecidableEq, Repr

def allBits : Nat := 0xFFFFFFFF

/-- The bits of IRQ_EN that a page defines (19 R612, 23 R716). -/
def irqBits : Block → Nat
  | .cue => 0x1F | .flt => 0x07 | .wlk => 0x07 | .bft => 0x0F | .fab => 0x07 | _ => 0x03

/-- The bits of IRQ_RAW that are edge bits (19 R612). -/
def edgeBits : Block → Nat
  | .cue => 0x10 | .flt => 0x04 | _ => 0

/-- The common header's registers that hold state (23 R707). -/
def headerRegs (b : Block) : List RegDef :=
  [ { off := 0x010, reset := 1 },
    { off := 0x018, w1c := edgeBits b },
    { off := 0x01C, reset := 1, rw := irqBits b },
    { off := 0x034, reset := 0x01F38C21, lk := 0x01FFFFFF },
    { off := 0x038 } ]

/-- The block-specific registers that software can write. -/
def blockRegs : Block → List RegDef
  | .cxl => [ { off := 0x040, reset := 1, rw := 1, lk := 2 }, { off := 0x044, w1c := 0xE } ]
  | .qmg => [ { off := 0x040, reset := 5, rw := 7 }, { off := 0x044, w1c := 3 },
      { off := 0x048, rw := allBits }, { off := 0x04C, rw := allBits }, { off := 0x050, rw := allBits },
      { off := 0x054, rw := allBits }, { off := 0x058, reset := 0x00040004, rw := 0x001F001F },
      { off := 0x05C, rw := 0x7FF }, { off := 0x060, rw := 0xFFF },
      { off := 0x400, reset := 0x803, rw := 0x1F03, clamps := [(12, 8, 1, 16)] }, { off := 0x404, w1c := 7 } ]
  | .dom => [ { off := 0x040, rw := 3 }, { off := 0x044, w1c := 1 }, { off := 0x05C, rw := 0xFFF } ]
  | .prm => []
  | .cbd => [ { off := 0x040, reset := 3, rw := 3 }, { off := 0x044, w1c := 7 }, { off := 0x048, rw := 0x3FF },
      { off := 0x04C, rw := 0x800007FF, sel := .source }, { off := 0x050, rw := 0x00FF07FF },
      { off := 0x054, reset := 1, rw := 0x03FF00FF, sel := .vector } ]
  | .flt => [ { off := 0x040, reset := 1, rw := 1 }, { off := 0x044, w1c := 8 },
      { off := 0x05C, reset := 100000, rw := allBits, clamps := [(31, 0, 1000, 10000000)] },
      { off := 0x060, reset := 10000, rw := allBits, clamps := [(31, 0, 100, 3600000)] },
      { off := 0x064, reset := 3, rw := allBits, clamps := [(31, 0, 1, 15)] },
      { off := 0x070, reset := 10000, rw := allBits, clamps := [(31, 0, 1000, 1000000)] },
      { off := 0x074, rw := 0xFF }, { off := 0x078, rw := 0x3F, sel := .kind }, { off := 0x080, rw := 0xFFFF },
      { off := 0x090, rw := allBits }, { off := 0x094, rw := allBits }, { off := 0x098, rw := allBits },
      { off := 0x09C, rw := allBits } ]
  | .cue => [ { off := 0x040, reset := 0x1E, rw := 0x3F }, { off := 0x044, w1c := 0xC0 },
      { off := 0x048, reset := 2000000, rw := allBits, clamps := [(31, 0, 10000, 1000000000)] },
      { off := 0x04C, reset := 1000, rw := allBits }, { off := 0x050, lk := allBits }, { off := 0x054, rw := allBits },
      { off := 0x058, reset := 0x64, rw := 0xFFFFF, clamps := [(15, 0, 10, 0xFFFF)] },
      { off := 0x090, rw := allBits }, { off := 0x094, rw := allBits }, { off := 0x098, rw := allBits },
      { off := 0x09C, rw := allBits }, { off := 0x0B0, rw := allBits }, { off := 0x0B4, rw := allBits },
      { off := 0x0B8, reset := 1024, rw := allBits, clamps := [(31, 0, 1024, 65536)] }, { off := 0x0C0, rw := allBits },
      { off := 0x0C4 }, { off := 0x100, rw := 0xFFF },
      { off := 0x120, rw := allBits }, { off := 0x124, rw := allBits }, { off := 0x128, rw := allBits },
      { off := 0x12C, rw := allBits }, { off := 0x130, rw := allBits }, { off := 0x134, rw := allBits },
      { off := 0x138, rw := allBits }, { off := 0x13C, rw := allBits } ]
  | .sec => [ { off := 0x040, reset := 7, rw := 1, lk := 6 }, { off := 0x044, w1c := 6 } ]
  | .pwr => [ { off := 0x040, reset := 7, rw := 7 }, { off := 0x044, w1c := 0xC },
      { off := 0x048, reset := 1500, rw := allBits, clamps := [(31, 0, 600, 1500)] },
      { off := 0x054, reset := 90, rw := allBits, clamps := [(31, 0, 60, 95)] },
      { off := 0x058, reset := 100, rw := allBits, clamps := [(31, 0, 95, 105)] },
      { off := 0x060, rw := 0x7F }, { off := 0x068, rw := 7 },
      { off := 0x074, reset := 50, rw := allBits, clamps := [(31, 0, 1, 10000)] },
      { off := 0x200, reset := 10, rw := allBits }, { off := 0x204, reset := 80, rw := allBits },
      { off := 0x208, reset := 0xFFFFFCE0, rw := allBits }, { off := 0x20C, reset := 8, rw := allBits },
      { off := 0x210, reset := 40, rw := allBits }, { off := 0x220, rw := 0x7FFFF } ]
  | .cal => [ { off := 0x040, lk := 1 }, { off := 0x044, w1c := 0x20 },
      { off := 0x054, reset := 900, rw := allBits, clamps := [(31, 0, 60, 3600)] },
      { off := 0x060, reset := 8, rw := allBits } ]
  | .top => [ { off := 0x040, reset := 1, rw := 1 }, { off := 0x044, w1c := 7 }, { off := 0x060, rw := 0xFFF } ]
  | .hmc => [ { off := 0x040, reset := 3, rw := 3 }, { off := 0x044, w1c := 3 },
      { off := 0x048, reset := 24, rw := allBits, clamps := [(31, 0, 1, 168)] },
      { off := 0x04C, reset := 10000, rw := allBits }, { off := 0x050, rw := 0x7F, node := allBits },
      { off := 0x054, reset := 0x01000100, rw := 0x7FF, node := allBits } ]
  | .pnm => [ { off := 0x040, reset := 5, rw := 7 }, { off := 0x044, w1c := 6 },
      { off := 0x048, reset := 2400, rw := allBits, clamps := [(31, 0, 1408, 2400)] },
      { off := 0x04C, reset := 32, rw := 0xFF }, { off := 0x050, reset := 16000, rw := allBits },
      { off := 0x054, reset := 1000, rw := allBits }, { off := 0x05C, rw := 0x1FF } ]
  | .wlk => [ { off := 0x040, reset := 0xB, rw := 0xF }, { off := 0x044, w1c := 5 },
      { off := 0x048, reset := 400, rw := allBits, clamps := [(31, 0, 0, 4000)] },
      { off := 0x04C, reset := 2000, rw := allBits, clamps := [(31, 0, 0, 20000)] },
      { off := 0x050, reset := 2048, rw := allBits }, { off := 0x054, reset := 16384, rw := allBits },
      { off := 0x058, reset := 2200000, rw := allBits }, { off := 0x05C, reset := 16, rw := allBits },
      { off := 0x068, rw := allBits }, { off := 0x08C, rw := allBits }, { off := 0x090, rw := 0x71F },
      { off := 0x0A0, rw := 0x1F } ]
  | .cst => [ { off := 0x040, reset := 3, rw := 3 }, { off := 0x044, w1c := 6 } ]
  | .enc => [ { off := 0x040, reset := 3, rw := 3, node := 2 }, { off := 0x044, w1c := 0x1E },
      { off := 0x048, reset := 64, rw := allBits, node := allBits, clamps := [(31, 0, 1, 128)] },
      { off := 0x04C, reset := 125, rw := allBits, node := allBits, clamps := [(31, 0, 0, 10000)] },
      { off := 0x080, rw := 0xFFFF03FF, node := allBits } ]
  | .gth => [ { off := 0x040, reset := 7, rw := 7 }, { off := 0x044, w1c := 0xE },
      { off := 0x04C, reset := 1000000, rw := allBits, clamps := [(31, 0, 1000, 10000000)] } ]
  | .bft => [ { off := 0x040, reset := 0xF, rw := 0xF }, { off := 0x044, w1c := 7 },
      { off := 0x048, reset := 0x000C000C, rw := 0xFF },
      { off := 0x04C, reset := 60, rw := allBits, clamps := [(31, 0, 10, 3600)] },
      { off := 0x050, reset := 500, rw := allBits, clamps := [(31, 0, 1, 10000)] },
      { off := 0x054, reset := 7, rw := allBits, clamps := [(31, 0, 1, 90)] },
      { off := 0x058, reset := 100, rw := allBits } ]
  | .fch => [ { off := 0x040, reset := 1, rw := 1 } ]
  | .fab => [ { off := 0x040, reset := 3, rw := 0xF }, { off := 0x044, w1c := 0xD0, node := 0xC0 },
      { off := 0x048, lk := 0x3FF, node := allBits }, { off := 0x04C, lk := allBits, node := allBits },
      { off := 0x070, rw := allBits },
      { off := 0x074, reset := 100, rw := allBits, node := allBits, clamps := [(31, 0, 10, 10000)] },
      { off := 0x078, reset := 1000000, rw := allBits },
      { off := 0x07C, reset := 100, rw := allBits, node := allBits, clamps := [(31, 0, 10, 100000)] },
      { off := 0x0C0, rw := 0x3FF, node := allBits }, { off := 0x0D0, rw := 0x800003FF, node := allBits } ]
  | .shp => [ { off := 0x040, reset := 4, rw := 0xD }, { off := 0x044, w1c := 0x3D }, { off := 0x048, reset := 24, rw := 0x3F },
      { off := 0x04C, reset := 0x2764, rw := 0x7777 }, { off := 0x050, reset := 0x02040808, rw := allBits },
      { off := 0x054, reset := 0x0101, rw := 0xFFFF }, { off := 0x060, rw := 3 },
      { off := 0x064, rw := allBits, sel := .port }, { off := 0x068, reset := 1048576, rw := allBits, sel := .port, clamps := [(31, 0, 65600, 16777215)] },
      { off := 0x070, rw := 0x100FF }, { off := 0x074, reset := 0xFF, rw := 0xFF, sel := .gclEntry },
      { off := 0x078, reset := 64, rw := allBits, sel := .gclEntry }, { off := 0x080, rw := allBits, sel := .gclBank },
      { off := 0x084, rw := allBits, sel := .gclBank }, { off := 0x088, reset := 1000000, rw := allBits, sel := .gclBank },
      { off := 0x08C, rw := 0x1FF, sel := .gclBank }, { off := 0x0B0, rw := 0xFFF },
      { off := 0x0B4, reset := 0x01000400, rw := 0xFF0FFFFF, sel := .sub }, { off := 0x0B8, rw := allBits, sel := .sub },
      { off := 0x0BC, reset := 1048576, rw := allBits, sel := .sub, clamps := [(31, 0, 65600, 16777215)] }, { off := 0x0C0, rw := 0x83FF, sel := .sub },
      { off := 0x0D0, rw := 0xF }, { off := 0x0D4, rw := 0xFF, sel := .prof },
      { off := 0x0D8, reset := 0x01010101, rw := allBits, sel := .prof },
      { off := 0x0DC, reset := 0x01010101, rw := allBits, sel := .prof }, { off := 0x0E0, rw := 0x3FF },
      { off := 0x0E4, reset := 0x80, rw := 0xFFFF07FD, sel := .pol }, { off := 0x0E8, rw := allBits, sel := .pol },
      { off := 0x0EC, rw := allBits, sel := .pol }, { off := 0x0F0, reset := 65600, rw := allBits, sel := .pol, clamps := [(31, 0, 65600, 16777215)] },
      { off := 0x0F4, reset := 65600, rw := allBits, sel := .pol, clamps := [(31, 0, 65600, 16777215)] } ]

/-- The register that stands at an offset of a block's page, if software can write it. -/
def regDef (b : Block) (off : Nat) : Option RegDef :=
  (headerRegs b ++ blockRegs b).find? fun d => d.off == off

/-- The value clamped as the register's rows of the manual state. -/
def RegDef.clamp (d : RegDef) (v : Nat) : Nat :=
  d.clamps.foldl (fun v c =>
    let (hi, lo, least, most) := c
    v - bitsOf v hi lo * 2 ^ lo + clampNat least most (bitsOf v hi lo) * 2 ^ lo) v

end Sys2Proof.Machine
end

