-- ==== Sys2Proof/Syntax.lean ====
section
/-!
DEFINITION. The steps of the node: one constructor of `Instr` per row of the spec's table of operations and events,
and the data that reaches the node with each. Every constructor's first operand is the local time, in ns of the
local time base of 02 R42, at which the step takes place (log entry 2). What a step receives from outside the node, or what the
manual leaves to the part (a graph that a background build made, what a flash device returned, a sensor's reading),
is an operand (log entry 4).
-/

namespace Sys2Proof

/-- A neighbour graph as a background build, a compaction or an Entrance makes it: the neighbour list of each slot and
the entry slots (03 R97, R98, R102; 04 R123). How the node chooses neighbours is not laid down. -/
structure Graph where
  lists   : Table (List Nat)
  entries : List Nat
  deriving DecidableEq, Repr

/-- How the row reads of a gather went (10 R344). -/
inductive RowReads where
  | allRead                        -- every row read
  | hotFailed (topOffset : Nat)    -- rows of a hot area, the first at this offset of Top, failed and read well from home
  | homeFailed (loc : Nat)         -- a row failed at home too, at this location (12 R403)
  deriving DecidableEq, Repr

/-- How one codeword of a flash page read came back (13 R432, R433). -/
inductive FlashRead where
  | clean                  -- no error
  | hard                   -- stage 1 corrected errors
  | retry (rereads : Nat)  -- stage 2, after this many re-reads
  | soft                   -- stage 3
  | rebuilt                -- stage 4, from the stripe's parity
  | uncorrectable          -- no stage decodes it
  | deviceFailed           -- the device fails the read
  deriving DecidableEq, Repr

/-- What a controller read of one 64-byte block meets (12 R401). `miscorrected` carries the wrong data. -/
inductive BlockRead where
  | clean
  | inner
  | outer
  | miscorrected (data : List Byte)
  | failed
  deriving DecidableEq, Repr

/-- Which NAND or Heart path an object of `OBJECT_DRAINED` lies in (03 R750, 09 R323, 10 R356, 13 R422). -/
inductive ObjKind where
  | collection | table | volume | score
  deriving DecidableEq, Repr

/-- The tape sources in descending order of trust (02 R32). -/
inductive TapeSource where
  | ser | beacon | host
  deriving DecidableEq, Repr

/-- What ended a rehearsal window or a self-test (22 R696, R697). -/
structure WindowResult where
  trained    : Bool
  margin     : Nat
  errorCount : Nat
  eyeGain    : Int     -- eye height of the Understudy less that of the worst active lane, mV (22 R695)
  worstLane  : Nat     -- that active lane
  newValue   : Nat     -- the new training or adaptation value
  deriving DecidableEq, Repr

/-- The transports SPDM runs on (21 R670). -/
inductive SpdmPath where
  | doe | mctp
  deriving DecidableEq, Repr

/-- How one SPDM request reaches SEC: its path, its session (none outside one) and its bytes (21 R670). -/
structure SpdmRequest where
  path    : SpdmPath
  session : Option Nat
  bytes   : List Byte
  deriving DecidableEq, Repr

/-- A fabric message as it arrives: the port it arrived on, its 32-byte header and its payload (17 R562). -/
structure FabMsg where
  port    : Nat
  header  : List Byte
  payload : List Byte
  deriving DecidableEq, Repr

/-- What the parts outside the manual's reach contribute to a cold start (22 R682): which tests pass and what trains. -/
structure ColdStartInput where
  romOk          : Bool                 -- the ROM self-check and the directory (22 R681)
  imageReasons   : List Nat             -- reason of 21 R662 for Kinds 1 to 4 (0 passes)
  imageSvns      : List Nat             -- Svn of Kinds 1 to 4
  imageMeasures  : List (List Byte)     -- measurement of Kinds 1 to 4 (21 R662)
  fwVersion      : Nat                  -- ImageVersion of the firmware that runs (23 R723)
  rootSlot       : Nat                  -- slot used by the running firmware
  heartTrained   : Bool                 -- every pseudo-channel trains
  badUnits       : List (Nat × Nat)     -- stack and unit that fail self-test (06 R228)
  badArrays      : List (Nat × Nat)     -- cluster and array that fail self-test (08 R300)
  unrepairable   : List (Nat × Nat)     -- stack and row (bank × 98,304 + row) the spares cannot repair (12 R407)
  luns           : List (Nat × Nat)     -- channel and LUN answering with the common geometry (13 R420)
  pagesPerBlock  : Nat
  planes         : Nat
  blocksPerLun   : Nat
  ratedPE        : Nat
  factoryBad     : List (Nat × Nat)     -- LUN index and block bad at the factory
  rates          : List (Nat × Nat)     -- channel and trained MT/s
  ftlRestored    : Bool                 -- an FTL checkpoint exists, or the rescan ended (13 R452)
  lostUnits      : List (Nat × Nat)     -- volume and unit that the restore could not read
  calSet         : Option (List Byte)   -- newest Kind 3 record (22 R690)
  linkWidth      : Nat                  -- CXL width trained, 0 for none (14 R461)
  linkRate       : Nat                  -- 1 16 GT/s, 2 32 GT/s, 3 64 GT/s
  linkCxl        : Bool                 -- negotiation selects CXL
  linkFlit256    : Bool
  elapsed        : Nat                  -- local ns the start takes
  incarnation    : Nat                  -- drawn afresh (17 R559)
  deriving DecidableEq, Repr

/-- What the parts outside the manual's reach contribute to a warm start (22 R688). -/
structure WarmStartInput where
  measuresHeld : Bool                   -- SEC still holds every measurement (21 R663)
  imageReasons : List Nat               -- reason of 21 R662 for Kinds 1 to 4
  canariesOk   : Bool
  calSet       : Option (List Byte)
  linkWidth    : Nat
  linkRate     : Nat
  linkCxl      : Bool
  linkFlit256  : Bool
  elapsed      : Nat
  incarnation  : Nat
  deriving DecidableEq, Repr

/-- How a fabric port's bring-up went (17 R548): the lanes that lock, the partner's offer, the delay samples. -/
structure PortBringUp where
  goodLanes   : List Nat
  modulePresent   : Bool
  moduleSupported : Bool
  offer       : Option (List Byte)      -- the partner's VERSION_OFFER payload (17 R565)
  delays      : List (Int × Int × Int × Int)   -- t1, t2, t3, t4 of the sixteen exchanges
  partnerCredits : List Nat             -- credits the partner grants on each channel (17 R556)
  deriving DecidableEq, Repr

/-- The steps of the node, in the order of the spec's table. -/
inductive Instr where
  | registerWrite (t fn off width : Nat) (val : Word)
  | counterLoRead (t off : Nat)
  | cueTpLoRead (t : Nat)
  | hmcUeLocRead (t stack : Nat)
  | cueHostCommit (t fn : Nat) (val : Word)
  | cueEnableSet (t fn : Nat) (val : Word)
  | cueEntRead (t fn : Nat)
  | cueEntWrite (t fn : Nat)
  | cueEntDisarm (t fn : Nat)
  | cueEntCmdInvalid (t fn : Nat) (val : Word)
  | qdbSqTailWrite (t fn page : Nat) (val : Word)
  | qdbCqHeadWrite (t fn page : Nat) (val : Word)
  | q0EnableWrite (t fn : Nat) (val : Word)
  | commandFetch (t : Nat)
  | wlkHistClear (t fn : Nat) (val : Word)
  | wlkFvcExtentsWrite (t fn : Nat) (val : Word)
  | encLclear (t fn cluster : Nat) (val : Word)
  | pnmRawShareWrite (t fn stack : Nat) (val : Word)
  | cbdEoi (t fn : Nat) (val : Word)
  | cbdArm (t fn : Nat) (val : Word)
  | cbdSwSet (t fn : Nat) (val : Word)
  | cbdSwClr (t fn : Nat) (val : Word)
  | fltCntClear (t fn page : Nat) (val : Word)
  | fltGcntClear (t fn : Nat) (val : Word)
  | fltRelease (t fn : Nat) (val : Word)
  | fltInjGo (t fn : Nat) (val : Word)
  | drydownEnableSet (t fn : Nat) (val : Word)
  | shpGclSwap (t fn : Nat) (val : Word)
  | quiesceWrite (t fn page : Nat) (val : Word)
  | enableWrite (t fn page : Nat) (val : Word)
  | blockResetWrite (t fn page : Nat) (val : Word)
  | blkLockWrite (t fn page : Nat) (val : Word)
  | irqEnWrite (t fn page : Nat) (val : Word)
  | search (t cid : Nat)
  | encode (t cid : Nat) (reads : RowReads)
  | encodeDropSequence (t cid : Nat)
  | encodeSearch (t cid : Nat) (reads : RowReads)
  | insert (t cid : Nat)
  | delete (t cid : Nat)
  | upsert (t cid : Nat)
  | tailSealTimer (t coll : Nat)
  | segmentBuildDone (t coll seg : Nat) (g : Graph)
  | compactionDone (t coll : Nat) (g : Graph)
  | entrance (t cid : Nat)
  | entrancePublish (t coll : Nat) (g : Graph)
  | gather (t cid : Nat) (reads : RowReads)
  | writeRows (t cid : Nat)
  | applyGradients (t cid : Nat)
  | versionOpen (t cid : Nat)
  | versionDrop (t cid : Nat)
  | migrate (t cid : Nat) (copyFails : List Nat)
  | tableSwitch (t cid : Nat)
  | tableSwitchTakeEffect (t cid : Nat)
  | baseRead (t cid : Nat)
  | baseWrite (t cid : Nat)
  | baseDiscard (t cid : Nat)
  | curtain (t cid : Nat)
  | abort (t cid : Nat)
  | run (t cid : Nat) (unreadable : Bool)
  | scratchOpen (t cid : Nat)
  | scratchClose (t cid : Nat)
  | calibrate (t cid : Nat)
  | laneBist (t cid : Nat)
  | heartSweep (t cid : Nat)
  | heartMarch (t cid : Nat) (errors : Nat)
  | portLoopback (t cid : Nat) (errors : Nat)
  | queueCreate (t cid : Nat)
  | queueDelete (t cid : Nat)
  | queueReset (t cid : Nat)
  | queueDrained (t queue : Nat)
  | domainDefine (t cid : Nat)
  | domainActivate (t cid : Nat)
  | domainRetire (t cid : Nat)
  | domainRetireComplete (t domain : Nat)
  | domainDelete (t cid : Nat)
  | privGrant (t cid : Nat)
  | privRevoke (t cid : Nat)
  | domainRead (t cid : Nat)
  | quotaSet (t cid : Nat)
  | rawAlloc (t cid : Nat)
  | rawFree (t cid : Nat)
  | scoreLoad (t cid : Nat) (readFails : Bool)
  | scoreLoadAdopt (t cid : Nat) (readFails : Bool)
  | scoreUnload (t cid : Nat)
  | tableCreate (t cid : Nat)
  | tableDestroy (t cid : Nat)
  | evidenceBind (t cid : Nat)
  | sillageRing (t cid : Nat)
  | volumeCreate (t cid : Nat)
  | volumeDestroy (t cid : Nat)
  | volumeRw (t cid : Nat)
  | collectionCheckpoint (t cid : Nat) (fails : Bool)
  | healthRead (t cid : Nat)
  | collectionCreate (t cid : Nat)
  | collectionDestroy (t cid : Nat)
  | objectDrained (t : Nat) (kind : ObjKind) (id : Nat)
  | horizonSet (t cid : Nat)
  | snapshotRelease (t cid : Nat)
  | sourceSet (t cid : Nat)
  | collectionRestore (t cid : Nat)
  | ruleWrite (t cid : Nat)
  | ruleDelete (t cid : Nat)
  | cueWrite (t cid : Nat)
  | routeSet (t cid : Nat)
  | shardmapSet (t cid : Nat)
  | replSet (t cid : Nat)
  | leaseGrant (t cid : Nat)
  | featureFloor (t cid : Nat)
  | shardSend (t cid : Nat)
  | connReset (t cid : Nat)
  | cueSend (t cid : Nat)
  | scoreKeyAdd (t cid : Nat)
  | scoreKeyRemove (t cid : Nat)
  | measureRead (t cid : Nat)
  | warmStart (t cid : Nat)
  | maintEnter (t cid : Nat)
  | maintExit (t cid : Nat)
  | calRead (t cid : Nat)
  | calLoad (t cid : Nat)
  | calSave (t cid : Nat) (commits : Bool)
  | imageWrite (t cid : Nat)
  | tapeSerFrame (t : Nat) (raw : List Byte) (violation : Bool)
  | tapePpsEdge (t : Nat)
  | ppsLapse (t : Nat)
  | tapeBeaconReceive (t port : Nat) (payload : List Byte)
  | tapeBeaconTransmit (t : Nat)
  | tapeSourceLoss (t : Nat) (src : TapeSource) (port : Nat)
  | cueFire (t : Nat)
  | cueSnapshot (t : Nat)
  | cueEntrance (t : Nat)
  | cueTableSwitch (t : Nat)
  | cueGateSwap (t : Nat)
  | cueRehearsalWindow (t : Nat)
  | cueQuotaChange (t : Nat)
  | cueDomainActivate (t : Nat)
  | cueDomainRetire (t : Nat)
  | rehearsalWindowEnd (t target : Nat) (r : WindowResult)
  | watermarkTimeout (t cid : Nat)
  | searchContextTake (t : Nat)
  | convoyWindowExpiry (t convoy : Nat)
  | walkerPassComplete (t pass : Nat) (badRecords : List (Nat × Nat))
  | selection (t cid : Nat) (lostBlocks : List Nat) (topOffset : Nat)
  | uniqueWithCounts (t request : Nat)
  | indexOfMaximum (t : Nat) (values : List Word) (higher : Bool)
  | rescoreReadComplete (t cid : Nat) (failed : List Nat)
  | shardWaitExpiry (t cid : Nat)
  | evidenceFetchComplete (t cid : Nat) (readErrors : List Nat)
  | sillageTailPoll (t cid : Nat)
  | stragglerCheck (t : Nat)
  | refresh (t stack pseudo : Nat)
  | rawRunStart (t run : Nat)
  | rawSegmentEnd (t run : Nat) (corrections : List (Nat × Nat))
  | rawRunEnd (t run : Nat)
  | innerCorrRate (t stack unit : Nat)
  | batchWaitExpiry (t score : Nat)
  | batchStart (t : Nat)
  | sliceStreamStart (t cluster : Nat)
  | tileLanding (t cluster : Nat) (bytes : List Byte) (readFails : Option Nat)
  | batchCommit (t cluster : Nat) (unreadable : List (Nat × Nat))
  | autoHotInterval (t table : Nat) (promote demote : List Nat)
  | topScrub (t : Nat) (corrected : List Nat) (failed : List Nat)
  | patrolScrub (t stack : Nat) (corrected : List Nat) (failed : List Nat)
  | outerCorrRate (t stack : Nat)
  | memRd (t dpa : Nat) (block : BlockRead)
  | memSpecRd (t dpa : Nat)
  | memInv (t dpa : Nat)
  | memWr (t dpa : Nat) (data : List Byte) (poison : Bool)
  | memWrPtl (t dpa : Nat) (data : List Byte) (enables : List Bool) (poison : Bool) (block : BlockRead)
  | flashReadComplete (t op : Nat) (r : FlashRead)
  | flashProgramComplete (t op : Nat) (ok : Bool)
  | gcCopyComplete (t op : Nat) (verified : Bool)
  | flashEraseComplete (t op : Nat) (ok : Bool)
  | lunTimeout (t op : Nat)
  | basePatrol (t block weak : Nat) (stage3 : Bool)
  | ftlCheckpoint (t : Nat)
  | writeStallExpiry (t cid : Nat)
  | deviceTempPoll (t : Nat) (temps : List Int)
  | linkTrain (t width rate : Nat) (cxl flit256 : Bool)
  | linkDown (t : Nat)
  | linkTrainRetry (t width rate : Nat) (cxl flit256 : Bool)
  | hdmDecoderCommit (t base size ways : Nat)
  | flrVf (t fn : Nat)
  | flrPf0 (t : Nat)
  | msixMaskClear (t fn vector : Nat) (whole : Bool)
  | cdatRequest (t : Nat)
  | ideKmRequest (t session : Nat) (mem refresh : Bool)
  | ideFailure (t : Nat) (mem : Bool)
  | getVersion (t : Nat) (r : SpdmRequest)
  | getCapabilities (t : Nat) (r : SpdmRequest)
  | negotiateAlgorithms (t : Nat) (r : SpdmRequest)
  | getDigests (t : Nat) (r : SpdmRequest)
  | getCertificate (t : Nat) (r : SpdmRequest)
  | challenge (t : Nat) (r : SpdmRequest)
  | getMeasurements (t : Nat) (r : SpdmRequest)
  | keyExchange (t : Nat) (r : SpdmRequest)
  | finish (t : Nat) (r : SpdmRequest)
  | heartbeat (t : Nat) (r : SpdmRequest)
  | keyUpdate (t : Nat) (r : SpdmRequest)
  | endSession (t : Nat) (r : SpdmRequest)
  | chunkTransfer (t : Nat) (r : SpdmRequest)
  | vendorDefinedRequest (t : Nat) (r : SpdmRequest)
  | lmsCommit (t : Nat) (ok : Bool)
  | lmsTreesReady (t : Nat)
  | laneSwap (t port logical : Nat)
  | portBringUp (t port : Nat) (b : PortBringUp)
  | portBringUpRetry (t port : Nat) (b : PortBringUp)
  | fabricLinkDown (t port : Nat)
  | versionOfferReceive (t port : Nat) (payload : List Byte)
  | delayProbe (t port : Nat) (tag : Nat)
  | delayEcho (t port : Nat) (t1 t2 t3 t4 : Int)
  | dataFlitReceive (t port : Nat) (flit : List Byte) (uncorrectable : Bool)
  | nakReceive (t port ackSeq : Nat)
  | messageForward (t : Nat) (m : FabMsg)
  | transportAck (t : Nat) (m : FabMsg)
  | transportOpen (t : Nat) (m : FabMsg)
  | transportOpenReply (t : Nat) (m : FabMsg)
  | transportClose (t : Nat) (m : FabMsg)
  | connectionResend (t partner : Nat)
  | connectionOpenRetry (t partner : Nat)
  | queryScatterSearch (t : Nat) (m : FabMsg)
  | queryScatterCommand (t : Nat) (m : FabMsg)
  | resultGatherReceive (t : Nat) (m : FabMsg)
  | mutationReplicateReceive (t : Nat) (m : FabMsg)
  | replIdleSend (t coll : Nat)
  | wingsShipReceive (t : Nat) (m : FabMsg)
  | bulkSegReceive (t : Nat) (m : FabMsg)
  | cueSyncReceive (t : Nat) (m : FabMsg)
  | leaseGrantReceive (t : Nat) (m : FabMsg)
  | leaseQueryReceive (t : Nat) (m : FabMsg)
  | leaseReportReceive (t : Nat) (m : FabMsg)
  | leaseLapse (t : Nat)
  | messageTransmit (t port : Nat)
  | gateEntryChange (t port : Nat)
  | shaperTableError (t : Nat)
  | levelSourceAssert (t source : Nat)
  | moderationTimerExpiry (t fn vector : Nat)
  | edgeLatchHandoff (t source : Nat)
  | prompterHandlerEnd (t prompter : Nat)
  | faultMessage (t : Nat) (w0 w1 w2 w3 : Word)
  | chipResetStart (t : Nat)
  | blockResetDone (t page : Nat)
  | drydownEnd (t : Nat)
  | aliveToggle (t : Nat)
  | prompterHeartbeat (t prompter : Nat)
  | prompterHang (t prompter : Nat)
  | controlDecision (t prompter code target : Nat) (kind : Nat)
  | prompterResetRelease (t prompter : Nat)
  | eyeMeasure (t port lane height width : Nat)
  | opticalPowerRead (t port lane : Nat) (cdbm : Int)
  | supplyDroopSample (t rail mv : Nat)
  | powerSample (t watts : Nat) (mv amps : List Nat)
  | thermalSample (t : Nat) (temps : List Int)
  | thermalHardTrip (t sensor : Nat)
  | clockStop (t page : Nat)
  | faultInputEdge (t input : Nat)
  | porRelease (t bootSel : Nat) (ftmEn : Bool)
  | sysRstRelease (t : Nat)
  | perstRelease (t width rate : Nat) (cxl flit256 : Bool)
  | resetInputFall (t pin : Nat)
  | coldStart (t : Nat) (i : ColdStartInput)
  | warmStartSequence (t : Nat) (i : WarmStartInput)
  | startLimitExpiry (t : Nat)
  | mgmtPortSmbusFallback (t : Nat)
  | i3cBroadcastReceive (t : Nat)
  | sysClkLoss (t : Nat)
  | referenceLoss (t ref : Nat)
  | supplyFail (t rail : Nat)
  | tapeSourceDisable (t fn : Nat) (val : Word)
  | portDisable (t fn port : Nat) (val : Word)
  | cbdHostEnableSet (t fn : Nat) (val : Word)
  | msixEnableClear (t fn : Nat)
  | sysClkReturn (t : Nat)
  | supplyReturn (t rail : Nat)
  | unitParityError (t stack unit : Nat)
  | arrayParityError (t cluster array : Nat)
  | idleFlitReceive (t port : Nat) (flit : List Byte)
  | shaperBucketRefill (t port : Nat) (subscriber : Option Nat)
  | laneRetrainEnd (t port lane : Nat) (ok : Bool)
  | modulePresenceChange (t port : Nat) (isPresent supported : Bool)
  | doeAbort (t mailbox : Nat)
  | debugPortAccess (t addr : Nat) (isWrite : Bool) (val : Word)
  | i3cDynamicAddress (t addr : Nat)
  deriving DecidableEq, Repr

end Sys2Proof
end

