-- ==== Sys2Proof/Machine/StateParts.lean ====
section
/-!
DEFINITION. The records the node's state is made of, block by block (01 R19). Every field is plain data.
Numbers the manual counts or compares are natural numbers; registers, float encodings and byte strings are bits.
-/

namespace Sys2Proof.Machine

/-! ### Commands and queues (15) -/

/-- The four states of a queue pair (15 R484). -/
inductive QState where
  | free | enabled | stopped | error
  deriving DecidableEq, Repr

/-- One queue pair that is not Free, or queue 0 (15 R484 to R494). -/
structure Queue where
  state    : QState := .free
  fn       : Nat := 0
  domain   : Nat := 0
  page     : Nat := 0
  sqBase   : Nat := 0
  cqBase   : Nat := 0
  sqLog2   : Nat := 4
  cqLog2   : Nat := 4
  weight   : Nat := 1
  vector   : Nat := 0
  sqHead   : Nat := 0
  sqTail   : Nat := 0
  cqHead   : Nat := 0
  cqTail   : Nat := 0
  phase    : Bool := true
  holdBy   : Option Nat := none   -- the CURTAIN with Hold that stops fetching (R511)
  draining : Option Nat := none   -- the QUEUE_DELETE or QUEUE_RESET that waits (R488)
  resetting : Bool := false       -- the waiting operation is a reset
  flrDrop  : Bool := false        -- completions are not written after a Function Level Reset (R515)
  deriving DecidableEq, Repr

/-- Where a command came from: a queue, or a fabric port inside a QUERY_SCATTER (17 R568, R569) or MUTATION_REPLICATE. -/
inductive Origin where
  | queue (q : Nat)
  | scatterSearch (port src requestId : Nat) (shard cls : Nat)
  | scatterCommand (port src requestId : Nat) (cls : Nat)
  | replicate (port src requestId : Nat) (cls : Nat)
  deriving DecidableEq, Repr

/-- How far a fetched command has come (15 R495, R513). -/
inductive CmdPhase where
  | admitted          -- past steps 1 to 4 of R509, its own step not yet taken
  | started           -- its step has been taken and it works or waits
  | waiting           -- taken, but waiting on a condition the manual names
  deriving DecidableEq, Repr

/-- One outstanding command (15 R493, R496): its 64 bytes and its place. -/
structure Cmd where
  origin  : Origin
  domain  : Nat
  raw     : List Byte
  data    : List Byte := []        -- the payload that a fabric-carried command brings (17 R569)
  area    : List Byte := []        -- the result area of a fabric-carried command
  phase   : CmdPhase := .admitted
  winBase : Nat := 0               -- the window as DOM read it at admission (14 R463)
  winSize : Nat := 0
  progress : Nat := 0              -- items stamped, units done, events committed
  detail  : Nat := 0
  done    : Nat := 0
  failed  : Nat := 0
  firstFail : Option Nat := none
  late    : Bool := false          -- Late of a scheduled command (02 R57)
  versions : List (Nat × Nat × Nat) := []  -- table, version asked, slot taken at admission (10 R333)
  classes : Nat := 0               -- privileges held at admission (16 R531)
  warm     : Option (Bool × Nat) := none  -- the completion that R514 owes it: OK or ABORTED, with its ResultCount
  aborting : Bool := false         -- completes ABORTED once its reads in flight have drained (13 R454)
  deriving DecidableEq, Repr

/-! ### The Tape (02) -/

/-- What CUE knows of one tape source (02 R33, R34). -/
structure Src where
  lastValid : Option Nat := none   -- local time of the last valid frame
  streak    : Nat := 0             -- consecutive valid frames since it was last unhealthy
  grade     : Nat := 7             -- grade of the last beacon
  deriving DecidableEq, Repr

structure Tape where
  tracked    : Option TapeSource := none
  port       : Nat := 0            -- port of the tracked beacon
  ser        : Src := {}
  beacons    : Table Src := []
  host       : Src := {}
  pos        : Nat := 0            -- tracked tape position
  anchorTime : Nat := 0            -- tape time at the anchor
  anchorAt   : Nat := 0            -- local time of the anchor
  floor      : Nat := 0            -- tracked tape time never falls below it (R44)
  ratePpb    : Int := 0            -- deviation of the rate ratio
  slew       : Int := 0            -- phase error still to be corrected by rate (R38), ns
  pairAt     : Option (Nat × Nat) := none  -- first frame of the pair the ratio is derived from (R43)
  lastPps    : Option Nat := none  -- local time of the last accepted edge
  ppsRun     : Nat := 0            -- consecutive accepted edges within bounds
  lastBeacon : Nat := 0            -- local time of the last transmitted beacon
  deriving DecidableEq, Repr

/-- One entry of the Cue Table (02 R49) and the scheduled command it holds (R53). -/
structure CueEntry where
  version : Nat := 0
  trigger : Nat := 0
  action  : Nat := 0
  flags   : Nat := 0
  owner   : Nat := 0
  value   : Nat := 0
  period  : Nat := 0
  arg     : Nat := 0
  holds   : Option Nat := none
  deriving DecidableEq, Repr

/-! ### Collections (03) -/

/-- One stored version of an item (03 R72 to R76). -/
structure Slot where
  key     : Nat
  ins     : Nat
  del     : Option Nat := none
  bySuper : Bool := false          -- the delete stamp came from an UPSERT
  attrs   : List Byte := []
  nav     : List Nat := []         -- 16-bit elements
  full    : List Byte := []
  source  : Nat := 0
  enteredAt : Nat := 0             -- tape time it entered the tail
  deriving DecidableEq, Repr

inductive SegState where
  | building | sealed | compacting | entering | retired
  deriving DecidableEq, Repr

/-- One segment (03 R97); `seq` is its seal sequence (04 R122). -/
structure Segment where
  state : SegState
  seq   : Nat
  slots : List Nat
  graph : Graph := ⟨[], []⟩
  fromTail : Bool := true          -- sealed from the tail, not made by compaction (04 R119)
  deriving DecidableEq, Repr

/-- The replay floor of one source in a restored collection (03 R107). -/
structure ReplayFloor where
  w : Nat
  n : Nat
  seen : Nat := 0                  -- items met so far at position w + 1
  deriving DecidableEq, Repr

structure Binding where
  volume  : Nat
  locator : Nat
  bytes   : Nat
  deriving DecidableEq, Repr

/-- One collection (03 R67 to R107). -/
structure Coll where
  owner     : Nat
  metric    : Nat := 0
  degree    : Nat := 32
  navFormat : Nat := 0
  navDim    : Nat := 128
  fullDim   : Nat := 0
  fullFormat : Nat := 0
  autoHorizon : Bool := false
  retention : Nat := 0
  horizon   : Nat := 0
  sealAfter : Nat := 50000000
  sealAt    : Nat := 16384
  compactAt : Nat := 192
  waitUs    : Nat := 500
  schema    : List Byte := []
  isClosed    : Option Nat := none   -- the COLLECTION_DESTROY that closed it
  slots     : Table Slot := []
  nextSlot  : Nat := 0
  freed     : List Nat := []       -- slots an Entrance purged, free for reuse (R73)
  limbo     : List (Nat × Nat) := []   -- purged slots and retired segments' slots that older searches may still read: slot, order
  dead      : List (Nat × Nat) := []   -- Retired segments, with the order of the publish that retired them
  mainSlots : List Nat := []
  mainGraph : Graph := ⟨[], []⟩
  tail      : List Nat := []       -- oldest first
  segs      : Table Segment := []
  nextSeg   : Nat := 0
  nextSeal  : Nat := 0
  entering  : Option (Option Nat × Nat × Nat) := none  -- the running Entrance: its command, H at its start, extents it took
  merging   : Option (Nat × Nat) := none         -- the two segments being compacted
  snapshots : List Nat := []
  floors    : Table ReplayFloor := []
  binding   : Option Binding := none
  extents   : Nat := 0             -- Heart extents charged
  fullVolume : Option Nat := none  -- the volume of its full vectors (13 R425)
  deriving DecidableEq, Repr

/-- One mutation source (03 R81 to R87). -/
structure Source where
  active    : Bool := false
  domains   : List Byte := []      -- bitmap of bound domains
  w         : Nat := 0
  next      : Nat := 0             -- StampedAtNext
  stamped   : Bool := false        -- has stamped since the cold start (R107)
  restored  : Option Nat := none   -- least floor recorded for it by a restore
  leaving   : Bool := false        -- unregistered, its admitted mutations not yet complete
  deriving DecidableEq, Repr

/-! ### Searches (04, 05) -/

/-- An entry of a candidate queue: slot, FP32 score, Expanded bit (04 R109). -/
structure Cand where
  slot  : Nat
  key   : Nat
  score : Word
  expanded : Bool := false
  deriving DecidableEq, Repr

/-- An entry of a result list in the 16-byte form of 04 R146, with what later stages need of it. -/
structure Entry where
  key    : Nat
  score  : Word
  full   : Bool := false
  origin : Nat := 0
  shard  : Nat := 0
  stamp  : Nat := 0
  slot   : Nat := 0
  deriving DecidableEq, Repr

/-- One graph walk of a search (04 R122 to R126): the main graph or one segment. -/
structure Walk where
  seg     : Option Nat := none
  breadth : Nat
  queue   : List Cand := []
  due     : List Nat := []         -- neighbours of the expansion in flight whose scores are awaited
  begun   : Bool := false          -- seeding has been requested (R123)
  seeded  : Bool := false          -- seeding has been scored
  isDone  : Bool := false
  deriving DecidableEq, Repr

/-- The search descriptor as read at admission (04 R114), defaults taken. -/
structure Desc where
  onTimeout : Bool := false
  exact     : Bool := false
  rescoreOnNear : Bool := false
  scatter   : Bool := false
  k         : Nat := 1
  breadth   : Nat := 16
  encoreMax : Nat := 2
  rescore   : Nat := 0
  segBreadth : Nat := 16
  waitUs    : Nat := 500
  maxHops   : Nat := 0
  maxDist   : Nat := 0
  maxCycles : Nat := 0
  margin    : Word := 0
  regions   : Nat := 0
  nav       : List Nat := []
  fullQ     : List Nat := []
  predicate : List Byte := []
  deriving DecidableEq, Repr

inductive Stage where
  | queued          -- in the admission queue, Waiting or Ready (R110)
  | walking
  | walked          -- walking is over, the local cast is due (R137)
  | rescoring       -- the re-score reads are awaited (R141)
  | gathering       -- shard replies are awaited (R138)
  | evidence        -- an alarm's evidence is awaited (11 R377)
  | ringWait        -- its Sillage record waits for room (11 R363)
  deriving DecidableEq, Repr

/-- The selection report of 07 R246. -/
structure Report where
  boundaryFull : Bool := false
  carried   : Bool := false
  multipass : Bool := false
  higher    : Bool := true
  rounds    : Nat := 1
  threshold : Word := 0
  selectedMass : BitVec 64 := 0
  leftOutMass  : BitVec 64 := 0
  candidates : Nat := 0
  selected  : Nat := 0
  duplicates : Nat := 0
  nanDropped : Nat := 0
  nonFinite : Nat := 0
  lost      : Nat := 0
  ties      : Nat := 0
  taken     : Nat := 0
  deriving DecidableEq, Repr

/-- One precedent as a record lists it (11 R373, R374). -/
structure Precedent where
  key    : Nat
  score  : Word
  label  : Nat
  stamp  : Nat
  groups : List (Nat × Word) := []
  other  : Word := 0
  offset : Nat := 0                -- value of LocatorField (11 R377)
  deriving DecidableEq, Repr

/-- One precedent search's outcome (05 R184), kept for the rules and the record (11 R372). -/
structure PrecedentSet where
  collection : Nat
  labelField : Nat
  labelMask  : Nat
  failed  : Bool := false          -- its rules do not trip (05 R188)
  metric  : Nat := 0
  entries : List Entry := []
  report  : Report := {}
  listed  : List Precedent := []
  binding : Option Binding := none -- as it stood when the rules were evaluated (11 R376)
  deriving DecidableEq, Repr

/-- A tripped rule (11 R371). -/
structure Tripped where
  ruleId : Nat
  alarm  : Nat
  tests  : Nat
  hits   : Nat
  set    : Option Nat
  deriving DecidableEq, Repr

/-- One shard asked by a scattered search (04 R138, R139). -/
structure ShardAsk where
  index   : Nat
  request : Nat
  node    : Nat
  busyOnce : Bool := false
  answered : Bool := false
  missing  : Bool := false
  entries : List Entry := []
  leftOut : BitVec 64 := 0
  summary : List Byte := []        -- its walk summary; until it answers, the payload it was asked with
  deriving DecidableEq, Repr

/-- The encoder's share of an ENCODE_SEARCH, as the record needs it (11 R368 to R370). -/
structure EncodedPart where
  itemKey  : Nat := 0
  seqKey   : Nat := 0
  evPos    : Nat := 0
  handle   : Nat := 0
  scoreId  : Nat := 0
  scoreVer : Nat := 0
  index    : Nat := 0
  counts   : List Nat := []        -- clip, underflow, saturation, outlier hit, non-finite
  chunks   : List (Nat × Word) := []
  tables   : List (Nat × Nat) := []
  insertOutcome : Option Nat := none
  deriving DecidableEq, Repr

/-- One search, from its admission to its completion (04 R109, R110; 05 R170 to R174). -/
structure Search where
  coll    : Nat
  asOf    : Nat
  asked   : Nat                    -- as-of position asked (0 for the watermark)
  wmAtStart : Nat := 0
  timedOut : Bool := false
  desc    : Desc
  stage   : Stage := .queued
  order   : Nat := 0               -- order of admission
  readyAt : Option Nat := none     -- local time it became Ready
  queuedAt : Nat := 0              -- tracked tape time of admission
  startAt : Nat := 0               -- local time the context was taken
  engine  : Nat := 0               -- walker engine of its context
  exactEngine : Bool := false      -- its ExactSample runs in that engine (R153)
  needTwo : Bool := false          -- takes two contexts (16 R534)
  segsTaken : List Nat := []       -- segments taken at admission (R118)
  buildTaken : List Nat := []      -- Building segments taken at admission
  tailFrom : Nat := 0              -- seal sequence at admission (R119)
  entrySet : List Nat := []        -- main entry set taken at admission
  rules   : List (List Byte) := [] -- enabled rules that apply, as at admission (05 R180)
  near    : List Word := []        -- count thresholds that R117 looks at, as at admission (05 R189)
  breadth : Nat := 0               -- current Breadth (05 R171)
  walks   : List Walk := []
  segsLeft : List Nat := []        -- segments still to be walked in waves, newest first (R122)
  saved   : Option (Walk × List Cand) := none   -- the main walk and spilled entries in the save area (R122)
  flat    : List Nat := []         -- slots of flat scans still to be scored
  visited : List Nat := []         -- slots that have passed the visited filter, newest first (R128)
  spilled : List Cand := []
  results : List Entry := []
  rounds  : Nat := 0
  poolHops : Nat := 0
  poolDist : Nat := 0
  poolFrom : Nat := 0              -- local time the cycle pool was filled
  postRun : Bool := false
  postDue : List Nat := []         -- slots the post-filter pass still scores
  rejected : List Nat := []        -- slots it read and rejected (R176)
  hops    : Nat := 0
  dists   : Nat := 0
  flatScanned : Nat := 0
  admitted : Nat := 0
  convoys : Nat := 0
  bloomOnly : Nat := 0
  nans    : Nat := 0
  cyclesUsed : Nat := 0
  hitHops : Bool := false
  hitDist : Bool := false
  hitCyc  : Bool := false
  exhausted : Bool := false        -- every slot covered was scored or rejected (05 R176)
  segsWalked : Nat := 0
  segsSkip : List Nat := []        -- segments marked skipped (R131), newest first
  entryKey : Nat := 0
  localList : List Entry := []     -- the local cast, then the final local list
  report  : Report := {}
  chain   : BitVec 64 := 0         -- LeftOutMass carried along the chain (07 R245)
  dups    : Nat := 0
  rescoreDone : Nat := 0
  rescoreFail : Nat := 0
  rescoreIncomplete : Bool := false
  rescoreSkipped : Bool := false
  exactSampled : Bool := false
  recallHits : Nat := 0
  recallDenom : Nat := 0
  shards  : List ShardAsk := []
  scattered : Bool := false
  sets    : List PrecedentSet := []
  tripped : List Tripped := []
  encoded : Option EncodedPart := none
  record  : List Byte := []        -- the Sillage record that waits for room
  ringUntil : Nat := 0
  aborting : Bool := false         -- ABORTED once its passes in flight have drained (04 R147)
  stageAt : Nat := 0               -- local time the current latency stage began (R154)
  deriving DecidableEq, Repr

/-- One open convoy, or one issued pass (04 R132 to R135): a row and the (query, slot) pairs it scores. -/
structure Convoy where
  coll   : Nat
  row    : Nat
  flat   : Bool
  openedAt : Nat
  pairs  : List (Nat × Nat)        -- search and slot
  issued : Bool := false
  deriving DecidableEq, Repr

end Sys2Proof.Machine
end

