-- ==== Sys2Proof/Machine/BlockParts.lean ====
section
/-!
DEFINITION. The state of the node's blocks, one record a block: faults (20), the Call Board (19), Prompters (20, 23), the
Tape and the Cue Table (02), queues (15), domains (16) and the CXL attachment (14). Every field is plain data.
-/

namespace Sys2Proof.Machine

/-! ### Faults (20) -/

/-- A fault message, four words (20 R628). -/
structure FaultMsg where
  w0 : Nat := 0
  w1 : Nat := 0
  w2 : Nat := 0
  w3 : Nat := 0
  deriving DecidableEq, Repr

/-- One first-fault latch with its Overflow and Count (20 R633, R634, R656); empty while `msg.w0` is 0. -/
structure Latch where
  msg      : FaultMsg := {}
  overflow : Bool := false
  count    : Nat := 0
  deriving DecidableEq, Repr

/-- Block FLT (20 R632 to R645). -/
structure FltBlock where
  inbox     : List FaultMsg := []    -- sent and not yet taken, oldest first (R632)
  latches   : Table Latch := []      -- by page
  glob      : Latch := {}
  kindCnt   : Table Nat := []
  faulted   : Bool := false
  stuck     : Bool := false
  alive     : Bool := false          -- level of ALIVE_OUT
  lastToggle : Nat := 0
  dryFrom   : Option Nat := none     -- tracked tape time at which the Drydown started or last restarted
  recovered : List Nat := []         -- tracked tape times of the recoveries, newest first
  recoverCnt : Nat := 0
  chipReset : Option Nat := none     -- local time of the ChipReset fault whose warm start has not begun (R639)
  resets    : Table Nat := []        -- page → local time its block reset began (R640)
  deriving DecidableEq, Repr

/-! ### The Call Board (19) -/

/-- One host vector that has been used (19 R620 to R622). -/
structure Vec where
  armed   : Bool := false
  pending : Nat := 0
  timer   : Option Nat := none       -- local time at which the timer started
  held    : Bool := false
  masked  : Bool := true             -- its mask bit in the MSI-X table (log entry 8)
  deriving DecidableEq, Repr

/-- The MSI-X control bits of one function. -/
structure MsixFn where
  enable : Bool := false
  mask   : Bool := false
  deriving DecidableEq, Repr

/-- Block CBD. Vectors are keyed function × 2,048 + vector. -/
structure CbdBlock where
  vecs     : Table Vec := []
  fns      : Table MsixFn := []
  known    : List Nat := []          -- level sources whose present assertion has been handled (R615)
  inHost   : List Nat := []          -- sources InService at their host vector
  inPrm    : Table Nat := []         -- source InService at a Prompter → that Prompter
  masks    : Table Nat := []         -- PrompterMask of a source, set by firmware
  sw       : Nat := 0                -- asserted software sources (R618)
  latched  : Table Nat := []         -- edge source latched while its clocks are stopped → arrival (R619)
  deriving DecidableEq, Repr

/-! ### Prompters (20 R646, R647; 23 R723) -/

/-- One Prompter. -/
structure Prompter where
  running  : Bool := false
  trapped  : Bool := false           -- trapped since its last heartbeat
  heldFrom : Option Nat := none      -- held in reset since
  beat     : Nat := 0                -- local time of its last heartbeat
  missed   : Bool := false           -- missed its heartbeat without a reset since
  waiting  : Bool := false           -- waits for an interrupt (19 R617)
  deriving DecidableEq, Repr

/-! ### The Tape and the Cue Table (02) -/

/-- The captured values of CUE_TP_LO (R45). -/
structure TapeCap where
  tpHi : Nat := 0
  ttLo : Nat := 0
  ttHi : Nat := 0
  deriving DecidableEq, Repr

/-- Block CUE. -/
structure CueBlock where
  tape    : Tape := {}
  cap     : TapeCap := {}
  entries : Table CueEntry := []
  entStat : Nat := 0                 -- CUE_ENT_STAT
  logHead : Nat := 0
  fired   : List Nat := []           -- local times of the firings of the last microsecond (R55)
  deriving DecidableEq, Repr

/-! ### Queues (15) -/

/-- A domain's Sillage ring (11 R361, R362); `head` is where the next record starts. -/
structure Ring where
  base   : Nat
  tail   : Nat                       -- address of the tail word
  length : Nat
  waitUs : Nat
  head   : Nat := 0
  deriving DecidableEq, Repr

/-- Block QMG. -/
structure QmgBlock where
  rings  : Table Ring := []          -- by domain
  queues : Table Queue := []
  cmds   : Table Cmd := []           -- outstanding commands by number, in fetch order
  nextCid : Nat := 0
  rrAt   : Nat := 0                  -- queue being visited by the round robin (R494)
  rrLeft : Nat := 0                  -- fetches left of that visit
  deriving DecidableEq, Repr

/-! ### Domains (16) -/

inductive DomState where
  | absent | inactive | active | retiring
  deriving DecidableEq, Repr

/-- One domain (16 R520 to R532) with its tier ledger (12 R408, R409). -/
structure Domain where
  state      : DomState := .absent
  cueQuota   : Nat := 0
  walkerShare : Nat := 0
  topReserve : Nat := 0
  winBase    : Nat := 0
  winLength  : Nat := 0
  privs      : Nat := 0
  retirers   : List Nat := []        -- DOMAIN_RETIRE commands that wait
  quotaTop   : Nat := 0
  quotaHeart : Nat := 0
  quotaBase  : Nat := 0
  usedTop    : Nat := 0
  usedHeart  : Nat := 0
  usedBase   : Nat := 0
  deriving DecidableEq, Repr

/-- The fuses (16 R537, 21 R659 to R664): what the part was given at the factory. -/
structure Fuses where
  maxDomains : Nat := 4096
  grantable  : Nat := 0x1F
  smPorts    : Nat := 0
  debugLocked : Bool := true
  ftmLocked  : Bool := true
  svnFloor   : List Nat := [0, 0, 0, 0]   -- Kinds 1 to 4
  slots      : List (List Byte) := [List.replicate 48 0xFF#8, List.replicate 48 0#8, List.replicate 48 0#8, List.replicate 48 0#8]  -- the digests of 21 R661
  deriving DecidableEq, Repr

/-- Block DOM. -/
structure DomBlock where
  doms     : Table Domain := [(0, { state := .active, privs := 0x1F })]
  rules    : Table (List Byte) := []  -- domain × 65,536 + RuleId → rule (05 R180)
  fuses    : Fuses := {}
  ftm      : Bool := false            -- FtmActive (R539)
  lastDeny : Nat := 0
  deriving DecidableEq, Repr

/-! ### The CXL attachment (14) -/

/-- Block CXL. -/
structure CxlBlock where
  width    : Nat := 0
  rate     : Nat := 0
  mode     : Nat := 0                 -- 0 down, 1 PCIe only, 2 CXL 68-byte, 3 CXL 256-byte
  committed : Bool := false
  base     : Nat := 0
  errNotCommitted : Bool := false
  ideIo    : Bool := false
  ideMem   : Bool := false
  idePendIo  : Bool := false          -- refreshed keys wait for the next key switch (R478)
  idePendMem : Bool := false
  doeBusy  : List Bool := [false, false, false]   -- CDAT, SPDM, IDE_KM
  vfs      : Nat := 255               -- VFs that SR-IOV has enabled: configuration space, which no step of the table writes
  lastTrain : Nat := 0
  deriving DecidableEq, Repr

/-! ### The fabric (17) and egress (18) -/

/-- A message in the node's hands: its 32-byte header and payload (17 R562). -/
structure Msg where
  header  : List Byte
  payload : List Byte := []
  deriving DecidableEq, Repr

/-- What a partner offered (17 R549, R560, R565). -/
structure Offer where
  mask    : Nat := 0
  minors  : List Nat := [0, 0, 0]
  feature : Nat := 0
  node    : Nat := 0
  incarnation : Nat := 0
  deriving DecidableEq, Repr

/-- One fabric port (17 R543 to R557). -/
structure FabPort where
  up         : Bool := false
  wasUp      : Bool := false            -- up since its last FabricLinkDown (R548)
  negotiated : Bool := false
  modulePresent : Bool := false
  lanes      : List Nat := []           -- physical lane of each logical lane
  understudy : Option Nat := none
  failed     : List Nat := []           -- failed physical lanes
  displaced  : List Nat := []           -- swapped out, not yet retrained or failed (R546)
  offer      : Option Offer := none
  gen        : Nat := 0
  minor      : Nat := 0
  delay      : Int := 0                 -- R551, FAB_DELAY_ADJ_NS not included
  samples    : List Int := []           -- t4 − t1 − (t3 − t2) of the exchanges of this bring-up
  txSeq      : Nat := 0                 -- sequence of the next Data flit sent
  rxSeq      : Nat := 0                 -- sequence of the next Data flit expected
  replay     : List (Nat × List Byte) := []   -- sent and not covered by an AckSeq, oldest first
  replays    : Nat := 0                 -- replays of the oldest flit without progress
  nakSent    : Bool := false            -- discards Data flits until the expected one
  credits    : List Nat := []           -- credits held for each channel of the partner
  owed       : Nat := 0                 -- VC 1 credit withheld while the admission queue is full (R557)
  rx         : Table (List Byte) := []  -- bytes of the message being received on each channel
  tried      : Nat := 0                 -- local time of the last bring-up attempt
  segs       : List Msg := []           -- transport segments that wait for credit
  retraining : Bool := false            -- down for a retrain: flit sequences and replay stay (R548, R555)
  stallFrom  : Option Nat := none       -- local time since which a flit has waited for credit
  deriving DecidableEq, Repr

inductive ConnState where
  | closed | opening | open | down
  deriving DecidableEq, Repr

/-- One connection (17 R559 to R561). -/
structure Conn where
  state   : ConnState := .closed
  offer   : Offer := {}
  gen     : Nat := 0
  minor   : Nat := 0
  seqTx   : Nat := 1                    -- Seq of the next message
  seqRx   : Nat := 1                    -- Seq expected next
  unacked : List (Nat × Msg) := []
  queued  : List Msg := []              -- wait for the connection to open or for room among 256
  resends : Nat := 0
  progressAt : Nat := 0
  openedAt : Nat := 0                   -- local time of the last Open sent
  deriving DecidableEq, Repr

/-- What a reply will answer (17 R561, R564). -/
inductive Asked where
  | shard (search index : Nat)
  | replicate (coll : Nat)
  | probe (coll : Nat)
  | ship (cid : Nat)
  | cues (cid : Nat)
  deriving DecidableEq, Repr

structure Req where
  node : Nat
  what : Asked
  deriving DecidableEq, Repr

/-- A stamped mutation item held for the Twin (17 R570, R572). -/
structure HeldMut where
  opcode : Nat
  pos    : Nat
  item   : List Byte
  sent   : Bool := false
  deriving DecidableEq, Repr

/-- Replication of one collection (17 R570 to R572). -/
structure Repl where
  source  : Nat
  domain  : Nat
  held    : List HeldMut := []          -- in ascending position, then in the order stamped
  sentTo  : Nat := 0                    -- the position up to which PositionComplete was sent
  twinW   : Nat := 0                    -- the Twin's last reported watermark
  idleAt  : Nat := 0                    -- local time of the last empty message
  broken  : Bool := false
  probing : Bool := false               -- waits for the Probe's reply before it resends (R571)
  deriving DecidableEq, Repr

/-- A transfer being received (17 R573). -/
structure Transfer where
  domain : Nat
  segs   : Nat
  next   : Nat := 0
  data   : List Byte := []
  deriving DecidableEq, Repr

/-- One part of a shard being sent: a volume, or the collection's image (17 R573). -/
structure ShipPart where
  volume : Option Nat                   -- none: the image
  id     : Nat
  bytes  : Nat
  deriving DecidableEq, Repr

/-- A SHARD_SEND at work: the parts still to go, the next segment of the first, and the CRC-32C so far. -/
structure Ship where
  node   : Nat
  domain : Nat
  image  : List Byte
  parts  : List ShipPart
  seg    : Nat := 0
  crc    : Nat := 0xFFFFFFFF
  deriving DecidableEq, Repr

/-- Block FAB, node-wide. Transfers are keyed sender × 2^33 + kind × 2^32 + collection or volume. -/
structure FabBlock where
  ports   : List FabPort := [{}, {}, {}, {}]
  routes  : Table (Nat × Nat × Nat) := []     -- node → primary port, alternate port, hop count
  conns   : Table Conn := []
  incarnation : Nat := 0
  floor   : Nat := 0
  shardMaps : Table (List (Nat × Nat × Bool)) := []   -- collection → (primary, Twin, Preferred names the Twin)
  repls   : Table Repl := []
  epoch   : Nat := 0
  expiry  : Nat := 0
  reqs    : Table Req := []
  nextReq : Nat := 1
  transfers : Table Transfer := []
  ships   : Table Ship := []                  -- by SHARD_SEND command
  forwards : List (Nat × Msg) := []           -- forwarded messages that wait for room, with the port they arrived on (18 R596)
  deriving DecidableEq, Repr

/-- A message queued at a port, with its place in the order of arrival (18 R583, R595). -/
structure Queued where
  order : Nat
  msg   : Msg
  waited : Bool := false                      -- already counted in SHP_GATE_WAIT_CNT
  deriving DecidableEq, Repr

/-- A bucket as it stood at a local time (18 R590, R592, R604); levels are bytes × 1,000. -/
structure Bucket where
  level : Int := 0
  at_   : Nat := 0
  deriving DecidableEq, Repr

/-- The service message being sent: its class, the local time it ends, whether its gate has closed on it (18 R601). -/
structure Sending where
  cls  : Nat
  vc   : Nat
  ends : Nat
  late : Bool := false
  deriving DecidableEq, Repr

/-- The queues and choices of one port (18 R583 to R602). -/
structure ShpPort where
  tape     : List Queued := []
  fault    : List Queued := []
  service  : List Queued := []
  bucket   : Option Bucket := none            -- none: full
  subs     : Table Bucket := []               -- unlisted: full
  subDef   : Table Nat := []                  -- deficits by subscriber
  classDef : Table Nat := []                  -- deficits by subscriber × 8 + class
  typeDef  : Table Nat := []                  -- deficits by message type
  lastSub  : Nat := 0                         -- where the round robin stands
  lastClass : Table Nat := []
  lastType : Nat := 0
  bank     : Nat := 0
  entry    : Nat := 0                         -- gate entry in force (R599)
  sending  : Option Sending := none
  lastStart : Nat := 0                        -- tape time at which the last service message started
  txBytes  : Nat := 0                         -- lengths charged (SHP_TX_BYTES)
  deriving DecidableEq, Repr

/-- Block SHP. -/
structure ShpBlock where
  ports    : List ShpPort := [{}, {}, {}, {}]
  order    : Nat := 0
  tableErr : Bool := false                    -- since a parity error; Hierarchical has not been cleared and set (R594)
  policers : Table (Bucket × Bucket) := []    -- committed and peak buckets; unlisted: full
  colours  : Table Nat := []                  -- policer × 4 + colour → messages of that colour
  deriving DecidableEq, Repr

end Sys2Proof.Machine
end

