-- ==== Sys2Proof/Machine/EngineParts.lean ====
section
/-!
DEFINITION. The state of the engines and of the blocks that start, secure and power the node: the walker and collections
(03, 04), Near-Bank Units (06), casting (07), the encoder and Scores (08, 09), tables (10), Sillage rings (11), the tiers
(12), flash (13), security (21), calibration (22), power (24). Every field is plain data.
-/

namespace Sys2Proof.Machine

/-! ### Collections and the walker (03, 04) -/

/-- Block WLK and the collections it searches. -/
structure WlkBlock where
  colls    : Table Coll := []
  sources  : Table Source := []
  watermark : Nat := 0                -- the node watermark (R84)
  searches : Table Search := []       -- by command number; a precedent or shard search too
  restoredW : Option Nat := none      -- least W that a restore has set since the cold start (R107)
  leastFloor : Table Nat := []        -- source → least floor that a restore has recorded for it (R107)
  wasActive : Bool := false           -- some source has been Active since the cold start (R107)
  order    : Nat := 0
  convoys  : Table Convoy := []
  nextConvoy : Nat := 0
  hist     : Table Nat := []          -- stage × 32 + bucket (04 R154)
  occupancy : Table Nat := []         -- closed convoys by occupancy − 1
  slowFrom : Nat := 0                 -- tape time at which the running second of R155 began
  slow     : List Nat := []           -- stage 7 durations in it
  fvc      : List (Nat × Nat) := []   -- cached full vectors, oldest first: collection, slot
  deriving DecidableEq, Repr

/-! ### The tiers (12) -/

/-- One stack's controller (12 R401 to R407). -/
structure HmcStack where
  ueLoc    : Option (Nat × Nat) := none   -- location and window offset of the first uncorrectable read since the last register read
  badRows  : List Nat := []               -- the bad-row list, bank × 98,304 + row
  scrubHits : Table Nat := []             -- row → scrub passes that needed an outer correction in it
  outerFrom : Nat := 0                    -- the running second of R406
  outerIn   : Nat := 0                    -- outer corrections in it
  deriving DecidableEq, Repr

/-- Top's frames, Heart's extents and the HMCs (12). -/
structure TierBlock where
  frames   : Table Nat := []              -- Top frame → domain that holds it (R387)
  retiring : List Nat := []               -- held, not to be issued again (R388)
  retired  : List Nat := []
  stackList   : List HmcStack := List.replicate 8 {}
  raw      : Table Nat := []              -- raw-extent handle → domain (R392)
  rawBytes : List Host.Cell := []         -- bytes of raw extents: handle × 2^28 + offset
  inter    : Nat := 0                     -- interleaved extents held
  withheld : List Nat := []               -- extents withheld under R407: interleaved E, or 2^16 + raw handle
  mapExtents : Nat := 64                  -- extents of the flash map (R395)
  badBlocks : List Nat := []              -- 64-byte window blocks that read uncorrectable (R402)
  deriving DecidableEq, Repr

/-! ### Casting (07) -/

/-- A unique-with-counts request of GTH (07 R248): values, each with its bag and weight where it has one. -/
structure CstUnique where
  values : List Nat
  bags   : List (Nat × Word) := []
  counts : List (Nat × Nat) := []             -- once served: distinct values and their counts
  sums   : List (Nat × Nat × Word) := []      -- once served: bag, value and summed weight
  served : Bool := false
  deriving DecidableEq, Repr

/-- Block CST: the unique-with-counts requests by the command that sent them, and the last index of a maximum (07 R249). -/
structure CstBlock where
  uniques : Table CstUnique := []
  index   : Option (Nat × Word) := none
  deriving DecidableEq, Repr

/-! ### Near-Bank Units (06) -/

/-- The registers of one unit while a raw run holds it (06 R191). What the run has not written is what an earlier program or
walker pass left: a free value, drawn with `seed` (log entry 13). -/
structure UnitRegs where
  seed  : Nat := 0
  q     : Table Nat := []              -- written 16-bit elements of Q0 to Q63
  v     : Table Nat := []              -- written elements of V
  acc   : Table (BitVec 40) := []      -- written accumulators: two's complement, or the 40-bit float
  s     : Table Bool := []             -- written S bits
  f     : Table Bool := []             -- written F bits
  rows  : List (Option Nat) := [none, none]   -- open row of each bank
  deriving DecidableEq, Repr

inductive RunPhase where
  | waiting | running | ended
  deriving DecidableEq, Repr

/-- One RUN past its load checks (06 R217 to R220). -/
structure RawRun where
  cid    : Nat
  stack  : Nat
  pseudo : Nat
  mask   : Nat
  extent : Nat
  fp     : Bool
  instrs : List Nat
  payload : List Byte
  rowList : List Nat
  rowStep : Nat
  maxEmits : Nat
  worst  : Nat
  segs   : List (Nat × Nat)            -- segments still to run: instructions of the unrolled program, cycles
  pos    : Nat := 0                    -- instructions of the unrolled program done
  phase  : RunPhase := .waiting
  startAt : Nat := 0
  segEnd : Nat := 0                    -- local time at which the running segment ends
  units  : Table UnitRegs := []        -- by unit within the pseudo-channel
  entries : List (List Byte) := []     -- emitted, newest first
  emits  : Nat := 0
  satSeen : Bool := false
  nanSeen : Bool := false
  segsRun : Nat := 0
  refreshes : Nat := 0
  cycles : Nat := 0
  corrections : Nat := 0
  aborting : Bool := false
  deriving DecidableEq, Repr

/-- One stack's units and region table (06 R202, R209 to R215, R219, R228, R229). -/
structure PnmStack where
  disabled : List Nat := []
  corr     : Table Nat := []           -- corrections by unit since the start
  corrFrom : Nat := 0                  -- start of the running second of R229
  corrIn   : Table Nat := []           -- corrections by unit in it
  regions  : Table (Nat × Nat × Nat) := []   -- extent handle, first row, rows
  dueAt    : Table Nat := []           -- pseudo-channel → next refresh falls due; unlisted: 3,900 ns
  held     : List (Nat × Nat × Nat) := []    -- unit, from, to: ended holds of the last 1,000 µs
  deriving DecidableEq, Repr

/-- Blocks PNM0 to PNM7. Runs are numbered in order of load; `closing` holds SCRATCH_CLOSE commands that wait (06 R214). -/
structure PnmBlock where
  stackList  : List PnmStack := List.replicate 8 {}
  runs    : Table RawRun := []
  nextRun : Nat := 0
  closing : List Nat := []
  deriving DecidableEq, Repr

/-! ### The Base tier (13) -/

/-- One base volume (13 R422). -/
structure Volume where
  owner    : Nat
  gib      : Nat
  readOnly : Bool := false
  isClosed : Option Nat := none        -- the VOLUME_DESTROY that closed it
  charged  : Bool := true              -- its size stands in the owner's Base Used (12 R413)
  deriving DecidableEq, Repr

/-- One mapped unit of 16 KiB (13 R423): its physical page and what a read of it meets. -/
structure FlashUnit where
  page : Nat
  data : List Host.Cell := []          -- bytes by offset in the unit; unlisted: 0
  bad  : List Nat := []                -- 4 KiB codewords that read uncorrectable (R433)
  lost : Bool := false                 -- reads complete MEDIA_ERROR (R443)
  loose : List Nat := []               -- 4 KiB parts discarded: each byte reads old or 0 (R430)
  deriving DecidableEq, Repr

inductive BlockUse where
  | free | opened | closed | parity | store | retired
  deriving DecidableEq, Repr

/-- One flash block that has been used (13 R437 to R442). -/
structure FlashBlock where
  use    : BlockUse := .free
  erases : Nat := 0
  seq    : Nat := 0                    -- write sequence of its last programmed page
  valid  : Table Nat := []             -- page → unit it holds
  deriving DecidableEq, Repr

/-- The open or closing stripe of a stream (13 R434, R436). -/
structure Stripe where
  data   : List Nat                    -- data blocks, one a channel
  parity : Nat
  next   : Nat := 0                    -- pages allotted so far
  ended  : Nat := 0                    -- pages whose program has ended
  checked : Nat := 0                   -- pages verified, once it is closing
  limit  : Option Nat := none          -- a stripe that a start closed at its last programmed page (R453)
  deriving DecidableEq, Repr

/-- What an operation on the devices is for. -/
inductive FlashTask where
  | read (cid part : Nat)              -- one 4 KiB part of a BASE_READ
  | merge (cid unit target off : Nat) (data : List Byte)   -- the rest of a unit that a BASE_WRITE covers in part
  | prog (cid unit : Nat) (data : List Host.Cell)  -- a page of a BASE_WRITE
  | move (unit src : Nat)              -- a page that garbage collection or refresh moves
  | check (unit src : Nat)             -- the read-back of such a page (R439)
  | verify (stripe : Nat)              -- one page of a closing stripe (R436)
  | erase
  deriving DecidableEq, Repr

/-- An operation in progress; `page` is its physical page, block × 4,096 + page. -/
structure FlashOp where
  task   : FlashTask
  page   : Nat
  deriving DecidableEq, Repr

/-- A committed index checkpoint (13 R448, R450): the collection and each source's W and StampedAtNext. -/
structure Checkpoint where
  coll  : Coll
  floors : List (Nat × Nat × Nat)
  major : Nat := 1
  seq   : Nat := 0                     -- write sequence of its commit page
  deriving DecidableEq, Repr

/-- Block BFT with its channels. A LUN is numbered channel × 16 + LUN, a block LUN × 65,536 + address, a unit
volume × 2^32 + unit. -/
structure BftBlock where
  stalled   : Bool := false
  exhausted : Bool := false
  spareLow  : Bool := false
  readOnlySeen : Bool := false
  volumes   : Table Volume := []
  units     : Table FlashUnit := []
  blocks    : Table FlashBlock := []
  luns      : List Nat := []           -- online LUNs
  lunFails  : Table Nat := []          -- consecutive failures
  rates     : Table Nat := []          -- channel → MT/s
  pagesPerBlock : Nat := 384
  blocksPerLun  : Nat := 0
  ratedPE   : Nat := 0
  good0     : Nat := 0                 -- good blocks at the cold start
  retired   : Nat := 0
  exported  : Nat := 0                 -- GiB (R444)
  ckptGib4  : Nat := 0                 -- checkpoint area in quarters of a GiB
  spareFirst : Option Nat := none      -- SpareBlocks at the first cold start
  seq       : Nat := 0                 -- write sequence
  streams   : Table Stripe := []       -- 0 Hot, 1 Cold, 2 Relocation
  closing   : Table Stripe := []
  ops       : Table FlashOp := []
  victims   : List Nat := []           -- blocks to be emptied: refreshed and retired ones, then the victim of R438
  victim    : Option Nat := none       -- the block being emptied
  waits     : Table Nat := []          -- BASE_WRITE that waits for a free block → since (R447)
  ckpts     : Table Checkpoint := []   -- volume × 65,536 + collection
  calRec    : Option (List Byte) := none   -- newest committed Kind 3 record (R451)
  lmsRec    : Option (List Byte) := none   -- newest committed Kind 4 record
  ftlHalf   : Nat := 0                 -- half written next (R449)
  ftlSeq    : List (Option Nat) := [none, none]   -- sequence that each half covers
  ftlAt     : Nat := 0                 -- local time of the last FTL checkpoint
  hostWr    : Nat := 0
  nandWr    : Nat := 0
  hard      : Nat := 0
  retry     : Nat := 0
  soft      : Nat := 0
  uncorr    : Nat := 0
  progFail  : Nat := 0
  eraseFail : Nat := 0
  rebuilds  : Nat := 0
  lunFailures : Nat := 0
  refreshes : Nat := 0
  tempNow   : Option Int := none
  tempMax   : Option Int := none
  hours     : List (Option Int) := []  -- hourly maxima, most recent first; the running hour leads
  days      : List (Option Int) := []
  tempAt    : Nat := 0                 -- local time of the last poll
  above85   : Nat := 0                 -- ns with TempNow above 85 °C
  deriving DecidableEq, Repr

/-! ### Embedding tables (10) -/

/-- One version slot that is not Free (10 R332); dropped while earlier commands still hold it (R336). -/
structure TabVer where
  num     : Nat
  dropped : Bool := false
  rows    : Table (List Byte) := []    -- stored rows; unlisted: every byte 0
  deriving DecidableEq, Repr

/-- One table (10 R326). Slots are numbered in the order in which they were opened. -/
structure Tab where
  owner    : Nat
  kind     : Nat
  fmt      : Nat := 0
  adagrad  : Bool := false
  autoHot  : Bool := false
  elems    : Nat
  rowCount : Nat := 0
  hashMult : Nat := 0
  accA     : Nat := 0
  accB     : Nat := 0
  accProduct : Bool := false
  slots    : Nat := 0
  vers     : Table TabVer := []
  current  : Nat := 0
  nextVer  : Nat := 1
  extents  : Nat := 0
  frames   : List Nat := []
  hot      : List (Nat × Nat) := []    -- slot and row copied in the hot area, least recently read first
  dir      : Table Nat := []           -- row version words (R350), slot × 2^32 + row; unlisted: 0
  autoAt   : Nat := 0                  -- tape time at which the running interval of R353 began
  switchers : List Nat := []           -- switches dispatched and not yet in effect: command, or 2^40 + index of a cue's firing
  cueTarget : Table Nat := []          -- a cue's switch → version, + 2^32 × first command admitted after it
  isClosed : Option Nat := none
  deriving DecidableEq, Repr

/-- Block GTH. -/
structure GthBlock where
  tables : Table Tab := []
  deriving DecidableEq, Repr

/-! ### Scores and the encoder (08, 09) -/

/-- One scale record (08 R271): E_L, the amax history, and the layer's counters (R277). -/
structure ScaleRec where
  eL      : Nat := 127
  hist    : List Word := []            -- FP32, oldest first, at most 16
  clips   : Nat := 0
  under   : Nat := 0
  sat     : Nat := 0
  hits    : Nat := 0
  nonfin  : Nat := 0
  lastHit : Nat := 0
  raises  : Nat := 0
  falls   : Nat := 0
  deriving DecidableEq, Repr

/-- One state record (08 R291, 09 R319): header and the active half. -/
structure SeqRec where
  commits : Nat := 0                   -- CommitCount; its parity is ActiveHalf
  count   : Nat := 0
  ooo     : Nat := 0
  last    : Nat := 0
  openSum : Word := 0
  top     : List (Nat × Word) := []    -- TopChunks, largest first
  glr     : List (List Word) := []     -- state of each GLR operator, FP32 values
  caches  : List (List (List Word × List Word)) := []   -- keys and values of each WATTN operator, oldest first
  deriving DecidableEq, Repr

/-- One resident Score (09 R309 to R325); its image is the resident part. -/
structure Score where
  owner   : Nat
  image   : List Byte
  scales  : Table ScaleRec := []       -- layer × 2, + 1 for its outlier lanes
  pool    : Table SeqRec := []         -- by sequence key
  poolExtents : Nat := 0
  extents : Nat := 0
  frames  : List Nat := []
  isClosed : Option Nat := none        -- the command that closed it: SCORE_UNLOAD, or SCORE_LOAD with Adopt
  adopts  : Option Nat := none         -- the predecessor, while its commands complete (R324)
  deriving DecidableEq, Repr

/-- One event of an ENCODE or ENCODE_SEARCH, its features pooled (15 R502; 10 R343). -/
structure EncEvent where
  cid   : Nat
  index : Nat                          -- place in the command's list
  seq   : Nat
  pos   : Nat
  item  : Nat := 0
  attrs : List Byte := []
  x     : List Word                    -- FP32
  deriving DecidableEq, Repr

/-- A command with events that have not all committed. -/
structure EncCmd where
  score   : Nat
  events  : List EncEvent
  since   : Nat                        -- local time its events began to wait (08 R288)
  taken   : Nat := 0                   -- events that a closed batch has taken
  raw     : List Byte := []            -- ENCODE_SEARCH: the search descriptor, as at admission
  program : List Byte := []            -- and its predicate
  deriving DecidableEq, Repr

/-- A closed batch, and what has streamed for it once it runs (08 R288; 09 R315). -/
structure Batch where
  score   : Nat
  events  : List EncEvent
  startAt : Nat := 0
  slices  : Nat := 0                   -- slices streamed
  tile    : Option Nat := none         -- tiles of the streaming slice that have landed
  reread  : Bool := false              -- the next landing is a second read (08 R281)
  deriving DecidableEq, Repr

/-- Clusters ENC0 to ENC3 and the resident Scores. -/
structure EncBlock where
  scores   : Table Score := []
  issued   : Nat := 0                  -- handles issued since the cold start
  cmds     : Table EncCmd := []        -- by command
  closed   : List Batch := []          -- in order of closing
  running  : Table Batch := []         -- by cluster
  disabled : List (Nat × Nat) := []    -- cluster and array
  encoded  : Table EncodedPart := []   -- ENCODE_SEARCH whose event has committed and whose insert waits (03 R99)
  vectors  : Table (List Nat × List Nat) := []   -- its projected vector and its embedding
  deriving DecidableEq, Repr

/-! ### Security (21) -/

/-- A registered Score-signing key pair: its 160-byte key block and the bitmap of its domains (09 R308). -/
structure ScoreKey where
  block   : List Byte
  domains : List Byte
  deriving DecidableEq, Repr

/-- What SPDM keeps of one transport (21 R670). -/
structure SpdmConn where
  version : Bool := false             -- GET_VERSION answered
  caps    : Bool := false
  algs    : Bool := false
  large   : List Byte := []           -- a request being received in chunks
  deriving DecidableEq, Repr

/-- A secure session; `finished` once its handshake is complete. -/
structure SpdmSess where
  path     : SpdmPath
  finished : Bool := false
  deriving DecidableEq, Repr

/-- What an SPDM response says of the manual's matter; its encoding is SPDM's own (21 R670 to R672). -/
inductive SpdmReply where
  | version | capabilities | algorithms | digests | certificate
  | challengeAuth (input : Nat)                       -- signed with the Alias key; the input it signs, by number
  | measurements (blocks : List (List Byte)) (signedInput : Option Nat)
  | keyExchange (session : Nat)
  | finished | heartbeatAck | keyUpdateAck | endSessionAck | chunkAck
  | vendor (payload : List Byte)
  | error
  deriving DecidableEq, Repr

/-- Block SEC. -/
structure SecBlock where
  keys     : Table ScoreKey := []      -- by KeyPairId
  doe      : SpdmConn := {}
  mctp     : SpdmConn := {}
  sessions : Table SpdmSess := []
  nextSession : Nat := 1
  lastSigned : Table Nat := []         -- transport and session → number of the input signed last (R672)
  lmsNext  : Nat := 0                  -- N of R666
  lmsEnd   : Nat := 0                  -- E of R666
  lmsReady : Bool := false
  lmsCommitting : Bool := false        -- a reservation is being committed
  lmsWait  : List SpdmRequest := []    -- requests that wait for it, oldest first
  bootReasons : List Nat := [0, 0, 0, 0]   -- Kinds 1 to 4 (R662)
  svnRun   : List Nat := [0, 0, 0, 0]
  measures : List (List Byte) := [zeroBytes 48, zeroBytes 48, zeroBytes 48, zeroBytes 48]
  recovery : Bool := false             -- the recovery firmware runs
  fwVersion : Nat := 0                 -- ImageVersion of the running firmware (23 R723)
  rootSlot : Option Nat := none        -- slot used by the running firmware
  warmSkipped : Bool := false
  regions  : Table Nat := [(1, 33554432), (2, 33554432), (3, 33554432), (4, 33554432)]   -- MaxBytes by Kind (22 R681)
  images   : Table (List Byte) := []   -- images written by IMAGE_WRITE, by Kind
  deriving DecidableEq, Repr

/-! ### Starts and calibration (22) -/

/-- Where the node stands between reset and service (22 R678 to R688). -/
inductive Phase where
  | held                    -- a reset input is low, or nothing has released it yet
  | starting (cold : Bool)  -- a start runs
  | running                 -- step 9 has ended
  | tripped                 -- off after a thermal trip (24 R744)
  deriving DecidableEq, Repr

/-- A rehearsal window, or a test that runs as one (R694 to R698). -/
structure Window where
  ends    : Nat                           -- local time at which its length ends
  sweep   : Bool := false                 -- a test alone: nothing retrains (R697)
  swapped : Bool := false                 -- the Understudy was swapped in at its opening (R695)
  serves  : List Nat := []                -- CALIBRATE and SELFTEST commands it serves
  deriving DecidableEq, Repr

/-- Block CAL, with the reset inputs, the straps and the status sector of the boot device. -/
structure CalBlock where
  phase : Phase := .held
  porLow  : Bool := true                  -- POR_L, or a condition that acts as if it were low (24 R735, R738)
  sysLow  : Bool := false
  perstLow : Bool := false
  straps  : Nat := 0                      -- CAL_STRAPS
  cause   : Nat := 0                      -- CAL_LAST_START, with `kind`
  kind    : Nat := 0
  startFrom : Nat := 0                    -- local time the start began
  startMs : Nat := 0                      -- CAL_START_MS
  servedFrom : Nat := 0                   -- local time step 9 last ended
  failedRead : Nat := 0                   -- CAL_FAILED_STARTS
  failedStarts : Nat := 0                 -- FailedStarts in the status sector (R681)
  ranCold : Bool := false                 -- some cold start has ended since POR_L
  tripWait : Bool := false                -- the warm start waits under ThermalTrip (24 R743)
  maintenance : Bool := false
  inForce : List Byte := []               -- the set in force; empty: the default set (R690, R691)
  defaults : Bool := false                -- CAL_STAT.Defaults
  current : Table Nat := []               -- target → current value, where a window has set it (R696)
  trained : Table Nat := []               -- target → index of the training that set its current value; unlisted: the last start's
  lastTrain : Nat := 0                    -- index of the last start's training
  windows : Table Window := []            -- by target
  deriving DecidableEq, Repr

/-! ### Power and thermal (24), margins (20) -/

/-- What PWR keeps of one measure at one index (20 R649, R658). -/
structure Margin where
  last  : Int
  worst : Int
  deriving DecidableEq, Repr

/-- A wear notice that holds back further ones (20 R649). -/
structure Notice where
  raised   : Bool := false                -- no further notice
  goodFrom : Option Nat := none           -- local time since which its measurements have been good
  deriving DecidableEq, Repr

/-- Block PWR and the management port. -/
structure PwrBlock where
  nowW   : Nat := 0
  peakW  : Nat := 0
  mv     : List Nat := []
  amps   : List Nat := []
  temps  : List Int := []                 -- sensors 0 to 71
  throttled : Bool := false
  coolFrom : Option Nat := none           -- local time since which the power has been at or below 95 % of the limit
  thermalHigh : Bool := false
  overTrip : Bool := false                -- the hottest sensor was at PWR_TJ_TRIP or above at the last reading
  stopped : List Nat := []                -- pages whose clocks are stopped (R739)
  margins : Table Margin := []            -- measure × 65,536 + index of PWR_MRG_SEL
  notices : Table Notice := []            -- page × 2^20 + measure × 65,536 + index
  refsLost : List Nat := []               -- 0 CXL_REFCLK, 1 FAB01_REFCLK, 2 FAB23_REFCLK
  railsLow : List Nat := []
  sysClkLost : Bool := false
  i3cAddr : Option Nat := none            -- dynamic address
  smbus  : Bool := false                  -- the management port is an SMBus target (R732)
  alert  : Bool := false                  -- MGMT_ALERT_L is asserted: an MCTP response waits to be read in SMBus mode (R732)
  deriving DecidableEq, Repr

end Sys2Proof.Machine
end

