-- ==== Sys2Proof/Machine/State.lean ====
section
/-!
DEFINITION. The node's state, the reasons a step can stop, and the state at reset. State is plain data and holds every
piece of state the manual names, block by block, and the queue of the steps that wait.
-/

namespace Sys2Proof.Machine

/-- Something that has left the node, newest first in `State.outbox`. -/
inductive Out where
  | msix (fn vector : Nat)                          -- an MSI-X message (19)
  | trap (prompter : Nat)                           -- a non-maskable trap (20 R638)
  | prompterEvent (prompter source : Nat)           -- an event delivered to a Prompter (19 R617)
  | readData (value : Word)                         -- the answer of a register read
  | memData (data : List Byte)                      -- the answer of a CXL.mem read (14 R472)
  | memDone                                         -- the answer of a CXL.mem write or MemInv
  | fabric (port : Nat) (msg : Msg)                 -- a message sent on a fabric port (17, 18)
  | credit (port vc count : Nat)                    -- credit returned to the link partner (17 R556)
  | replay (port : Nat) (flits : List (List Byte))  -- Data flits sent again (17 R555)
  | control (port op : Nat) (bytes : List Byte)     -- a Control flit (17 R553)
  | cdat (length readNs writeNs readMBs writeMBs : Nat)   -- the CDAT response (14 R476)
  | ideKm (session : Nat)                           -- an IDE_KM response (14 R478)
  | spdm (path : SpdmPath) (session : Option Nat) (reply : SpdmReply)   -- an SPDM response (21 R670)
  | pin (name : String) (level : Bool)              -- a driven pin (24)
  | debugData (value : Word)                        -- the answer of a debug access (16 R538)
  deriving DecidableEq, Repr

/-- Memory: (address, byte) pairs, addresses strictly rising, no byte 0 listed; an unlisted byte reads 0. -/
abbrev Memory := List Host.Cell

/-- The node's state. -/
structure State where
  now      : Nat := 0               -- local time base, ns (02 R42)
  pending  : List Instr := []       -- the steps that wait, first in first out
  regs     : Table Nat := []        -- written registers: index × 2^20 + page × 4,096 + offset; unlisted: reset value
  hiCap    : Table Nat := []        -- HI captured by the last read of LO, by page × 4,096 + LO offset (00 R12)
  counts   : Table Nat := []        -- counters, by page × 4,096 + offset
  freeCtr  : Nat := 0               -- the model's own: advances at every step, indexes the free values
  host     : Memory := []           -- host memory
  win      : Memory := []           -- the HDM window
  outbox   : List Out := []
  flt : FltBlock := {}
  cbd : CbdBlock := {}
  prm : List Prompter := List.replicate 8 {}
  cue : CueBlock := {}
  qmg : QmgBlock := {}
  dom : DomBlock := {}
  cxl : CxlBlock := {}
  fab : FabBlock := {}
  shp : ShpBlock := {}
  wlk : WlkBlock := {}
  tier : TierBlock := {}
  cst : CstBlock := {}
  pnm : PnmBlock := {}
  gth : GthBlock := {}
  enc : EncBlock := {}
  sec : SecBlock := {}
  bft : BftBlock := {}
  cal : CalBlock := {}
  pwr : PwrBlock := {}
  dbg : Table Nat := []             -- words that the debug port has written, by its own addresses (16 R538; log entry 34)
  deriving DecidableEq, Repr

/-- Why the node stops. -/
inductive Fault where
  /-- Raised by a register access at or beyond BAR2's end (14 R465): the node neither decodes nor answers it. Safe: the
  node does nothing with such an access. -/
  | outsideBar
  deriving DecidableEq, Repr

/-- Why the model has no meaning for a step. -/
inductive Refusal where
  /-- Answered by an arm of `exec` that has no meaning yet. Safe: nothing is claimed of it. -/
  | notModelled (mnemonic : String)
  /-- Raised by a register access in the CXL component block, whose registers follow the CXL specification and not this
  manual (23 R703). Safe: nothing is claimed of it. -/
  | componentBlock
  deriving DecidableEq, Repr

/-- The node at reset: every register at the Reset column of its table, nothing held in memory, no step waiting; a reset
input holds it until POR_RELEASE (22 R678). -/
def State.reset : State := {}

end Sys2Proof.Machine
end

