-- ==== Sys2Proof/Machine/Ops.lean ====
section
/-!
DEFINITION. The named operations every step is written over: time, memory, registers and counters, the tracked Tape's time,
faults, the Call Board's host vectors, fabric messages, and the posting of completions.
-/

namespace Sys2Proof.Machine

/-! ### Time -/

/-- The step takes place at local time `t`, never before an earlier step; a fresh index for the free values. -/
def State.at (s : State) (t : Nat) : State := { s with now := max s.now t, freeCtr := s.freeCtr + 1 }

/-- The node is in service: the last start has ended (22 R682, R688). -/
def State.live (s : State) : Bool := s.cal.phase == .running

/-- `f s` while `c` holds; otherwise the step does not take place and changes nothing (log entry 5). -/
def State.onlyIf (s : State) (c : Bool) (f : State → State) : State := if c then f s else s

/-- Microseconds, milliseconds and seconds in ns of local time. -/
def us : Nat := 1000
def ms : Nat := 1000000
def oneSec : Nat := 1000000000

/-! ### Memory -/

/-- The byte at `a`; an unlisted byte reads 0. -/
def Memory.read (m : Memory) (a : Nat) : Byte :=
  match m with
  | [] => 0
  | (k, b) :: rest => if k = a then b else Memory.read rest a

/-- `m` with byte `b` listed at `a`. -/
def Memory.put : Memory → Nat → Byte → Memory
  | [], a, b => [(a, b)]
  | (k, c) :: rest, a, b =>
    if a < k then (a, b) :: (k, c) :: rest
    else if a = k then (a, b) :: rest
    else (k, c) :: Memory.put rest a b

/-- `m` with byte `b` at `a`: a byte 0 is not listed. -/
def Memory.write (m : Memory) (a : Nat) (b : Byte) : Memory := if b = 0 then m.filter (fun e => e.1 != a) else m.put a b

/-- The canonical form: addresses strictly rising, no byte 0 listed. -/
def Memory.wf : Memory → Bool
  | [] => true
  | [(_, b)] => b != 0
  | (k, b) :: (k', b') :: rest => b != 0 && decide (k < k') && Memory.wf ((k', b') :: rest)

/-- `n` bytes from `a`. -/
def Memory.readN (m : Memory) (a n : Nat) : List Byte := (List.range n).map fun i => m.read (a + i)

/-- `m` with the bytes `bs` from `a`. -/
def Memory.writeN : Memory → Nat → List Byte → Memory
  | m, _, [] => m
  | m, a, b :: bs => Memory.writeN (m.write a b) (a + 1) bs

/-! ### Registers and counters -/

/-- The pages of the single-instance blocks (23 R703). -/
abbrev pgCxl : Nat := 0
abbrev pgQmg : Nat := 1
abbrev pgDom : Nat := 2
abbrev pgPrm : Nat := 3
abbrev pgCbd : Nat := 4
abbrev pgFlt : Nat := 5
abbrev pgCue : Nat := 6
abbrev pgSec : Nat := 7
abbrev pgPwr : Nat := 8
abbrev pgCal : Nat := 9
abbrev pgTop : Nat := 10
abbrev pgHmc (i : Nat) : Nat := 11 + i
abbrev pgPnm (i : Nat) : Nat := 19 + i
abbrev pgWlk : Nat := 27
abbrev pgCst : Nat := 28
abbrev pgEnc (i : Nat) : Nat := 29 + i
abbrev pgGth : Nat := 33
abbrev pgBft : Nat := 34
abbrev pgFch (i : Nat) : Nat := 35 + i
abbrev pgFab (i : Nat) : Nat := 67 + i
abbrev pgShp : Nat := 71

/-- The key of copy `idx` of the register at `off` of `page`. -/
def regKey (page off idx : Nat) : Nat := idx * 2 ^ 20 + page * 4096 + off

/-- The value a register resets to (23 R722). -/
def regReset (page off : Nat) : Nat :=
  match blockAt page with
  | none => 0
  | some (b, _) => match regDef b off with
    | none => 0
    | some d => d.reset

/-- The stored fields of copy `idx` of a register. -/
def State.regAt (s : State) (page off idx : Nat) : Nat := s.regs.getD (regKey page off idx) (regReset page off)

/-- The stored fields of a register that has one copy. -/
def State.reg (s : State) (page off : Nat) : Nat := s.regAt page off 0

def State.setRegAt (s : State) (page off idx v : Nat) : State := { s with regs := s.regs.set (regKey page off idx) v }

def State.setReg (s : State) (page off v : Nat) : State := s.setRegAt page off 0 v

/-- Set sticky (W1C) bits of a register. -/
def State.sticky (s : State) (page off bits : Nat) : State := s.setReg page off (s.reg page off ||| bits)

/-- The counter at `off` of `page`. -/
def State.count (s : State) (page off : Nat) : Nat := s.counts.getD (page * 4096 + off) 0

/-- Count `n` more in a 32-bit saturating counter. -/
def State.bump (s : State) (page off : Nat) (n : Nat := 1) : State :=
  { s with counts := s.counts.set (page * 4096 + off) (min 0xFFFFFFFF (s.count page off + n)) }

/-- Count `n` more in a 64-bit counter, whose LO register stands at `off`. -/
def State.bump64 (s : State) (page off : Nat) (n : Nat := 1) : State :=
  { s with counts := s.counts.set (page * 4096 + off) ((s.count page off + n) % 2 ^ 64) }

def State.setCount (s : State) (page off v : Nat) : State :=
  { s with counts := s.counts.set (page * 4096 + off) v }

/-- Whether the block instance on `page` takes new requests: not quiesced, not Off, no reset of it running (23 R712, R713;
20 R640). -/
def State.accepts (s : State) (page : Nat) : Bool :=
  !(bitOf (s.reg page 0x010) 1) && bitOf (s.reg page 0x010) 0 && !(s.flt.resets.has page)

/-- Requests reach a pseudo-channel of a stack: its controller takes them, and no rehearsal window holds it (22 R694; 23
R712). -/
def State.heartOpen (s : State) (stack pseudo : Nat) : Bool :=
  s.accepts (pgHmc stack) && !s.cal.windows.has (0x1000 + 64 * stack + pseudo)

/-- Requests reach the units of a pseudo-channel. -/
def State.pseudoOpen (s : State) (stack pseudo : Nat) : Bool := s.accepts (pgPnm stack) && s.heartOpen stack pseudo

/-- The bus of a flash channel moves data: no rehearsal window idles it (22 R694). -/
def State.busOpen (s : State) (ch : Nat) : Bool := !s.cal.windows.has (0x2000 + ch)

def State.emit (s : State) (o : Out) : State := { s with outbox := o :: s.outbox }

/-! ### The tracked Tape's time (02 R42 to R48) -/

/-- How much of the phase error of R38 has been worked off after `elapsed` ns, at most 50 ppm of it. -/
def slewed (slew : Int) (elapsed : Nat) : Int :=
  if slew = 0 then 0
  else
    let most : Int := (elapsed * (1 + Config.slewChoice % 50) / 1000000 : Nat)
    if slew < 0 then max slew (-most) else min slew most

/-- Interpolated tape time, before the rule that it never decreases (R42, R46). -/
def Tape.interp (tp : Tape) (now : Nat) : Nat :=
  let elapsed := now - tp.anchorAt
  ((tp.anchorTime : Int) + elapsed + (elapsed : Int) * tp.ratePpb / 1000000000 + slewed tp.slew elapsed).toNat

/-- Tracked tape time (R42, R44). -/
def State.tapeTime (s : State) : Nat := max s.cue.tape.floor (s.cue.tape.interp s.now)

/-- Tracked tape position (R42). -/
def State.tapePos (s : State) : Nat := s.cue.tape.pos

/-- The node is in tape loss and runs the House Clock (R34, R46). -/
def State.tapeLost (s : State) : Bool := s.cue.tape.tracked.isNone

/-! ### Faults (20) -/

/-- The kinds of 20 R631 and their severities. -/
inductive Kind where
  | tapeLoss | straggler | watchRule | castInputLost | sillageDropped | queueError
  | topUncorrectable | tierShort | heartUncorrectable | outerCorrRate | unitFailed | innerCorrRate | tileChecksum | arrayFailed
  | baseUncorrectable | baseBlockRetired | baseLunFailed | baseSpareLow | baseExhausted
  | linkDown | hostPoisonWrite | ideFailure
  | laneFailed | laneSwap | moduleUnsupported | fabricLinkDown | versionFloor | connectionDown | replBroken | leaseFenced
  | shaperTable | prompterHang | controlMismatch | externalFault | recoveryLimit | thermalHigh | thermalTrip
  | eyeMargin | opticalPower | heartMargin | supplyDroop
  deriving DecidableEq, Repr

/-- Code and severity (20 R631). -/
def Kind.spec : Kind → Nat × Nat
  | .tapeLoss => (0x01, 1) | .straggler => (0x02, 0) | .watchRule => (0x03, 0) | .castInputLost => (0x04, 1)
  | .sillageDropped => (0x05, 1) | .queueError => (0x06, 1) | .topUncorrectable => (0x10, 2) | .tierShort => (0x11, 1)
  | .heartUncorrectable => (0x12, 2) | .outerCorrRate => (0x13, 0) | .unitFailed => (0x14, 2) | .innerCorrRate => (0x15, 0)
  | .tileChecksum => (0x16, 2) | .arrayFailed => (0x17, 2) | .baseUncorrectable => (0x20, 2) | .baseBlockRetired => (0x21, 0)
  | .baseLunFailed => (0x22, 2) | .baseSpareLow => (0x23, 0) | .baseExhausted => (0x24, 2) | .linkDown => (0x30, 2)
  | .hostPoisonWrite => (0x31, 1) | .ideFailure => (0x32, 2) | .laneFailed => (0x40, 1) | .laneSwap => (0x41, 0)
  | .moduleUnsupported => (0x42, 2) | .fabricLinkDown => (0x43, 1) | .versionFloor => (0x44, 1) | .connectionDown => (0x45, 1)
  | .replBroken => (0x46, 1) | .leaseFenced => (0x47, 1) | .shaperTable => (0x48, 1) | .prompterHang => (0x50, 3)
  | .controlMismatch => (0x51, 2) | .externalFault => (0x52, 3) | .recoveryLimit => (0x53, 3) | .thermalHigh => (0x54, 1)
  | .thermalTrip => (0x55, 4) | .eyeMargin => (0x60, 0) | .opticalPower => (0x61, 0) | .heartMargin => (0x62, 0)
  | .supplyDroop => (0x63, 0)

/-- A fault message of R628 from the block instance on `page`; `node` for the node-wide faults of R629. -/
def faultMsg (s : State) (page : Nat) (k : Kind) (detail addr : Nat) (node : Bool) : FaultMsg :=
  let (b, i) := match blockAt page with
    | some (b, i) => (b.code, i)
    | none => (0, 0)
  { w0 := boolNat s.tapeLost * 2 ^ 28 + k.spec.2 * 2 ^ 24 + k.spec.1 * 2 ^ 16 + (if node then 0xFF else i) * 2 ^ 8 + b,
    w1 := detail % 2 ^ 32, w2 := addr % 2 ^ 32, w3 := addr / 2 ^ 32 % 2 ^ 32 }

/-- The block instance on `page` sends a fault message to FLT, which takes it in a step of its own (R632). -/
def State.sendFault (s : State) (page : Nat) (k : Kind) (detail : Nat := 0) (addr : Nat := 0) (node : Bool := false) : State :=
  { s with flt := { s.flt with inbox := s.flt.inbox ++ [faultMsg s page k detail addr node] } }

/-! ### Host vectors (19 R620 to R622) -/

def linkUp (s : State) : Bool := s.cxl.mode != 0

def vecKey (fn vector : Nat) : Nat := fn * 2048 + vector

def State.vec (s : State) (key : Nat) : Vec := s.cbd.vecs.getD key {}

def State.setVec (s : State) (key : Nat) (v : Vec) : State := { s with cbd := { s.cbd with vecs := s.cbd.vecs.set key v } }

/-- Whether a message for the vector would be held (R622, R626). -/
def State.vecBlocked (s : State) (key : Nat) : Bool :=
  (s.vec key).masked || (s.cbd.fns.getD (key / 2048) {}).mask || !linkUp s || !bitOf (s.reg pgCbd 0x040) 0

/-- Send the vector's message now, or hold it (R620, R622). -/
def State.sendVec (s : State) (key : Nat) : State :=
  let v := s.vec key
  if s.vecBlocked key then
    if v.held then s
    else ((s.setVec key { v with held := true, timer := none }).bump pgCbd 0x080).sticky pgCbd 0x044 2
  else ((s.setVec key { v with pending := 0, timer := none, held := false, armed := false }).emit
    (.msix (key / 2048) (key % 2048))).bump64 pgCbd 0x070

/-- Count `TimerUs` of the vector's moderation setting, 0 when every event is sent at once (R620, R626). -/
def State.vecTimerUs (s : State) (key : Nat) : Nat :=
  if bitOf (s.reg pgCbd 0x040) 1 then bitsOf (s.regAt pgCbd 0x054 key) 25 16 else 0

/-- `Count` of the vector's moderation setting; 0 is read as 1 (R620). -/
def State.vecCount (s : State) (key : Nat) : Nat := max 1 (bitsOf (s.regAt pgCbd 0x054 key) 7 0)

/-- One event for a host vector (R620 to R622). Events of a function whose MSI-X Enable is clear are discarded. -/
def State.vecEvent (s : State) (fn vector : Nat) : State :=
  let key := vecKey fn vector
  if !(s.cbd.fns.getD fn {}).enable then s.setVec key { s.vec key with pending := 0, timer := none, held := false }
  else
    let v := { s.vec key with pending := (s.vec key).pending + 1 }
    let s := s.setVec key v
    if v.held then s
    else if v.armed then (s.bump pgCbd 0x078).sendVec key
    else if s.vecTimerUs key = 0 then s.sendVec key
    else if s.vecCount key ≤ v.pending then s.sendVec key
    else if v.timer.isNone then s.setVec key { v with timer := some s.now }
    else s

/-! ### Addresses a command names (12 R397, 14 R463, R468, R470) -/

/-- How a pointer is read: the host-physical range of the window, empty when no pointer names window memory. -/
structure View where
  base : Nat
  size : Nat
  deriving DecidableEq, Repr

/-- The window's size in bytes (12 R396). -/
def State.winBytes (s : State) : Nat := bitsOf (s.reg (pgHmc 0) 0x054) 26 16 * 0x10000000

/-- The reading of pointers in force now (14 R463). -/
def State.view (s : State) : View :=
  if 2 ≤ s.cxl.mode && s.cxl.committed then ⟨s.cxl.base, s.winBytes⟩ else ⟨0, 0⟩

def View.inWin (v : View) (a : Nat) : Bool := v.base ≤ a && a < v.base + v.size

/-- One byte as the node reads it. Over a link that is down, host memory returns a free value (log entry 6). -/
def State.readByte (s : State) (v : View) (a : Nat) : Byte :=
  if v.inWin a then s.win.read (a - v.base)
  else if linkUp s then s.host.read a
  else Config.freeByte (s.freeCtr * 2 ^ 64 + a)

def State.readBytes (s : State) (v : View) (a n : Nat) : List Byte := (List.range n).map fun i => s.readByte v (a + i)

/-- One byte written where it lies; host bytes are dropped while the link is down. -/
def State.writeByte (s : State) (v : View) (a : Nat) (b : Byte) : State :=
  if v.inWin a then { s with win := s.win.write (a - v.base) b }
  else if linkUp s then { s with host := s.host.write a b }
  else s

def State.writeBytesGo (s : State) (v : View) : Nat → List Byte → State
  | _, [] => s
  | a, b :: bs => State.writeBytesGo (s.writeByte v a b) v (a + 1) bs

/-- One write of the node. A write that loses host bytes to a link that is down is counted once (14 R470). -/
def State.writeBytes (s : State) (v : View) (a : Nat) (bs : List Byte) : State :=
  let s' := s.writeBytesGo v a bs
  if !linkUp s && (List.range bs.length).any (fun i => !v.inWin (a + i)) then s'.bump pgCxl 0x068 else s'

/-! ### Domains (16) -/

def State.domain (s : State) (d : Nat) : Domain := s.dom.doms.getD d {}

def State.setDomain (s : State) (d : Nat) (v : Domain) : State := { s with dom := { s.dom with doms := s.dom.doms.set d v } }

/-- The classes a domain holds; domain 0 holds every grantable class (16 R530, R532). -/
def State.privs (s : State) (d : Nat) : Nat := if d = 0 then s.dom.fuses.grantable else (s.domain d).privs

/-! ### Fabric messages (17 R559, R562; 18 R583 to R597) -/

def State.nodeId (s : State) : Nat := s.reg (pgFab 0) 0x048

def Msg.type (m : Msg) : Nat := fieldAt m.header 0 1
def Msg.major (m : Msg) : Nat := fieldAt m.header 1 1 / 16
def Msg.flags (m : Msg) : Nat := fieldAt m.header 2 1
def Msg.hops (m : Msg) : Nat := fieldAt m.header 3 1 / 16
def Msg.cls (m : Msg) : Nat := fieldAt m.header 3 1 % 8
def Msg.dest (m : Msg) : Nat := fieldAt m.header 4 2
def Msg.src (m : Msg) : Nat := fieldAt m.header 6 2
def Msg.seq (m : Msg) : Nat := fieldAt m.header 8 4
def Msg.requestId (m : Msg) : Nat := fieldAt m.header 12 4
def Msg.domain (m : Msg) : Nat := fieldAt m.header 16 2
def Msg.bytes (m : Msg) : Nat := fieldAt m.header 20 4
def Msg.epoch (m : Msg) : Nat := fieldAt m.header 24 8

/-- A message with the header of R562. -/
def mkMsg (type minor hops cls dest src seq req dom epoch : Nat) (payload : List Byte) : Msg :=
  { header := natLE 1 type ++ natLE 1 (16 + minor % 16) ++ natLE 1 0 ++ natLE 1 (hops * 16 + cls % 8) ++ natLE 2 dest ++
      natLE 2 src ++ natLE 4 seq ++ natLE 4 req ++ natLE 2 dom ++ natLE 2 0 ++ natLE 4 payload.length ++ natLE 8 epoch,
    payload := payload }

def State.port (s : State) (p : Nat) : FabPort := s.fab.ports.getD p {}

def State.setPort (s : State) (p : Nat) (v : FabPort) : State := { s with fab := { s.fab with ports := s.fab.ports.set p v } }

def State.shpPort (s : State) (p : Nat) : ShpPort := s.shp.ports.getD p {}

def State.setShpPort (s : State) (p : Nat) (v : ShpPort) : State := { s with shp := { s.shp with ports := s.shp.ports.set p v } }

/-- The port on which a message for `dest` leaves: the primary if Up, else the alternate if Up (17 R558). -/
def State.routePort (s : State) (dest : Nat) : Option Nat :=
  match s.fab.routes.find? dest with
  | none => none
  | some (p, a, _) => if (s.port p).up then some p else if a < 4 && (s.port a).up then some a else none

def Msg.frame (m : Msg) : Nat := 32 + m.payload.length

/-- Flits of a message (18 R588). -/
def Msg.flits (m : Msg) : Nat := ceilDiv m.frame 240

/-- The virtual channel a message travels on (17 R556). -/
def Msg.vc (m : Msg) : Nat :=
  match m.type with
  | 0 => 7
  | 1 => if fieldAt m.payload 0 1 = 0 then 1 else 2
  | 2 => 3
  | 3 => 4
  | 4 => 5
  | 5 => 6
  | _ => 0

/-- A flit (17 R553). -/
def flitBytes (kind vcFlags seq ack : Nat) (payload : List Byte) : List Byte :=
  let body := natLE 1 kind ++ natLE 1 vcFlags ++ natLE 2 seq ++ natLE 2 ack ++ zeroBytes 2 ++ payload ++ zeroBytes (244 - payload.length)
  body ++ natLE 4 (crc32 body)

/-- The Data flits of a message from sequence `seq` on. -/
def Msg.dataFlits (m : Msg) (seq ack : Nat) : List (Nat × List Byte) :=
  let bytes := m.header ++ m.payload
  (List.range m.flits).map fun i =>
    ((seq + i) % 65536, flitBytes 1 (m.vc + 8 * boolNat (i == 0) + 16 * boolNat (i + 1 == m.flits)) ((seq + i) % 65536) ack
      (bytesAt bytes (240 * i) 240))

/-- A port holds credit, and room in its replay buffer, for every flit of a message (17 R555, R556; 18 R588). -/
def State.canSend (s : State) (p : Nat) (m : Msg) : Bool :=
  m.flits ≤ (s.port p).credits.getD m.vc 0 && (s.port p).replay.length + m.flits ≤ 1024

/-- FAB sends a message's flits on a port, and keeps them for replay (17 R555, R556). -/
def State.sendData (s : State) (p : Nat) (m : Msg) : State :=
  let f := s.port p
  ((s.setPort p { f with txSeq := (f.txSeq + m.flits) % 65536, replay := f.replay ++ m.dataFlits f.txSeq ((f.rxSeq + 65535) % 65536),
                         credits := f.credits.set m.vc (f.credits.getD m.vc 0 - m.flits) }).bump64 (pgFab p) 0x0B0 m.flits).emit
    (.fabric p m)

/-- Send the transport segments that wait on a port, while there is credit. -/
def State.flushSegsGo (s : State) (p : Nat) : List Msg → State
  | [] => s.setPort p { s.port p with segs := [] }
  | m :: rest => if s.canSend p m then State.flushSegsGo (s.sendData p m) p rest else s.setPort p { s.port p with segs := m :: rest }

def State.flushSegs (s : State) (p : Nat) : State := s.flushSegsGo p (s.port p).segs

/-- A transport segment, which SHP does not schedule: routed like any message, it goes as soon as VC 7 holds credit (17 R558,
R560). -/
def State.sendSegment (s : State) (m : Msg) : State :=
  match s.routePort m.dest with
  | none => s.bump (pgFab 0) 0x0A4
  | some p => (s.setPort p { s.port p with segs := (s.port p).segs ++ [m] }).flushSegs p

/-- The subscriber of a message (18 R585). -/
def State.subOf (s : State) (m : Msg) : Nat := if m.domain < s.dom.fuses.maxDomains then m.domain else 0

/-- Whether a message is a RESULT_GATHER that carries FENCED, VERSION or BUSY (18 R583). -/
def Msg.isFault (m : Msg) : Bool :=
  m.type == 2 && [0x11, 0x13, 0x12].contains (fieldAt m.payload 4 2)

/-- Whether a message travels in the tape-and-lease queue (18 R583). -/
def Msg.isTape (m : Msg) : Bool := [7, 6, 9].contains m.type

/-- Bytes a subscriber has queued over all ports (18 R596). -/
def State.subQueued (s : State) (sub : Nat) : Nat :=
  (s.shp.ports.map fun p => ((p.service.filter fun q => s.subOf q.msg == sub).map fun q => q.msg.frame).sum).sum

/-- Whether SHP has room for a message at a port now (18 R596, R597). -/
def State.shpRoom (s : State) (p : Nat) (m : Msg) : Bool :=
  let q := s.shpPort p
  if m.isTape then q.tape.length < 64 || (m.type == 7 && q.tape.any fun x => x.msg.type == 7)
  else if m.type == 2 then
    ((q.fault ++ q.service).map fun x => if x.msg.type == 2 then x.msg.frame else 0).sum + m.frame ≤ 1048576
  else
    s.subQueued (s.subOf m) < bitsOf (s.regAt pgShp 0x0B4 (s.subOf m)) 15 0 * 1024 &&
    ((q.service).map fun x => x.msg.frame).sum + m.frame ≤ 8388608

/-- Hand a message to SHP at a port (18 R583, R597). -/
def State.shpQueue (s : State) (p : Nat) (m : Msg) : State :=
  let q := s.shpPort p
  let e : Queued := { order := s.shp.order, msg := m }
  let s := { s with shp := { s.shp with order := s.shp.order + 1 } }
  if m.isTape then
    if m.type == 7 && q.tape.any (fun x => x.msg.type == 7) then
      (s.setShpPort p { q with tape := q.tape.map fun x => if x.msg.type == 7 then { x with msg := m } else x }).bump pgShp 0x108
    else s.setShpPort p { q with tape := q.tape ++ [e] }
  else if m.isFault then s.setShpPort p { q with fault := q.fault ++ [e] }
  else s.setShpPort p { q with service := q.service ++ [e] }

/-- Note that a producer waits for room (18 R596, R597). -/
def State.shpWaits (s : State) (m : Msg) : State :=
  s.sticky pgShp 0x044 (if m.isTape || m.isFault then 1 else 4)

/-- Hand over a message that leaves on port `p`, or have its producer wait (18 R596). -/
def State.shpOffer (s : State) (p : Nat) (m : Msg) : State × Bool :=
  if s.shpRoom p m then (s.shpQueue p m, true) else (s.shpWaits m, false)

def State.conn (s : State) (node : Nat) : Conn := s.fab.conns.getD node {}

def State.setConn (s : State) (node : Nat) (c : Conn) : State := { s with fab := { s.fab with conns := s.fab.conns.set node c } }

/-- The payload of a transport segment (17 R560). -/
def segPayload (op mask : Nat) (minors : List Nat) (feature inc peerInc : Nat) : List Byte :=
  natLE 1 op ++ natLE 1 mask ++ (minors.take 3).flatMap (natLE 1) ++ zeroBytes 3 ++ natLE 8 feature ++ natLE 8 inc ++ natLE 8 peerInc

/-- An Open, OpenReply, Close or Ack to `node` (17 R560). -/
def State.segment (s : State) (node op seq peerInc : Nat) : Msg :=
  let neg := op == 1 || op == 2
  mkMsg 0 0 15 0 node s.nodeId seq 0 0 0
    (segPayload op (if neg then 1 else 0) [0, 0, 0] 0 s.fab.incarnation peerInc)

/-- Number and hand over what a connection has waiting, while fewer than 256 messages are unacknowledged (17 R559). A message
that finds no port is discarded, and counted, as R558 says; the connection sends it again. -/
def State.pumpGo (s : State) (node : Nat) : Nat → State
  | 0 => s
  | fuel + 1 =>
    let c := s.conn node
    match c.state, c.queued with
    | .open, m :: rest =>
      if c.unacked.length < 256 then
        let m := { m with header := overlay (overlay m.header 1 (natLE 1 (16 + c.minor % 16))) 8 (natLE 4 c.seqTx) }
        let c' := { c with queued := rest, seqTx := (c.seqTx + 1) % 2 ^ 32, unacked := c.unacked ++ [(c.seqTx, m)],
                           progressAt := if c.unacked.isEmpty then s.now else c.progressAt }
        match s.routePort node with
        | none => State.pumpGo ((s.setConn node c').bump (pgFab 0) 0x0A4) node fuel
        | some p => match s.shpOffer p m with
          | (s', false) => s'
          | (s', true) => State.pumpGo (s'.setConn node c') node fuel
      else s
    | _, _ => s

def State.pump (s : State) (node : Nat) : State := s.pumpGo node (s.conn node).queued.length

/-- Send Open and enter Opening (17 R560). -/
def State.openConn (s : State) (node : Nat) : State :=
  (s.setConn node { s.conn node with state := .opening, openedAt := s.now }).sendSegment (s.segment node 1 0 0)

/-- Send a routed message: queue it on the connection, opening it where needed (17 R559, R560). -/
def State.sendMsg (s : State) (m : Msg) : State :=
  let node := m.dest
  let c := s.conn node
  let s := s.setConn node { c with queued := c.queued ++ [m] }
  match c.state with
  | .open => s.pump node
  | .opening => s
  | _ => s.openConn node

/-- A routed message of the node's own. -/
def State.ownMsg (s : State) (type cls dest req dom epoch : Nat) (payload : List Byte) : Msg :=
  mkMsg type 0 15 cls dest s.nodeId 0 req dom epoch payload

/-! ### Commands and completions (15 R506 to R510) -/

/-- The status words (15 R508). -/
inductive Status where
  | ok | short | watermarkTimeout | stale | fenced | busy | version | quota | denied | malformed | tooLong
  | mediaExhausted | mediaError | uncorrected | aborted | alreadyDone | notFound
  deriving DecidableEq, Repr

def Status.code : Status → Nat
  | .ok => 0x00 | .short => 0x01 | .watermarkTimeout => 0x02 | .stale => 0x10 | .fenced => 0x11 | .busy => 0x12
  | .version => 0x13 | .quota => 0x20 | .denied => 0x21 | .malformed => 0x22 | .tooLong => 0x23
  | .mediaExhausted => 0x30 | .mediaError => 0x31 | .uncorrected => 0x32 | .aborted => 0x40 | .alreadyDone => 0x41
  | .notFound => 0x42

/-- Whether results stand under a status (15 R508). -/
def Status.carries : Status → Bool
  | .ok | .short | .watermarkTimeout => true
  | _ => false

/-- What a completion says (15 R506). Bytes 8 to 15 take the search form or the general form. -/
structure Comp where
  status : Status
  search : Bool := false
  count  : Nat := 0
  detail : Nat := 0                 -- general form
  ratio  : Nat := 0                 -- search form
  asked  : Nat := 0
  answered : Nat := 0
  watermark : Option Nat := none    -- none: the node watermark when written (R507)
  sillage : Nat := 0
  insertOutcome : Option Nat := none
  alarm  : Bool := false
  deriving DecidableEq, Repr

/-- The 32 bytes of a completion (15 R506). -/
def Comp.bytes (c : Comp) (tag sqHead watermark : Nat) (late phase : Bool) : List Byte :=
  natLE 4 tag ++ natLE 2 c.status.code ++ natLE 2 sqHead ++
  (if c.search then natLE 2 c.count ++ natLE 2 c.ratio ++ natLE 2 c.asked ++ natLE 2 c.answered
   else natLE 4 c.count ++ natLE 4 c.detail) ++
  natLE 8 watermark ++
  natLE 8 (c.sillage / 64 * 64 + (c.insertOutcome.getD 0) % 4 * 16 + boolNat c.insertOutcome.isSome * 8 + boolNat late * 4 +
    boolNat c.alarm * 2 + boolNat phase)

def State.cmd? (s : State) (cid : Nat) : Option Cmd := s.qmg.cmds.find? cid

def State.setCmd (s : State) (cid : Nat) (c : Cmd) : State := { s with qmg := { s.qmg with cmds := s.qmg.cmds.set cid c } }

def State.queue? (s : State) (q : Nat) : Option Queue := s.qmg.queues.find? q

def State.setQueue (s : State) (q : Nat) (v : Queue) : State := { s with qmg := { s.qmg with queues := s.qmg.queues.set q v } }

def Cmd.view (c : Cmd) : View := ⟨c.winBase, c.winSize⟩

/-- The commands outstanding on a queue, in fetch order (15 R493). -/
def State.outstanding (s : State) (q : Nat) : Table Cmd := s.qmg.cmds.filter fun e => e.2.origin == .queue q

/-- Read an area that a command names: memory, or the payload that carried the command (17 R569). -/
def State.cmdRead (s : State) (c : Cmd) (ptr n : Nat) : List Byte :=
  match c.origin with
  | .queue _ => s.readBytes c.view ptr n
  | _ => let b := bytesAt c.data ptr n; b ++ zeroBytes (n - b.length)

/-- Write part of a command's result area, which for a fabric-carried command goes into the reply (17 R569). -/
def State.cmdWrite (s : State) (cid ptr off : Nat) (bs : List Byte) : State :=
  match s.cmd? cid with
  | none => s
  | some c => match c.origin with
    | .queue _ => s.writeBytes c.view (ptr + off) bs
    | _ => s.setCmd cid { c with area := overlay c.area off bs }

/-- QMG writes one completion on a queue and, with `event`, raises its event (15 R491, R510, R515; 14 R470; 19 R613, R624). -/
def State.postQueue (s : State) (q : Nat) (k : Queue) (c : Comp) (tag wm : Nat) (late event : Bool) : State :=
  if k.flrDrop then (s.bump pgQmg 0x088).sticky pgQmg 0x044 2
  else
    let n := 2 ^ k.cqLog2
    let s := s.writeBytes s.view (k.cqBase + 32 * k.cqTail) (c.bytes tag k.sqHead wm late k.phase)
    let dropped := !linkUp s && !(s.view.inWin (k.cqBase + 32 * k.cqTail))
    let tail := (k.cqTail + 1) % n
    let s := s.setQueue q { k with cqTail := tail, phase := if tail = 0 then !k.phase else k.phase }
    if dropped || !event then s else s.vecEvent k.fn k.vector

/-- The reply that answers a fabric-carried request (17 R564, R568). -/
def replyMsg (s : State) (src req cls dom : Nat) (c : Comp) (wm : Nat) (rest : List Byte) : Msg :=
  s.ownMsg 2 cls src req dom (if c.status = .fenced then s.fab.epoch else 0) (c.bytes req 0 wm false false ++ rest)

/-- Complete a command: post its one completion and let it go (15 R510). `rest` follows the completion in a fabric reply. -/
def State.post (s : State) (cid : Nat) (c : Comp) (rest : List Byte := []) : State :=
  match s.cmd? cid with
  | none => s
  | some k =>
    let wm := c.watermark.getD s.wlk.watermark
    let s := { s with qmg := { s.qmg with cmds := s.qmg.cmds.erase cid } }
    let s := if c.status = .aborted then s.bump pgQmg 0x07C else s
    let s := if c.status = .fenced then s.bump (pgFab 0) 0x0CC else s
    match k.origin with
    | .queue q =>
      match s.queue? q with
      | none => s
      | some v =>
        let v := if v.holdBy = some cid then { v with holdBy := none } else v
        s.postQueue q v c (cmdTag k.raw) wm k.late k.warm.isNone
    | .scatterSearch _ src req _ cls => s.sendMsg (replyMsg s src req cls k.domain c wm rest)
    | .scatterCommand _ src req cls => s.sendMsg (replyMsg s src req cls k.domain c wm (if c.status.carries then k.area else []))
    | .replicate _ src req cls => s.sendMsg (replyMsg s src req cls k.domain c wm [])

/-- Complete a command in the general form. -/
def State.finish (s : State) (cid : Nat) (st : Status) (count : Nat := 0) (detail : Nat := 0) : State :=
  s.post cid { status := st, count := if st.carries then count else 0, detail := detail }

/-- Run `f` on an outstanding command of opcode `op` that is still to be started; otherwise the step does not take place. -/
def State.withCmd (s : State) (cid : Nat) (ok : Cmd → Bool) (f : Cmd → State → State) : State :=
  match s.cmd? cid with
  | none => s
  | some c => if s.live && c.warm.isNone && ok c then f c s else s

/-- An admitted command of the opcode, not started yet. -/
def Cmd.isNew (c : Cmd) (op : Nat) : Bool := cmdOpcode c.raw == op && c.phase == .admitted

/-- An admitted ADMIN command of the AdminOp, not started yet. -/
def Cmd.isAdmin (c : Cmd) (op : Nat) : Bool := c.isNew 0x38 && cmdAdminOp c.raw == op

end Sys2Proof.Machine
end

