-- ==== Sys2Proof/Machine/Regs.lean ====
section
/-!
DEFINITION. Interrupt registers (19 R611, R612; 23 R716), writes by access code (00 R8 to R11), and what follows every step
by itself: the node watermark (03 R84) and the horizons it raises (R92).
-/

namespace Sys2Proof.Machine

/-- Searches in the admission queue (04 R110). -/
def State.admq (s : State) : Nat :=
  s.wlk.searches.countP fun q => q.stage == .queued

/-- The admission queue is full (04 R110, R111). -/
def State.admqFull (s : State) : Bool := 8192 ≤ s.admq

/-- The level and edge bits of IRQ_RAW on a page (19 R612). -/
def State.irqRaw (s : State) (page : Nat) : Nat :=
  match blockAt page with
  | none => 0
  | some (b, i) =>
    let notice := match regDef b 0x044 with
      | none => 0
      | some d => s.reg page 0x044 &&& d.w1c
    let nodeNotice := if b = .fab then s.reg (pgFab 0) 0x044 &&& 0xC0 else 0
    let base := boolNat ((s.flt.latches.getD page {}).msg.w0 != 0) + 2 * boolNat (notice != 0 || nodeNotice != 0)
    let rest := match b with
      | .cue => 4 * boolNat (s.cue.logHead != s.reg pgCue 0x0C0) + 8 * boolNat s.tapeLost + (s.reg pgCue 0x018 &&& 0x10)
      | .flt => s.reg pgFlt 0x018 &&& 4
      | .wlk => 4 * boolNat s.admqFull
      | .bft => 4 * boolNat s.bft.stalled + 8 * boolNat s.bft.exhausted
      | .fab => 4 * boolNat (bitOf (s.reg page 0x040) 0 && !(s.port i).up)
      | _ => 0
    base + rest

/-- IRQ_PEND (19 R611). -/
def State.irqPend (s : State) (page : Nat) : Nat := s.irqRaw page &&& s.reg page 0x01C

/-- Whether an internal source is an edge source (19 R612): Pps and FaultIn. -/
def isEdgeSource (src : Nat) : Bool := src == pgCue * 8 + 4 || src == pgFlt * 8 + 2

/-- Whether an internal source is asserted (19 R611, R618). -/
def State.asserted (s : State) (src : Nat) : Bool :=
  if src < 576 then bitOf (s.irqPend (src / 8)) (src % 8)
  else 992 ≤ src && src < 1024 && bitOf s.cbd.sw (src - 992)

/-! ### Events of internal sources (19 R616, R617) -/

/-- The Prompter that takes an event for `mask`: the lowest that waits for an interrupt, else the lowest of the mask (R617). -/
def State.prompterFor (s : State) (mask : Nat) : Option Nat :=
  match (List.range 8).find? fun p => bitOf mask p && (s.prm.getD p {}).waiting with
  | some p => some p
  | none => (List.range 8).find? fun p => bitOf mask p

/-- Deliver an event to a Prompter; one that waits is reached without moderation, which is counted (R617). -/
def State.prompterEvent (s : State) (p src : Nat) : State :=
  let c := s.prm.getD p {}
  let s := if c.waiting then s.bump pgCbd 0x078 else s
  ({ s with prm := s.prm.set p { c with waiting := false } }).emit (.prompterEvent p src)

/-- PrompterMask of a source (R616). -/
def State.prmMask (s : State) (src : Nat) : Nat := s.cbd.masks.getD src 0

/-- One event of an edge source, to each of its targets (R614, R616). -/
def State.edgeEvent (s : State) (src : Nat) : State :=
  let route := s.regAt pgCbd 0x04C src
  let s := if bitOf route 31 then s.vecEvent 0 (bitsOf route 10 0) else s
  match s.prompterFor (s.prmMask src) with
  | some p => s.prompterEvent p src
  | none => s

/-! ### What follows every step -/

/-- The sources that hold the minimum of R84: Active ones, and unregistered ones whose admitted mutations run on (R81). -/
def State.minSources (s : State) : List Nat :=
  (s.wlk.sources.filter fun e => e.2.active || e.2.leaving).map fun e => e.2.w

/-- The node watermark that the sources and the Tape now give (R84, R107). -/
def State.givenWatermark (s : State) : Nat :=
  match s.minSources with
  | w :: ws => ws.foldl min w
  | [] =>
    if s.wlk.wasActive then s.tapePos
    else match s.wlk.restoredW with
      | some w => w
      | none => s.tapePos

/-- The position to which AutoHorizon raises a collection's horizon (R92). -/
def Coll.autoTarget (c : Coll) (watermark : Nat) : Nat :=
  c.snapshots.foldl min (watermark - c.retention)

/-- A collection's horizon once the watermark stands at `watermark` (R92). -/
def Coll.rise (c : Coll) (watermark : Nat) : Coll :=
  if c.autoHorizon then { c with horizon := max c.horizon (c.autoTarget watermark) } else c

/-- A Waiting search becomes Ready when the watermark reaches its as-of position (04 R110). -/
def Search.markReady (q : Search) (w now : Nat) : Search :=
  if q.stage = .queued && q.readyAt.isNone && (q.timedOut || q.asOf ≤ w) then { q with readyAt := some now } else q

/-- The node watermark raised to what its sources give: it never falls (R84). -/
def State.raised (s : State) : State :=
  { s with wlk := { s.wlk with watermark := max s.wlk.watermark s.givenWatermark } }

/-- What follows every step by itself: the node watermark rises to what its sources give and never falls (R84), and with it
the horizons of collections with AutoHorizon (R92); searches whose position it reaches become Ready (04 R110); a level
source found deasserted may raise its event again (19 R615). -/
def State.settle (s : State) : State :=
  let w := max s.wlk.watermark s.givenWatermark
  { s with
    wlk := { s.wlk with
      watermark := w
      colls := s.wlk.colls.mapVal (fun c => c.rise w)
      searches := s.wlk.searches.mapVal (fun q => q.markReady w s.now) }
    cbd := { s.cbd with known := s.cbd.known.filter s.asserted } }

/-- Every step of the node ends so. -/
def done (s : State) : Host.Outcome State Fault Refusal := .next s.settle

/-! ### Writes by access code -/

/-- Whether LK fields of a register take no further write; a node-wide one counts the lock of every page it stands on
(23 R718, R719). -/
def State.locked (s : State) (b : Block) (page : Nat) (d : RegDef) : Bool :=
  if d.node != 0 then (List.range b.pages.2).any fun i => bitOf (s.reg (b.pages.1 + i) 0x038) 0
  else bitOf (s.reg page 0x038) 0

/-- Which copy of a selected register a write reaches. -/
def State.selIdx (s : State) : Sel → Nat
  | .one => 0
  | .source => bitsOf (s.reg pgCbd 0x048) 9 0
  | .vector => vecKey (bitsOf (s.reg pgCbd 0x050) 23 16) (bitsOf (s.reg pgCbd 0x050) 10 0)
  | .kind => bitsOf (s.reg pgFlt 0x074) 7 0
  | .port => bitsOf (s.reg pgShp 0x060) 1 0
  | .gclEntry => (bitsOf (s.reg pgShp 0x060) 1 0 * 2 + bitsOf (s.reg pgShp 0x070) 16 16) * 256 + bitsOf (s.reg pgShp 0x070) 7 0
  | .gclBank => bitsOf (s.reg pgShp 0x060) 1 0 * 2 + bitsOf (s.reg pgShp 0x070) 16 16
  | .sub => bitsOf (s.reg pgShp 0x0B0) 11 0
  | .prof => bitsOf (s.reg pgShp 0x0D0) 3 0
  | .pol => bitsOf (s.reg pgShp 0x0E0) 9 0

/-- The register's fields after a write of `val` (R8). -/
def RegDef.written (d : RegDef) (isLocked : Bool) (old val : Nat) : Nat :=
  let take := d.rw ||| (if isLocked then 0 else d.lk)
  let v := (old &&& (allBits - take)) ||| (val &&& take)
  d.clamp (v &&& (allBits - (val &&& d.w1c)))

/-- Write `val` to the fields of the register at `off` of `page`, with no effect but on those fields (R8). Node-wide bits are
kept on the block's first page. -/
def State.writeFields (s : State) (page off val : Nat) : State :=
  match blockAt page with
  | none => s
  | some (b, _) =>
    match regDef b off with
    | none => s
    | some d =>
      let idx := s.selIdx d.sel
      let isLocked := s.locked b page d
      let own := d.written isLocked (s.regAt page off idx) val
      let s := s.setRegAt page off idx own
      if d.node = 0 || page = b.pages.1 then s
      else
        let first := d.written isLocked (s.regAt b.pages.1 off idx) val
        s.setRegAt b.pages.1 off idx ((s.regAt b.pages.1 off idx &&& (allBits - d.node)) ||| (first &&& d.node))

end Sys2Proof.Machine
end

