-- ==== Sys2Proof/Machine/Ledger.lean ====
section
/-!
DEFINITION. The tier ledger: quotas, charges, and which units of a tier are free (12 R386, R387, R392, R395, R408 to R413;
16 R536).
-/

namespace Sys2Proof.Machine

/-! ### Places in Heart (R391, R393, R403) -/

/-- The stack that holds granule `g` of an interleaved extent (R393). -/
def granuleStack (g : Nat) : Nat := g % 8

/-- The unit of that stack that serves the granule's bank (R393; 06 R190). -/
def granuleUnit (g : Nat) : Nat := g / 8 % 64 * 8 + g / 512 % 16 / 2

def State.stack (s : State) (i : Nat) : HmcStack := s.tier.stackList.getD i {}

def State.setStack (s : State) (i : Nat) (v : HmcStack) : State := { s with tier := { s.tier with stackList := s.tier.stackList.set i v } }

/-- Enter a row on a stack's bad-row list of 64, where it has room (R407). -/
def HmcStack.badRow (h : HmcStack) (row : Nat) : HmcStack :=
  if h.badRows.contains row || 64 ≤ h.badRows.length then h else { h with badRows := h.badRows ++ [row] }

/-- An uncorrectable read at a location in the form of R403: it is counted and latched, its row is listed, the fault is sent
(R403, R404, R407). `win` is the window offset of a block of the window. -/
def State.heartBad (s : State) (loc detail : Nat) (win : Option Nat) : State :=
  let i := loc / 2 ^ 37 % 8
  let h := s.stack i
  let h := if h.ueLoc.isNone then { h with ueLoc := some (loc % 2 ^ 40, win.getD 0xFFFFFFFFFFFFFFFF) } else h
  (((s.setStack i (h.badRow (bitsOf loc 36 27 * 98304 + bitsOf loc 26 10))).bump (pgHmc i) 0x068).sticky (pgHmc i) 0x044 2).sendFault
    (pgHmc i) .heartUncorrectable detail (loc % 2 ^ 40)

/-- An uncorrectable word of Top: its frame retires when freed, and the fault is sent (R388). -/
def State.topBad (s : State) (off : Nat) : State :=
  let f := off / 2 ^ 21
  ((({ s with tier := { s.tier with retiring := if s.tier.retiring.contains f then s.tier.retiring else s.tier.retiring ++ [f] } }).bump
    pgTop 0x054).sticky pgTop 0x044 2).sendFault pgTop .topUncorrectable f off

/-- The active figures of the two node-wide Heart registers (12 R417). -/
def State.rawBands (s : State) : Nat := bitsOf (s.reg (pgHmc 0) 0x050) 22 16
def State.hdmExtents (s : State) : Nat := bitsOf (s.reg (pgHmc 0) 0x054) 26 16

/-- The node's reserve, in extents (R395). -/
def State.reserve (s : State) : Nat := s.hdmExtents + 8 + s.tier.mapExtents

def State.withheldInter (s : State) : Nat := (s.tier.withheld.filter fun e => e < 2 ^ 16).length
def State.withheldRaw (s : State) : Nat := (s.tier.withheld.filter fun e => 2 ^ 16 ≤ e).length

/-- Free interleaved extents (R392, R395, R407). -/
def State.freeInter (s : State) : Nat :=
  8 * (384 - s.rawBands) - s.reserve - s.withheldInter - s.tier.inter

/-- Heart extents allocatable (R409). -/
def State.heartAllocatable (s : State) : Nat := 3072 - s.reserve - s.tier.withheld.length

/-- Top frames allocatable (R386, R409). -/
def State.topAllocatable (s : State) : Nat := 608 - s.tier.retired.length

/-- Whether an allocatable frame is free (R386, R388). -/
def State.frameFree (s : State) (f : Nat) : Bool := !(s.tier.frames.has f) && !s.tier.retired.contains f

/-- The free allocatable frames, lowest first (R387). -/
def State.freeFrames (s : State) : List Nat := (List.range' 160 608).filter s.frameFree

/-- What TopPartition holds back for other domains (16 R536). -/
def State.heldBack (s : State) (d : Nat) : Nat :=
  ((s.dom.doms.filter fun e => e.1 != d).map fun e => min e.2.topReserve e.2.quotaTop - e.2.usedTop).sum

/-- A QUOTA outcome is counted (12 R414). -/
def State.quotaFail (s : State) : State := s.bump pgTop 0x07C

/-- A request within quota that finds no free unit (R411). -/
def State.tierShort (s : State) (d tier : Nat) : State :=
  (s.quotaFail.sticky pgTop 0x044 4).sendFault pgTop .tierShort (d % 4096 + tier * 4096)

/-- Grant `n` interleaved Heart extents to domain `d`, or answer false (R410, R411). -/
def State.takeHeart (s : State) (d n : Nat) : State × Bool :=
  let v := s.domain d
  if n = 0 then (s, true)
  else if v.quotaHeart < v.usedHeart + n then (s.quotaFail, false)
  else if s.freeInter < n then (s.tierShort d 1, false)
  else ({ s.setDomain d { v with usedHeart := v.usedHeart + n } with tier := { s.tier with inter := s.tier.inter + n } }, true)

/-- Return `n` interleaved Heart extents of domain `d` (R413). -/
def State.giveHeart (s : State) (d n : Nat) : State :=
  let v := s.domain d
  { s.setDomain d { v with usedHeart := v.usedHeart - n } with tier := { s.tier with inter := s.tier.inter - n } }

/-- Grant `n` Top frames to domain `d`, lowest-numbered free ones first; answers the frames (R387, R410, R411; 16 R536). -/
def State.takeTop (s : State) (d n : Nat) : State × Option (List Nat) :=
  let v := s.domain d
  let free := s.freeFrames
  if n = 0 then (s, some [])
  else if v.quotaTop < v.usedTop + n then (s.quotaFail, none)
  else if free.length < n then (s.tierShort d 0, none)
  else if bitOf (s.reg pgDom 0x040) 1 && free.length - n < s.heldBack d then (s.tierShort d 0, none)
  else
    let got := free.take n
    ({ s.setDomain d { v with usedTop := v.usedTop + n } with
        tier := { s.tier with frames := got.foldl (fun fs f => fs.set f d) s.tier.frames } }, some got)

/-- Return Top frames of domain `d`; a Retiring frame is not issued again (R387, R388, R413). -/
def State.giveTop (s : State) (d : Nat) (fs : List Nat) : State :=
  let v := s.domain d
  let gone := fs.filter s.tier.retiring.contains
  { s.setDomain d { v with usedTop := v.usedTop - fs.length } with
    tier := { s.tier with frames := fs.foldl (fun t f => t.erase f) s.tier.frames,
                          retiring := s.tier.retiring.filter fun f => !gone.contains f,
                          retired := s.tier.retired ++ gone } }

/-! ### Base extents (13 R444, R445) -/

def BlockUse.taken : BlockUse → Bool
  | .opened | .closed | .parity | .store => true
  | _ => false

def BftBlock.goodBlocks (f : BftBlock) : Nat := f.good0 - f.retired

/-- Free blocks, the reserve of 13 R440 included. -/
def BftBlock.freeBlocks (f : BftBlock) : Nat := f.goodBlocks - f.blocks.countP fun b => b.use.taken

def BftBlock.ckptBlocks (f : BftBlock) : Nat := ceilDiv (f.ckptGib4 * 16384) f.pagesPerBlock

/-- Good blocks beyond exported capacity, the checkpoint area with the store, and the reserve (13 R445, R451). -/
def BftBlock.spareBlocks (f : BftBlock) : Nat :=
  f.goodBlocks - ceilDiv (f.exported * 65536) f.pagesPerBlock - f.ckptBlocks - 16 - 64

/-- Extents BFT reports as allocatable (13 R444): less where retirements leave less good capacity. -/
def BftBlock.allocatable (f : BftBlock) : Nat :=
  min (f.exported - ceilDiv f.ckptGib4 4) ((f.goodBlocks - f.ckptBlocks - 80) * f.pagesPerBlock / 65536)

/-- Charge `n` Base extents to a domain (R410, R411). -/
def State.takeBase (s : State) (d n : Nat) : State × Bool :=
  let v := s.domain d
  if v.quotaBase < v.usedBase + n then (s.quotaFail, false)
  else if s.bft.allocatable < (s.bft.volumes.map fun e => e.2.gib).sum + n then (s.tierShort d 2, false)
  else (s.setDomain d { v with usedBase := v.usedBase + n }, true)

end Sys2Proof.Machine
end

