-- ==== Sys2Proof/Machine/Collections.lean ====
section
/-!
DEFINITION. Collections: geometry, slots and stamps, mutations and their sources, the Wings, horizons and snapshots
(03 R67 to R108), and the replication of stamped mutations to the Twin (17 R570, R572).
-/

namespace Sys2Proof.Machine

def State.coll? (s : State) (c : Nat) : Option Coll := s.wlk.colls.find? c

/-- A collection that commands can name: one that exists and has not been closed (R750). -/
def State.openColl? (s : State) (c : Nat) : Option Coll :=
  match s.coll? c with
  | some k => if k.isClosed.isNone then some k else none
  | none => none

def State.setColl (s : State) (c : Nat) (k : Coll) : State := { s with wlk := { s.wlk with colls := s.wlk.colls.set c k } }

/-! ### Geometry (R68, R69; 04 R143) -/

/-- Bytes of a full vector (04 R143). -/
def fullBytes (fmt dim : Nat) : Nat :=
  match fmt with
  | 1 => (dim + 1) / 2 + 2 * ceilDiv dim 32
  | 2 => (dim + 1) / 2 + 2 * ceilDiv dim 64
  | 3 => (dim + 1) / 2 + 2 * ceilDiv dim 128
  | 4 => 2 * dim
  | _ => 0

/-- Bytes an item takes in Heart (R69). -/
def Coll.itemBytes (c : Coll) : Nat := 4 * c.degree + 2 * c.navDim + 32

/-- Heart extents of a collection of `n` slots: one for its key map and snapshots, and those of its slots (R67; 12 R408; log
entry 9). -/
def Coll.extentsFor (c : Coll) (n : Nat) : Nat := 1 + ceilDiv (n * c.itemBytes) (2 ^ 28)

/-- Bytes of one INSERT or UPSERT record (15 R500). -/
def Coll.recordBytes (c : Coll) : Nat := roundUp (40 + 2 * c.navDim + fullBytes c.fullFormat c.fullDim) 64

/-- Base extents of the volume of its full vectors, once it has `n` slots (13 R425; log entry 23). -/
def Coll.baseFor (c : Coll) (n : Nat) : Nat :=
  if c.fullDim = 0 then 0 else ceilDiv (n * fullBytes c.fullFormat c.fullDim) (2 ^ 30)

/-- Grow the volume that holds a collection's full vectors to `gib` extents, or create it (13 R425; log entry 23). -/
def State.growFull (s : State) (c : Coll) (gib : Nat) : State × Option Nat × Bool :=
  let old := match c.fullVolume with
    | none => 0
    | some v => ((s.bft.volumes.find? v).map fun x => x.gib).getD 0
  if gib ≤ old then (s, c.fullVolume, true)
  else match s.takeBase c.owner (gib - old) with
    | (s, false) => (s, c.fullVolume, false)
    | (s, true) =>
      let n := match c.fullVolume with
        | some v => v
        | none => ((List.range 16384).reverse.find? fun v => !(s.bft.volumes.has v)).getD 0
      ({ s with bft := { s.bft with volumes := s.bft.volumes.set n { owner := c.owner, gib := gib } } }, some n, true)

/-- Take what a collection of `n` slots needs beyond what it holds, in Heart and in Base, or nothing (12 R408, R410, R412). -/
def State.growColl (s : State) (c : Coll) (n : Nat) : State × Coll × Bool :=
  let more := c.extentsFor n - c.extents
  match s.takeHeart c.owner more with
  | (s, false) => (s, c, false)
  | (s, true) => match s.growFull c (c.baseFor n) with
    | (s, _, false) => (s.giveHeart c.owner more, c, false)
    | (s, full, true) => (s, { c with extents := c.extents + more, fullVolume := full }, true)

/-- A field that takes its default when it holds 0 (R68). -/
def orDefault (v d : Nat) : Nat := if v = 0 then d else v

/-- The collection a creation descriptor of 64 bytes describes (R68). -/
def collOf (desc schema : List Byte) (watermark : Nat) : Coll :=
  { owner := fieldAt desc 10 2, metric := fieldAt desc 1 1, degree := fieldAt desc 2 1, navFormat := fieldAt desc 3 1,
    navDim := fieldAt desc 4 2, fullDim := fieldAt desc 6 2, fullFormat := fieldAt desc 8 1,
    autoHorizon := bitOf (fieldAt desc 9 1) 0, retention := fieldAt desc 16 8, horizon := min (fieldAt desc 24 8) watermark,
    sealAfter := orDefault (fieldAt desc 32 4) 50000000, sealAt := orDefault (fieldAt desc 36 4) 16384,
    compactAt := orDefault (fieldAt desc 40 2) 192, waitUs := orDefault (fieldAt desc 48 4) 500, schema := schema }

/-- The ranges of R68. -/
def Coll.inRange (c : Coll) : Bool :=
  c.metric ≤ 2 && 16 ≤ c.degree && c.degree ≤ 64 && c.degree % 8 == 0 && c.navFormat ≤ 1 &&
  64 ≤ c.navDim && c.navDim ≤ 256 && c.navDim % 16 == 0 && c.fullDim ≤ 4096 && c.fullFormat ≤ 4 &&
  ((c.fullDim == 0) == (c.fullFormat == 0)) &&
  1000000 ≤ c.sealAfter && c.sealAfter ≤ 1000000000 && 1024 ≤ c.sealAt && c.sealAt ≤ 16384 &&
  16 ≤ c.compactAt && c.compactAt ≤ 255 && 1 ≤ c.waitUs && c.waitUs ≤ 1000000

/-- Type, offset and width of schema field `n` (05 R159). -/
def schemaField (schema : List Byte) (n : Nat) : Nat × Nat × Nat :=
  (fieldAt schema (4 * n) 1, fieldAt schema (4 * n + 1) 1, fieldAt schema (4 * n + 2) 1)

/-- One field's width and alignment (05 R160). -/
def fieldOk (f : Nat × Nat × Nat) : Bool :=
  let (ty, off, w) := f
  match ty with
  | 0 => off == 0 && w == 0
  | 1 | 2 | 4 => [1, 2, 4, 8].contains w && off % w == 0 && off + w ≤ 32
  | 3 => w == 1 && off + w ≤ 32
  | 5 => w == 12 && off % 4 == 0 && off + w ≤ 32
  | _ => false

def fieldsOverlap (f g : Nat × Nat × Nat) : Bool :=
  f.1 != 0 && g.1 != 0 && f.2.1 < g.2.1 + g.2.2 && g.2.1 < f.2.1 + f.2.2

/-- The schema's checks (05 R160). -/
def schemaOk (schema : List Byte) : Bool :=
  let fs := (List.range 8).map (schemaField schema)
  fs.all fieldOk &&
  (List.range 8).all fun i => (List.range i).all fun j => !fieldsOverlap (fs.getD i (0, 0, 0)) (fs.getD j (0, 0, 0))

/-! ### Slots, stamps and visibility (R72 to R78) -/

/-- A slot is visible to a search as-of `p` (R76). -/
def Slot.visible (x : Slot) (p : Nat) : Bool :=
  x.ins ≤ p && match x.del with
    | none => true
    | some d => p < d

def Slot.newest (x : Slot) : Nat := max x.ins (x.del.getD 0)

/-- The slots of a key (R73). -/
def Coll.chain (c : Coll) (key : Nat) : Table Slot := c.slots.filter fun e => e.2.key == key

/-- The newest stamp of a key, if it has a slot. -/
def Coll.newestStamp (c : Coll) (key : Nat) : Option Nat :=
  (c.chain key).foldl (fun m e => some (max (m.getD 0) e.2.newest)) none

/-- The slot of a key visible as-of `p`; at most one is (R76). -/
def Coll.visibleSlot (c : Coll) (key p : Nat) : Option Nat :=
  (List.find? (fun e => e.2.visible p) (c.chain key)).map fun e => e.1

/-- Whether an item from `src` at `q` is skipped under the collection's replay floor (R107). -/
def Coll.skips (c : Coll) (src q : Nat) : Bool :=
  match c.floors.find? src with
  | none => false
  | some f => q ≤ f.w || (q == f.w + 1 && f.seen < f.n)

/-- One more item of `src` met at `q` (R107). -/
def Coll.met (c : Coll) (src q : Nat) : Coll :=
  match c.floors.find? src with
  | none => c
  | some f => if q = f.w + 1 then { c with floors := c.floors.set src { f with seen := f.seen + 1 } } else c

/-- The outcome of one item (R78): 0 Applied, 1 KeyLive, 2 KeyAbsent, 3 Superseded. -/
def Coll.decideItem (c : Coll) (op src q key : Nat) : Nat :=
  if c.skips src q then 3
  else match c.newestStamp key with
    | none => if op = 0x09 then 2 else 0
    | some n =>
      if q < n then 3
      else if op = 0x08 && (c.visibleSlot key q).isSome then 1
      else if op = 0x09 && (c.visibleSlot key q).isNone then 2
      else 0

/-- Stamp the live slot of a key deleted at `q` (R75). -/
def Coll.stampDelete (c : Coll) (key q : Nat) (bySuper : Bool) : Coll :=
  match c.visibleSlot key q with
  | none => c
  | some n => { c with slots := c.slots.modify n fun x => { x with del := some q, bySuper := bySuper } }

/-- A new slot at the end of the tail (R73, R95). -/
def Coll.addSlot (c : Coll) (x : Slot) : Coll :=
  match c.freed with
  | n :: rest => { c with freed := rest, slots := c.slots.set n x, tail := c.tail ++ [n] }
  | [] => { c with nextSlot := c.nextSlot + 1, slots := c.slots.set c.nextSlot x, tail := c.tail ++ [c.nextSlot] }

/-- One item of a mutation list as its record gives it (15 R500). -/
structure Item where
  key   : Nat
  attrs : List Byte := []
  nav   : List Nat := []
  full  : List Byte := []
  deriving DecidableEq, Repr

def Coll.itemOf (c : Coll) (op : Nat) (raw : List Byte) : Item :=
  if op = 0x09 then { key := fieldAt raw 0 8 }
  else { key := fieldAt raw 0 8, attrs := bytesAt raw 8 32, nav := elems16 (bytesAt raw 40 (2 * c.navDim)),
         full := bytesAt raw (40 + 2 * c.navDim) (fullBytes c.fullFormat c.fullDim) }

/-- Decide and stamp one item (R75, R78). Answers the outcome. -/
def Coll.stampItem (c : Coll) (op src q tapeTime : Nat) (it : Item) : Coll × Nat :=
  let o := c.decideItem op src q it.key
  let c := c.met src q
  if o != 0 then (c, o)
  else
    let c := if op = 0x08 then c else c.stampDelete it.key q (op == 0x0A)
    if op = 0x09 then (c, 0)
    else (c.addSlot { key := it.key, ins := q, attrs := it.attrs, nav := it.nav, full := it.full, source := src,
                      enteredAt := tapeTime }, 0)

/-- How many new slots a list needs (R74). -/
def Coll.slotsNeeded (c : Coll) (op src q : Nat) (items : List Item) : Nat :=
  (items.foldl (fun a it =>
    let (c', o) := a.1.stampItem op src q 0 it
    (c', if o = 0 && op != 0x09 then a.2 + 1 else a.2)) (c, 0)).2

/-! ### The Wings (R95 to R99) -/

/-- Segments that count against 256: every state except Retired (R97). -/
def Coll.segCount (c : Coll) : Nat := c.segs.countP fun g => g.state != .retired

/-- Seal the tail into a Building segment (R96). -/
def Coll.seal (c : Coll) : Coll :=
  if c.tail.isEmpty || 256 ≤ c.segCount then c
  else { c with segs := c.segs.set c.nextSeg { state := .building, seq := c.nextSeal, slots := c.tail },
                nextSeg := c.nextSeg + 1, nextSeal := c.nextSeal + 1, tail := [] }

/-- The tail is full (R95). -/
def Coll.tailFull (c : Coll) : Bool := c.sealAt ≤ c.tail.length

/-- The oldest slot of the tail has been in it for SealAfterNs (R96). -/
def Coll.tailAged (c : Coll) (tapeTime : Nat) : Bool :=
  match c.tail with
  | [] => false
  | n :: _ => match c.slots.find? n with
    | none => false
    | some x => x.enteredAt + c.sealAfter ≤ tapeTime

/-- Seal where R96 says so. -/
def Coll.sealIfDue (c : Coll) (tapeTime : Nat) : Coll := if c.tailFull || c.tailAged tapeTime then c.seal else c

/-- Sealed segments by ascending size, then by ascending seal sequence (R98). -/
def Coll.sealedBySize (c : Coll) : List (Nat × Segment) :=
  sortBy (fun a b => a.2.slots.length < b.2.slots.length || (a.2.slots.length == b.2.slots.length && a.2.seq ≤ b.2.seq))
    (c.segs.filter fun e => e.2.state == .sealed)

/-- Start merging the two smallest Sealed segments when the segment count calls for it (R98). -/
def Coll.compactIfDue (c : Coll) : Coll :=
  if c.merging.isNone && c.compactAt ≤ c.segCount then
    match c.sealedBySize with
    | a :: b :: _ =>
      if a.2.slots.length + b.2.slots.length ≤ 1048576 then
        { c with merging := some (a.1, b.1),
                 segs := (c.segs.modify a.1 fun g => { g with state := .compacting }).modify b.1 fun g => { g with state := .compacting } }
      else c
    | _ => c
  else c

/-! ### Sources (R81 to R87) -/

def State.source? (s : State) (n : Nat) : Option Source := s.wlk.sources.find? n

def State.setSource (s : State) (n : Nat) (v : Source) : State := { s with wlk := { s.wlk with sources := s.wlk.sources.set n v } }

/-- Bit `i` of a bitmap in bytes. -/
def bitmapBit (m : List Byte) (i : Nat) : Bool := bitOf (m.getD (i / 8) 0).toNat (i % 8)

/-- W raised to `w`; StampedAtNext returns to 0 whenever W rises (R82, R87). -/
def Source.raise (v : Source) (w : Nat) : Source := if v.w < w then { v with w := w, next := 0 } else v

/-! ### Replication to the Twin (17 R570 to R572) -/

/-- The lease is Held (17 R575). -/
def State.leaseHeld (s : State) : Bool := s.tapeTime < s.fab.expiry

/-- FAB_TWIN_NODE (17 R580). -/
def State.twin? (s : State) : Option Nat :=
  let v := s.reg (pgFab 0) 0x0D0
  if bitOf v 31 then some (bitsOf v 9 0) else none

/-- The payload of a MUTATION_REPLICATE (17 R571). -/
def replPayload (coll source op : Nat) (complete probe : Bool) (pos : Nat) (items : List (List Byte)) : List Byte :=
  natLE 4 coll ++ natLE 2 source ++ natLE 1 op ++ natLE 1 (boolNat complete + 2 * boolNat probe) ++ natLE 8 pos ++
    natLE 4 items.length ++ zeroBytes 12 ++ items.flatten

/-- Send a MUTATION_REPLICATE to the Twin and note what its reply will answer. -/
def State.sendRepl (s : State) (twin coll : Nat) (r : Repl) (op : Nat) (complete probe : Bool) (pos : Nat)
    (items : List (List Byte)) : State :=
  let req := s.fab.nextReq
  let asked : Req := { node := twin, what := if probe then .probe coll else .replicate coll }
  let s := { s with fab := { s.fab with nextReq := (req + 1) % 2 ^ 32, reqs := s.fab.reqs.set req asked } }
  s.sendMsg (s.ownMsg 3 (bitsOf (s.reg pgShp 0x04C) 2 0) twin req r.domain s.fab.epoch
    (replPayload coll r.source op complete probe pos items))

/-- The items that go in one message with the first held one: one opcode, one position, at most 65,504 payload bytes
(17 R562, R570). -/
def takeRun (op pos : Nat) : Nat → List HeldMut → List HeldMut
  | _, [] => []
  | room, h :: rest => if h.opcode = op && h.pos = pos && h.item.length ≤ room then h :: takeRun op pos (room - h.item.length) rest else []

/-- Send, in ascending position, what is held up to position `w` (17 R570). -/
def State.replGo (s : State) (twin coll : Nat) (w : Nat) : Nat → State
  | 0 => s
  | fuel + 1 =>
    match s.fab.repls.find? coll with
    | none => s
    | some r =>
      match r.held.filter fun h => !h.sent && h.pos ≤ w with
      | [] => s
      | h :: rest =>
        let run := takeRun h.opcode h.pos 65472 (h :: rest)
        let n := max 1 run.length
        let more := ((h :: rest).drop n).any fun x => x.pos == h.pos
        let unsentBefore := (r.held.takeWhile fun x => x.sent).length
        let r' := { r with held := (r.held.take unsentBefore) ++ ((r.held.drop unsentBefore).take n).map (fun x => { x with sent := true }) ++
                                     r.held.drop (unsentBefore + n), sentTo := max r.sentTo h.pos }
        let s := { s with fab := { s.fab with repls := s.fab.repls.set coll r' } }
        State.replGo (s.sendRepl twin coll r h.opcode (!more) false h.pos (run.map fun x => x.item)) twin coll w fuel

/-- Replication of one collection as the node watermark stands at `w` (17 R570, R572, R576). -/
def State.replicate (s : State) (coll w : Nat) : State :=
  match s.fab.repls.find? coll, s.twin? with
  | some r, some twin =>
    if r.broken || r.probing || !s.leaseHeld then s
    else if r.twinW + 2 ^ 24 < w && !r.held.isEmpty then
      let s := { s with fab := { s.fab with repls := s.fab.repls.set coll { r with broken := true } } }
      (s.sticky (pgFab 0) 0x044 0x40).sendFault (pgFab 0) .replBroken 0 0 true
    else s.replGo twin coll w r.held.length
  | _, _ => s

/-- Hold a stamped item for the Twin (17 R570). -/
def State.holdForTwin (s : State) (coll op q : Nat) (raw : List Byte) : State :=
  match s.fab.repls.find? coll with
  | none => s
  | some r =>
    if r.broken then s
    else
      let (before, after) := (r.held.filter fun h => h.pos ≤ q, r.held.filter fun h => q < h.pos)
      { s with fab := { s.fab with repls := s.fab.repls.set coll { r with held := before ++ [{ opcode := op, pos := q, item := raw }] ++ after } } }

/-! ### Mutation commands (R74 to R87, R99) -/

def mutColl (raw : List Byte) : Nat := fieldAt raw 8 4
def mutSource (raw : List Byte) : Nat := fieldAt raw 12 2
def mutCount (raw : List Byte) : Nat := fieldAt raw 48 4

/-- The checks of a mutation at `q` from a source in a collection (R80, R83, R85). -/
def State.mutCheck (s : State) (c : Coll) (src q : Nat) : Option Status :=
  match s.source? src with
  | none => some .denied
  | some v =>
    if q < c.horizon then some .stale
    else if q ≤ v.w then some .malformed
    else if !v.active && q ≤ s.wlk.watermark then some .stale
    else none

/-- A command before this one that must be stamped first: earlier from the same source, or at the same position of the same
collection from a lower source (R79, R82). -/
def State.mutEarlier (s : State) (cid : Nat) (k : Cmd) : Bool :=
  s.qmg.cmds.any fun e => [0x08, 0x09, 0x0A].contains (cmdOpcode e.2.raw) &&
    ((e.1 < cid && mutSource e.2.raw == mutSource k.raw) ||
     (e.2.phase == .admitted && mutColl e.2.raw == mutColl k.raw && cmdPos e.2.raw == cmdPos k.raw &&
        mutSource e.2.raw < mutSource k.raw))

/-- Stamp items from number `i` on while the collection takes them (R78, R86, R99); answers how many have been decided. -/
def State.stampGo (s : State) (cid coll op src q ptrB : Nat) : Nat → List (List Byte) → State × Nat
  | i, [] => (s, i)
  | i, raw :: rest =>
    match s.coll? coll with
    | none => (s, i)
    | some c =>
      let c := c.sealIfDue s.tapeTime
      if op != 0x09 && c.tailFull then (s.setColl coll c, i)
      else
        let (c', o) := c.stampItem op src q s.tapeTime (c.itemOf op raw)
        let c' := (c'.sealIfDue s.tapeTime).compactIfDue
        let s := s.setColl coll c'
        let s := match s.source? src with
          | none => s
          | some v => s.setSource src { v with next := v.next + 1, stamped := true }
        let s := if o = 0 then s.holdForTwin coll op q raw else s
        let s := s.cmdWrite cid ptrB i [BitVec.ofNat 8 o]
        State.stampGo s cid coll op src q ptrB (i + 1) rest

/-- The item records of a mutation command (15 R500). -/
def State.itemList (s : State) (c : Coll) (k : Cmd) : List (List Byte) :=
  let size := if cmdOpcode k.raw = 0x09 then 8 else c.recordBytes
  (List.range (mutCount k.raw)).map fun i => s.cmdRead k (cmdPtrA k.raw + i * size) size

/-- Complete a mutation command: its source's W and StampedAtNext as they stand after it (R87; 15 R507). -/
def State.finishMut (s : State) (cid src : Nat) (st : Status) (count : Nat) : State :=
  let v := (s.source? src).getD {}
  let s := s.post cid { status := st, count := count, detail := v.next, watermark := some v.w }
  if v.leaving && !(s.qmg.cmds.any fun e => [0x08, 0x09, 0x0A].contains (cmdOpcode e.2.raw) && mutSource e.2.raw == src) then
    { s with wlk := { s.wlk with sources := s.wlk.sources.erase src } }
  else s

/-- Take a mutation command, or go on with one that waits under R99. -/
def mutate (cid : Nat) (s : State) : State :=
  match s.cmd? cid with
  | none => s
  | some k =>
    let op := cmdOpcode k.raw
    let coll := mutColl k.raw
    let src := mutSource k.raw
    let q := cmdPos k.raw
    match s.coll? coll with
    | none => s
    | some c =>
      let items := s.itemList c k
      let fresh := k.phase == .admitted
      let need := if fresh then c.slotsNeeded op src q (items.map (c.itemOf op)) else 0
      let refusal : Option Status :=
        if !fresh then none
        else if 65536 < mutCount k.raw then some .malformed
        else match s.mutCheck c src q with
          | some st => some st
          | none => if 2 ^ 32 - 1 < c.slots.length + need then some .quota else none
      match refusal with
      | some st => s.finishMut cid src st 0
      | none =>
        match s.growColl c (c.slots.length + need) with
        | (s, _, false) => s.finishMut cid src .quota 0
        | (s, c, true) =>
          let s := s.setColl coll c
          let v := (s.source? src).getD {}
          let s := s.setSource src (v.raise (q - 1))
          let (s, n) := s.stampGo cid coll op src q (cmdPtrB k.raw) k.progress (items.drop k.progress)
          let s := if n = 0 && !items.isEmpty then s.setSource src v else s
          if n < items.length then s.setCmd cid { (s.cmd? cid).getD k with phase := .waiting, progress := n }
          else
            let v := (s.source? src).getD {}
            let s := if bitOf (cmdFlags k.raw) 0 then s.setSource src (v.raise q) else s
            (s.finishMut cid src .ok n).replicate coll (max s.wlk.watermark s.givenWatermark)

/-- When a mutation step takes place: its command is of opcode `op`, is not finished, and none must be stamped before it. -/
def State.canMutate (s : State) (cid op : Nat) : Bool :=
  match s.cmd? cid with
  | none => false
  | some k => s.live && k.warm.isNone && cmdOpcode k.raw == op && !s.mutEarlier cid k

def execInsert (t cid : Nat) (s : State) : Host.Outcome State Fault Refusal :=
  done ((s.at t).onlyIf ((s.at t).canMutate cid 0x08) (mutate cid))

def execDelete (t cid : Nat) (s : State) : Host.Outcome State Fault Refusal :=
  done ((s.at t).onlyIf ((s.at t).canMutate cid 0x09) (mutate cid))

def execUpsert (t cid : Nat) (s : State) : Host.Outcome State Fault Refusal :=
  done ((s.at t).onlyIf ((s.at t).canMutate cid 0x0A) (mutate cid))

/-! ### Seals, builds, compaction (R96 to R98) -/

/-- Change a collection, where it exists. -/
def State.modColl (s : State) (c : Nat) (f : Coll → Coll) : State :=
  match s.coll? c with
  | none => s
  | some k => s.setColl c (f k)

/-- TAIL_SEAL_TIMER (R96, R98). -/
def execTailSealTimer (t coll : Nat) (s : State) : Host.Outcome State Fault Refusal :=
  done ((s.at t).onlyIf s.live fun s => s.modColl coll fun c => (c.sealIfDue s.tapeTime).compactIfDue)

/-- SEGMENT_BUILD_DONE (R97, R98): a Building segment takes the graph that the background build made. -/
def segmentBuildDone (seg : Nat) (g : Graph) (c : Coll) : Coll :=
  match c.segs.find? seg with
  | none => c
  | some x => if x.state = .building then { c with segs := c.segs.set seg { x with state := .sealed, graph := g } }.compactIfDue else c

def execSegmentBuildDone (t coll seg : Nat) (g : Graph) (s : State) : Host.Outcome State Fault Refusal :=
  done ((s.at t).onlyIf s.live fun s => s.modColl coll (segmentBuildDone seg g))

/-- A segment retires; searches admitted before keep it (R97, R103). -/
def Coll.retire (c : Coll) (order seg : Nat) : Coll :=
  { c with segs := c.segs.modify seg fun g => { g with state := .retired }, dead := c.dead ++ [(seg, order)] }

/-- COMPACTION_DONE (R96 to R98; 04 R122): the merged segment is Sealed, its inputs retire, and a tail that waited may seal. -/
def compactionDone (order tapeTime : Nat) (g : Graph) (c : Coll) : Coll :=
  match c.merging with
  | none => c
  | some (a, b) =>
    let slots := ((c.segs.find? a).map fun x => x.slots).getD [] ++ ((c.segs.find? b).map fun x => x.slots).getD []
    let c := (c.retire order a).retire order b
    let seq := max (((c.segs.find? a).map fun x => x.seq).getD 0) (((c.segs.find? b).map fun x => x.seq).getD 0)
    let c := { c with merging := none, nextSeg := c.nextSeg + 1,
                      segs := c.segs.set c.nextSeg { state := .sealed, seq := seq, slots := slots, graph := g, fromTail := false } }
    (c.sealIfDue tapeTime).compactIfDue

def execCompactionDone (t coll : Nat) (g : Graph) (s : State) : Host.Outcome State Fault Refusal :=
  done ((s.at t).onlyIf s.live fun s => s.modColl coll (compactionDone s.wlk.order s.tapeTime g))

/-! ### Entrance (R101 to R103, R94) -/

/-- Extents that an Entrance's new neighbour lists take while it runs (R102; log entry 9). -/
def Coll.entranceExtents (c : Coll) : Nat :=
  ceilDiv (((c.segs.filter fun e => e.2.state == .sealed).map fun e => e.2.slots.length).sum * 4 * c.degree) (2 ^ 28)

/-- Start an Entrance for command `cid`, or for a cue (R101, R102). -/
def State.startEntrance (s : State) (coll : Nat) (cid : Option Nat) : State × Status :=
  match s.coll? coll with
  | none => (s, .notFound)
  | some c =>
    if c.entering.isSome then (s, .busy)
    else
      let n := c.entranceExtents
      match s.takeHeart c.owner n with
      | (s, false) => (s, .quota)
      | (s, true) =>
        (s.setColl coll { c with entering := some (cid, c.horizon, n),
                                 segs := c.segs.mapVal fun g => if g.state = .sealed then { g with state := .entering } else g }, .ok)

/-- A slot that an Entrance may free at horizon `h` (R94). -/
def Slot.purgeable (x : Slot) (h : Nat) : Bool :=
  match x.del with
  | none => false
  | some d => d ≤ h

/-- Publish an Entrance (R94, R102, R103): the Entering segments retire, the entry set changes, purged slots leave. -/
def Coll.publish (c : Coll) (order h : Nat) (g : Graph) : Coll :=
  let entering := (c.segs.filter fun e => e.2.state == .entering)
  let pool := c.mainSlots ++ (entering.map fun e => e.2.slots).flatten
  let gone := pool.filter fun n => match c.slots.find? n with
    | none => true
    | some x => x.purgeable h
  let kept := pool.filter fun n => !gone.contains n
  let c := entering.foldl (fun c e => c.retire order e.1) c
  { c with entering := none, mainSlots := kept,
           mainGraph := { lists := (g.lists.filter fun e => kept.contains e.1).foldl
                            (fun (t : Table (List Nat)) e => t.set e.1 (e.2.filter kept.contains))
                            (c.mainGraph.lists.filter fun e => gone.contains e.1),
                          entries := g.entries.filter kept.contains },
           limbo := c.limbo ++ gone.map fun n => (n, order) }

/-- Free what no older search can still read (R73, R97). -/
def Coll.reclaim (c : Coll) (oldest : Nat) : Coll :=
  let freed := (c.limbo.filter fun e => e.2 ≤ oldest).map fun e => e.1
  let segs := (c.dead.filter fun e => e.2 ≤ oldest).map fun e => e.1
  { c with limbo := c.limbo.filter fun e => oldest < e.2, dead := c.dead.filter fun e => oldest < e.2,
           freed := c.freed ++ freed, slots := c.slots.filter fun e => !freed.contains e.1,
           mainGraph := { c.mainGraph with lists := c.mainGraph.lists.filter fun e => !freed.contains e.1 },
           segs := c.segs.filter fun e => !segs.contains e.1 }

/-- The order of the oldest search still admitted on a collection, or the next order. -/
def State.oldestOn (s : State) (coll : Nat) : Nat :=
  (s.wlk.searches.filter fun e => e.2.coll == coll).foldl (fun m e => min m e.2.order) s.wlk.order

/-- Free a collection's purged slots and retired segments, and return the extents they held (R73, R102, R413). -/
def State.reclaim (s : State) (coll : Nat) : State :=
  match s.coll? coll with
  | none => s
  | some c =>
    let c' := c.reclaim (s.oldestOn coll)
    let less := c.extents - c'.extentsFor c'.slots.length
    (s.giveHeart c.owner less).setColl coll { c' with extents := c.extents - less }

/-- ENTRANCE_PUBLISH (R94, R101 to R103): the running Entrance ends; its command completes OK. -/
def entrancePublish (coll : Nat) (g : Graph) (s : State) : State :=
  match s.coll? coll with
  | none => s
  | some c =>
    match c.entering with
    | none => s
    | some (cid, h, n) =>
      let c := ((c.publish s.wlk.order h g).sealIfDue s.tapeTime).compactIfDue
      let s := ((s.setColl coll c).giveHeart c.owner n).reclaim coll
      match cid with
      | none => s
      | some cid => s.finish cid .ok

def execEntrancePublish (t coll : Nat) (g : Graph) (s : State) : Host.Outcome State Fault Refusal :=
  done ((s.at t).onlyIf s.live (entrancePublish coll g))

/-- Abandon an unpublished Entrance: its segments return to Sealed and its space returns (R106). -/
def State.abandonEntrance (s : State) (coll : Nat) : State :=
  match s.coll? coll with
  | none => s
  | some c =>
    match c.entering with
    | none => s
    | some (_, _, n) =>
      (s.setColl coll { c with entering := none,
                               segs := c.segs.mapVal fun g => if g.state = .entering then { g with state := .sealed } else g }).giveHeart c.owner n

/-- Abandon a compaction in progress: its inputs return to Sealed (R106). -/
def Coll.abandonMerge (c : Coll) : Coll :=
  match c.merging with
  | none => c
  | some _ => { c with merging := none, segs := c.segs.mapVal fun g => if g.state = .compacting then { g with state := .sealed } else g }

/-! ### Horizons and snapshots (R92, R93) -/

/-- H raised to the least of a value, the node watermark and the oldest snapshot (R92). -/
def Coll.raiseHorizon (c : Coll) (v watermark : Nat) : Coll :=
  { c with horizon := max c.horizon (c.snapshots.foldl min (min v watermark)) }

/-- HORIZON_SET (R92; 15 R505). -/
def horizonSet (cid : Nat) (k : Cmd) (s : State) : State :=
  match s.openColl? (fieldAt k.raw 8 4) with
  | none => s.finish cid .notFound
  | some c => (s.setColl (fieldAt k.raw 8 4) (c.raiseHorizon (cmdPos k.raw) s.wlk.watermark)).finish cid .ok

def execHorizonSet (t cid : Nat) (s : State) : Host.Outcome State Fault Refusal :=
  done ((s.at t).withCmd cid (·.isAdmin 0x52) (horizonSet cid))

/-- Cut a visibility snapshot (R93): cue action 0x01. -/
def State.cutSnapshot (s : State) (coll pos : Nat) : State × Status :=
  match s.openColl? coll with
  | none => (s, .notFound)
  | some c =>
    if 16 ≤ c.snapshots.length then (s, .quota)
    else if pos < c.horizon then (s, .stale)
    else (s.setColl coll { c with snapshots := c.snapshots ++ [pos] }, .ok)

/-- SNAPSHOT_RELEASE (R93): one snapshot at the position; NOT_FOUND when the collection holds none there (log entry 10). -/
def snapshotRelease (cid : Nat) (k : Cmd) (s : State) : State :=
  match s.openColl? (fieldAt k.raw 8 4) with
  | none => s.finish cid .notFound
  | some c =>
    if c.snapshots.contains (cmdPos k.raw) then
      (s.setColl (fieldAt k.raw 8 4) { c with snapshots := c.snapshots.erase (cmdPos k.raw) }).finish cid .ok
    else s.finish cid .notFound

def execSnapshotRelease (t cid : Nat) (s : State) : Host.Outcome State Fault Refusal :=
  done ((s.at t).withCmd cid (·.isAdmin 0x53) (snapshotRelease cid))

/-! ### Creation, destruction, sources (R67, R68, R81, R84, R750) -/

/-- COLLECTION_CREATE (R67, R68; 05 R159, R160). -/
def collectionCreate (cid : Nat) (k : Cmd) (s : State) : State :=
  let n := fieldAt k.raw 8 4
  let desc := s.cmdRead k (cmdPtrA k.raw) 64
  let schema := s.cmdRead k (cmdPtrB k.raw) 32
  let c := collOf desc schema s.wlk.watermark
  if fieldAt desc 0 1 / 16 != 1 then s.finish cid .version
  else if s.dom.fuses.maxDomains ≤ c.owner || 65536 ≤ n then s.finish cid .malformed
  else if (s.coll? n).isSome then s.finish cid .busy
  else if (s.domain c.owner).state != .active then s.finish cid .notFound
  else if !c.inRange || !schemaOk schema then s.finish cid .malformed
  else match s.growColl c 0 with
    | (s, _, false) => s.finish cid .quota
    | (s, c, true) => (s.setColl n c).finish cid .ok

def execCollectionCreate (t cid : Nat) (s : State) : Host.Outcome State Fault Refusal :=
  done ((s.at t).withCmd cid (·.isAdmin 0x50) (collectionCreate cid))

/-- COLLECTION_DESTROY (R750): closes the collection at once, and waits for its admitted commands. -/
def collectionDestroy (cid : Nat) (k : Cmd) (s : State) : State :=
  match s.openColl? (fieldAt k.raw 8 4) with
  | none => s.finish cid .notFound
  | some c => (s.setColl (fieldAt k.raw 8 4) { c with isClosed := some cid }).setCmd cid { k with phase := .waiting }

def execCollectionDestroy (t cid : Nat) (s : State) : Host.Outcome State Fault Refusal :=
  done ((s.at t).withCmd cid (·.isAdmin 0x51) (collectionDestroy cid))

/-- Whether a command names collection `c` (15 R499, R505; 17 R579). -/
def Cmd.namesColl (k : Cmd) (c : Nat) : Bool :=
  fieldAt k.raw 8 4 == c &&
  ([0x01, 0x04, 0x08, 0x09, 0x0A, 0x0B].contains (cmdOpcode k.raw) ||
   (cmdOpcode k.raw == 0x38 && [0x43, 0x50, 0x51, 0x52, 0x53, 0x55, 0x71, 0x72, 0x75].contains (cmdAdminOp k.raw)))

/-- Whether an admitted command or search still works on a collection, other than command `but`. -/
def State.collBusy (s : State) (c but : Nat) : Bool :=
  (s.qmg.cmds.any fun e => e.1 != but && e.2.namesColl c) || (s.wlk.searches.any fun e => e.2.coll == c)

/-- The collection's last admitted command has completed: everything it held returns, and its destruction completes (R750). -/
def State.drainColl (s : State) (n : Nat) : State :=
  match s.coll? n with
  | none => s
  | some c =>
    match c.isClosed with
    | none => s
    | some cid =>
      if s.collBusy n cid then s
      else
        let s := s.giveHeart c.owner (c.extents + (c.entering.map fun e => e.2.2).getD 0)
        ({ s with wlk := { s.wlk with colls := s.wlk.colls.erase n },
                  fab := { s.fab with shardMaps := s.fab.shardMaps.erase n, repls := s.fab.repls.erase n } }).finish cid .ok

/-- SOURCE_SET (R81, R84, R85, R107). -/
def sourceSet (cid : Nat) (k : Cmd) (s : State) : State :=
  let n := fieldAt k.raw 12 2
  let st := fieldAt k.raw 49 1
  let map := s.cmdRead k (cmdPtrA k.raw) 512
  if 256 ≤ n || 2 < st then s.finish cid .malformed
  else if st != 0 && (List.range 4096).any (fun d => s.dom.fuses.maxDomains ≤ d && bitmapBit map d) then s.finish cid .malformed
  else if st = 0 then
    match s.source? n with
    | none => s.finish cid .ok
    | some v =>
      let busy := s.qmg.cmds.any fun e => [0x08, 0x09, 0x0A].contains (cmdOpcode e.2.raw) && mutSource e.2.raw == n
      (if busy then s.setSource n { v with domains := [], leaving := v.active, active := false }
       else { s with wlk := { s.wlk with sources := s.wlk.sources.erase n } }).raised.finish cid .ok
  else
    let base : Source := match s.source? n with
      | some v => v
      | none => { w := (s.wlk.leastFloor.find? n).getD s.wlk.watermark, restored := s.wlk.leastFloor.find? n }
    let v := { base with domains := map, active := st == 2, leaving := false }
    let v := if st = 2 && (v.restored.isNone || v.stamped) then v.raise s.wlk.watermark else v
    let s := s.setSource n v
    ({ s with wlk := { s.wlk with wasActive := s.wlk.wasActive || st == 2 } }).raised.finish cid .ok

def execSourceSet (t cid : Nat) (s : State) : Host.Outcome State Fault Refusal :=
  done ((s.at t).withCmd cid (·.isAdmin 0x54) (sourceSet cid))

end Sys2Proof.Machine
end

