-- ==== Sys2Proof/Machine/Float.lean ====
section
/-!
DEFINITION. Exact binary arithmetic: floating values as dyadic numbers, decoded from and rounded to the formats the manual
names (FP16, FP32, FP64, and the 40-bit accumulator of 06 R193).
-/

namespace Sys2Proof.Machine

/-- A floating value: NaN, a signed infinity, or (−1)^neg · m · 2^e. -/
inductive Fl where
  | nan
  | inf (neg : Bool)
  | fin (neg : Bool) (m : Nat) (e : Int)
  deriving DecidableEq, Repr

/-- A binary format: significand bits (the hidden one included) and exponent bits. -/
structure Fmt where
  p : Nat
  w : Nat
  deriving DecidableEq, Repr

def fp16 : Fmt := ⟨11, 5⟩
def fp32 : Fmt := ⟨24, 8⟩
def fp64 : Fmt := ⟨53, 11⟩
/-- 1 sign bit, 8 exponent bits with bias 127, 31 fraction bits (06 R193). -/
def fp40 : Fmt := ⟨32, 8⟩

def Fmt.bias (f : Fmt) : Nat := 2 ^ (f.w - 1) - 1

/-- Exponent of the lowest significand bit of a subnormal. -/
def Fmt.qmin (f : Fmt) : Int := 1 - (f.bias : Int) - (f.p - 1 : Nat)

namespace Fl

def zero : Fl := .fin false 0 0

/-- An integer as a floating value. -/
def ofInt (i : Int) : Fl := .fin (i < 0) i.natAbs 0

def neg : Fl → Fl
  | .nan => .nan
  | .inf s => .inf (!s)
  | .fin s m e => .fin (!s) m e

/-- The signed significand at exponent `e0`, which is at or below the value's own. -/
def scaled (s : Bool) (m : Nat) (e e0 : Int) : Int :=
  let v : Int := m * 2 ^ (e - e0).toNat
  if s then -v else v

/-- The exact sum. A sum of opposite values is +0, of two −0 is −0. -/
def add : Fl → Fl → Fl
  | .nan, _ => .nan
  | _, .nan => .nan
  | .inf a, .inf b => if a = b then .inf a else .nan
  | .inf a, _ => .inf a
  | _, .inf b => .inf b
  | .fin a m e, .fin b n f =>
    if m = 0 && n = 0 then .fin (a && b) 0 0
    else if m = 0 then .fin b n f
    else if n = 0 then .fin a m e
    else
      let e0 := min e f
      let v := scaled a m e e0 + scaled b n f e0
      if v = 0 then .fin false 0 0 else .fin (v < 0) v.natAbs e0

def sub (x y : Fl) : Fl := add x y.neg

/-- The exact product; 0 × ∞ is NaN. -/
def mul : Fl → Fl → Fl
  | .nan, _ => .nan
  | _, .nan => .nan
  | .inf a, .inf b => .inf (a != b)
  | .inf a, .fin b n _ => if n = 0 then .nan else .inf (a != b)
  | .fin a m _, .inf b => if m = 0 then .nan else .inf (a != b)
  | .fin a m e, .fin b n f => .fin (a != b) (m * n) (e + f)

def isNaN : Fl → Bool
  | .nan => true
  | _ => false

def isFinite : Fl → Bool
  | .fin _ _ _ => true
  | _ => false

/-- x < y among values that are not NaN. -/
def lt : Fl → Fl → Bool
  | .nan, _ => false
  | _, .nan => false
  | .inf a, .inf b => a && !b
  | .inf a, .fin _ _ _ => a
  | .fin _ _ _, .inf b => !b
  | .fin a m e, .fin b n f =>
    let e0 := min e f
    scaled a m e e0 < scaled b n f e0

def le (x y : Fl) : Bool := !x.isNaN && !y.isNaN && !lt y x

/-- |x|. -/
def abs : Fl → Fl
  | .nan => .nan
  | .inf _ => .inf false
  | .fin _ m e => .fin false m e

/-- `m · 2^e` with `d` low bits rounded away, to nearest with ties to even. -/
def roundShift (m d : Nat) : Nat :=
  let q := m / 2 ^ d
  let r := m % 2 ^ d
  if d = 0 then m
  else if 2 ^ (d - 1) < r || (r = 2 ^ (d - 1) && q % 2 = 1) then q + 1 else q

/-- The value rounded to a format, to nearest with ties to even; an overflow gives an infinity. -/
def round (f : Fmt) : Fl → Fl
  | .nan => .nan
  | .inf s => .inf s
  | .fin s m e =>
    if m = 0 then .fin s 0 0
    else
      let q := max (e + (Nat.log2 m + 1 : Nat) - f.p) f.qmin
      let n := if q ≤ e then m * 2 ^ (e - q).toNat else roundShift m (q - e).toNat
      if (f.bias : Int) + 1 ≤ q + (Nat.log2 n : Nat) && n != 0 then .inf s else .fin s n q

/-- The bits of a value in a format, rounded to it; the manual's one NaN encoding is not laid down and reads quiet and
positive (log entry 12). -/
def bits (f : Fmt) (x : Fl) : Nat :=
  let sign (s : Bool) : Nat := boolNat s * 2 ^ (f.w + f.p - 1)
  match round f x with
  | .nan => (2 ^ f.w - 1) * 2 ^ (f.p - 1) + 2 ^ (f.p - 2)
  | .inf s => sign s + (2 ^ f.w - 1) * 2 ^ (f.p - 1)
  | .fin s n q =>
    if n < 2 ^ (f.p - 1) && q ≤ f.qmin || n = 0 then sign s + n
    else
      let k := Nat.log2 n + 1
      let frac := if f.p ≤ k then n / 2 ^ (k - f.p) else n * 2 ^ (f.p - k)
      sign s + (q + (k : Int) - 1 + f.bias).toNat * 2 ^ (f.p - 1) + (frac - 2 ^ (f.p - 1))

/-- The value that bits of a format stand for. -/
def ofBits (f : Fmt) (b : Nat) : Fl :=
  let s := bitOf b (f.w + f.p - 1)
  let ex := bitsOf b (f.w + f.p - 2) (f.p - 1)
  let fr := b % 2 ^ (f.p - 1)
  if ex = 2 ^ f.w - 1 then (if fr = 0 then .inf s else .nan)
  else if ex = 0 then .fin s fr f.qmin
  else .fin s (fr + 2 ^ (f.p - 1)) (f.qmin + (ex - 1 : Nat))

/-- The integer part of a square root, by bits. -/
def isqrt : Nat → Nat → Nat → Nat
  | 0, _, r => r
  | b + 1, n, r => let r' := r + 2 ^ b; isqrt b n (if r' * r' ≤ n then r' else r)

/-- The square root rounded once to a format. -/
def sqrt (f : Fmt) : Fl → Fl
  | .nan => .nan
  | .inf s => if s then .nan else .inf false
  | .fin s m e =>
    if m = 0 then .fin s 0 0
    else if s then .nan
    else
      let k := 2 * f.p + 4 + (if e % 2 = 0 then 0 else 1)
      let n := m * 2 ^ k
      let r := isqrt (Nat.log2 n / 2 + 1) n 0
      round f (.fin false (2 * r + boolNat (r * r != n)) ((e - (k : Int)) / 2 - 1))

/-- The quotient rounded once to a format. -/
def div (f : Fmt) : Fl → Fl → Fl
  | .nan, _ => .nan
  | _, .nan => .nan
  | .inf _, .inf _ => .nan
  | .inf a, .fin b _ _ => .inf (a != b)
  | .fin a _ _, .inf b => .fin (a != b) 0 0
  | .fin a m e, .fin b n g =>
    if n = 0 then (if m = 0 then .nan else .inf (a != b))
    else
      let k := f.p + 4 + Nat.log2 n
      let q := m * 2 ^ k / n
      round f (.fin (a != b) (2 * q + boolNat (m * 2 ^ k % n != 0)) (e - g - (k : Int) - 1))

/-- The nearest integer, ties to even, of a finite quotient `x / y`, `y` not 0. -/
def divRound : Fl → Fl → Int
  | .fin a m e, .fin b n g =>
    let num := if 0 ≤ e - g then m * 2 ^ (e - g).toNat else m
    let den := if 0 ≤ e - g then n else n * 2 ^ (g - e).toNat
    let q := num / den
    let r := num % den
    let q := if den < 2 * r || (2 * r = den && q % 2 = 1) then q + 1 else q
    if a != b then -(q : Int) else q
  | _, _ => 0

/-- The exact sum of a list. -/
def sum (xs : List Fl) : Fl := xs.foldl add zero

end Fl

/-- An FP32 number's value. -/
def f32 (w : Word) : Fl := Fl.ofBits fp32 w.toNat

/-- A value rounded to FP32. -/
def toF32 (x : Fl) : Word := BitVec.ofNat 32 (x.bits fp32)

/-- Whether 16 bits hold a NaN or an infinity in FP16. -/
def nonFinite16 (b : Nat) : Bool := bitsOf b 14 10 == 31

end Sys2Proof.Machine
end

