-- ==== Sys2Proof/Machine/Predicates.lean ====
section
/-!
DEFINITION. Predicate programs over attribute records (05 R162 to R166), scores and the order of casts (04 R121, 07 R235),
and the fields of watch rules (05 R181, R182).
-/

namespace Sys2Proof.Machine

/-! ### Predicate programs -/

/-- One term of a predicate program (05 R162). -/
structure Term where
  field   : Nat
  op      : Nat
  clause  : Nat
  neg     : Bool
  operand : Nat
  deriving DecidableEq, Repr

def termAt (prog : List Byte) (t : Nat) : Term :=
  { field := fieldAt prog (16 + 16 * t) 1, op := fieldAt prog (17 + 16 * t) 1, clause := fieldAt prog (18 + 16 * t) 1,
    neg := bitOf (fieldAt prog (19 + 16 * t) 1) 0, operand := fieldAt prog (24 + 16 * t) 8 }

def terms (prog : List Byte) : List Term := (List.range (min 16 (fieldAt prog 2 1))).map (termAt prog)

/-- PostFilterSlots (05 R162). -/
def postFilterSlots (prog : List Byte) : Nat := fieldAt prog 4 4 % 2 ^ 24

/-- Whether operator `op` suits field type `ty` (05 R163). -/
def opSuits (op ty : Nat) : Bool :=
  match op with
  | 0x00 => [1, 2, 3, 4].contains ty
  | 0x01 | 0x02 | 0x03 | 0x04 => ty == 1 || ty == 2
  | 0x05 => ty == 3
  | 0x06 | 0x07 => ty == 4
  | 0x08 | 0x09 => ty == 5
  | _ => false

/-- A predicate program's checks (05 R162, R165); `none` is acceptable. -/
def predicateRefusal (schema prog : List Byte) : Option Status :=
  let n := fieldAt prog 2 1
  if fieldAt prog 0 1 / 16 != 1 then some .version
  else if 1 < fieldAt prog 1 1 || n = 0 || 16 < n || 2 ^ 24 ≤ fieldAt prog 4 4 then some .malformed
  else if (terms prog).all fun t => t.field < 8 && t.clause < 16 &&
      (schemaField schema t.field).1 != 0 && opSuits t.op (schemaField schema t.field).1 &&
      !(t.op == 0x09 && t.operand != 0) then none
  else some .malformed

/-- The condition of the operator table, before Negate (05 R163). -/
def opHolds (op : Nat) (ty : Nat) (raw width operand asOf : Nat) : Bool :=
  let sv := signedOf (8 * width) raw
  let so := signedOf 64 operand
  match op with
  | 0x00 => if ty = 2 then sv == so else raw == operand
  | 0x01 => if ty = 2 then sv < so else raw < operand
  | 0x02 => if ty = 2 then sv ≤ so else raw ≤ operand
  | 0x03 => if ty = 2 then so < sv else operand < raw
  | 0x04 => if ty = 2 then so ≤ sv else operand ≤ raw
  | 0x05 => raw ≤ 63 && bitOf operand raw
  | 0x06 => (raw &&& operand) != 0
  | 0x07 => (raw &&& operand) == operand
  | 0x08 => raw % 2 ^ 64 ≤ operand && operand ≤ raw % 2 ^ 64 + raw / 2 ^ 64
  | 0x09 => raw % 2 ^ 64 ≤ asOf && asOf ≤ raw % 2 ^ 64 + raw / 2 ^ 64
  | _ => false

def Term.holds (t : Term) (schema attrs : List Byte) (asOf : Nat) : Bool :=
  let (ty, off, w) := schemaField schema t.field
  opHolds t.op ty (fieldAt attrs off w) w t.operand asOf != t.neg

/-- Whether a program admits a record (05 R164); no program admits every record. -/
def admits (schema prog attrs : List Byte) (asOf : Nat) : Bool :=
  if prog.isEmpty then true
  else
    let ts := terms prog
    let held (t : Term) : Bool := t.holds schema attrs asOf
    if fieldAt prog 1 1 = 0 then ts.all fun t => ts.any fun u => u.clause == t.clause && held u
    else ts.any fun t => ts.all fun u => u.clause != t.clause || held u

/-- The program LabelField IN LabelMask of a precedent search (05 R184). -/
def labelProgram (field mask : Nat) : List Byte :=
  natLE 1 0x10 ++ natLE 1 0 ++ natLE 1 1 ++ natLE 1 0 ++ natLE 4 0 ++ natLE 8 0 ++
  natLE 1 field ++ natLE 1 5 ++ natLE 1 0 ++ natLE 1 0 ++ natLE 4 0 ++ natLE 8 mask

/-! ### Scores and orders -/

/-- Metric 2 prefers lower scores (04 R121). -/
def higherBetter (metric : Nat) : Bool := metric != 2

def isNaN32 (w : Word) : Bool := (f32 w).isNaN

/-- The ordered score of 07 R236 for a score that is not NaN: a higher one is better. -/
def orderedScore (higher : Bool) (score : Word) : Nat :=
  let b := if score = 0x80000000#32 then 0#32 else score
  let o := if b.getLsbD 31 then ~~~b else b ^^^ 0x80000000#32
  (if higher then o else ~~~o).toNat

/-- Among scores that are not NaN, whether the first is better, then the lower key (04 R121). -/
def betterNav (higher : Bool) (s1 : Word) (k1 : Nat) (s2 : Word) (k2 : Nat) : Bool :=
  let a := orderedScore higher s1
  let b := orderedScore higher s2
  b < a || (a == b && k1 < k2)

/-- "At least as good" (05 R185, 04 R121); false of a NaN. -/
def atLeastAsGood (higher : Bool) (score threshold : Word) : Bool :=
  !isNaN32 score && !isNaN32 threshold && orderedScore higher threshold ≤ orderedScore higher score

/-! ### Watch rules (05 R181, R182) -/

def ruleEnabled (r : List Byte) : Bool := bitOf (fieldAt r 1 1) 0
def ruleColl (r : List Byte) : Nat := fieldAt r 4 4
def rulePrecedent (r : List Byte) : Nat := fieldAt r 8 4
def ruleLabelField (r : List Byte) : Nat := fieldAt r 12 1
def ruleK (r : List Byte) : Nat := fieldAt r 13 1
def ruleBreadth (r : List Byte) : Nat := fieldAt r 14 2
def ruleLabelMask (r : List Byte) : Nat := fieldAt r 16 8
def ruleWord (r : List Byte) (off : Nat) : Word := BitVec.ofNat 32 (fieldAt r off 4)

/-- The field ranges of R181 and the last cases of R182. -/
def ruleInRange (r : List Byte) : Bool :=
  let fl := fieldAt r 1 1
  let k := ruleK r
  fieldAt r 2 2 < 1024 && 1 ≤ k && k ≤ 64 &&
  16 ≤ ruleBreadth r && ruleBreadth r ≤ 1024 && ruleBreadth r % 16 == 0 && k ≤ ruleBreadth r &&
  1 ≤ fieldAt r 28 2 && fieldAt r 28 2 ≤ k && 1 ≤ fieldAt r 30 2 && fieldAt r 30 2 ≤ 1024 &&
  (bitOf fl 1 || bitOf fl 2 || bitOf fl 3) &&
  !isNaN32 (ruleWord r 24) && !isNaN32 (ruleWord r 40) && !isNaN32 (ruleWord r 44) &&
  (Fl.le Fl.zero (f32 (ruleWord r 44)) && Fl.le (f32 (ruleWord r 44)) (.ofInt 1))

end Sys2Proof.Machine
end

