-- ==== Sys2Proof/Machine/Casting.lean ====
section
/-!
DEFINITION. Casting: selection, deduplication, exact masses and the selection report (07 R233 to R247), unique values with
counts (R248), and the index of the maximum (R249).
-/

namespace Sys2Proof.Machine

/-- An input list of a selection, with the left-out mass it carries (07 R234). -/
structure CastList where
  entries : List Entry
  carried : Option (BitVec 64) := none
  deriving DecidableEq, Repr

/-- The ordering key S of an entry that is not NaN (07 R236). -/
def castKey (higher : Bool) (e : Entry) : Nat := boolNat e.full * 2 ^ 32 + orderedScore higher e.score

/-- X is better than Y in the one order of 07 R235. -/
def better (higher : Bool) (x y : Entry) : Bool :=
  match isNaN32 x.score, isNaN32 y.score with
  | true, false => false
  | false, true => true
  | true, true => (x.full && !y.full) || (x.full == y.full && x.key < y.key)
  | false, false =>
    castKey higher y < castKey higher x || (castKey higher x == castKey higher y && x.key < y.key)

/-- Entries sorted best first (07 R238). -/
def sortBest (higher : Bool) (es : List Entry) : List Entry := sortBy (fun a b => !better higher b a) es

/-- Whether a later entry of the same key replaces the one kept (07 R242): better, or equal with a lower Origin from the same
list. Lists come in ascending number. -/
def replaces (higher : Bool) (new kept : Nat × Entry) : Bool :=
  better higher new.2 kept.2 ||
  (!better higher kept.2 new.2 && new.1 == kept.1 && new.2.origin < kept.2.origin)

/-- Offer one entry to the entries kept so far, one per item key. -/
def keepBest (higher : Bool) (kept : List (Nat × Entry)) (x : Nat × Entry) : List (Nat × Entry) :=
  if kept.any fun y => y.2.key == x.2.key then
    kept.map fun y => if y.2.key == x.2.key && replaces higher x y then x else y
  else kept ++ [x]

/-- The deduplicating merge (07 R242). -/
def dedupe (higher : Bool) (xs : List (Nat × Entry)) : List (Nat × Entry) := xs.foldl (keepBest higher) []

/-- The exact sum of the finite scores, rounded once to FP64 (07 R244). -/
def massOf (es : List Entry) : BitVec 64 :=
  BitVec.ofNat 64 ((Fl.sum ((es.map fun e => f32 e.score).filter Fl.isFinite)).bits fp64)

/-- Carried masses added one at a time, each addition rounding to FP64 (07 R244). -/
def carryIn (m : BitVec 64) (cs : List (BitVec 64)) : BitVec 64 :=
  cs.foldl (fun m c => BitVec.ofNat 64 ((Fl.add (Fl.ofBits fp64 m.toNat) (Fl.ofBits fp64 c.toNat)).bits fp64)) m

/-- What a cast gives. -/
structure CastResult where
  chosen  : List Entry
  report  : Report
  distinct : Nat          -- distinct keys offered, for 07 R243
  read    : Nat           -- entries read
  deriving DecidableEq, Repr

/-- Entries of the input whose block of 32 could be read (07 R247). -/
def readable (lost : List Nat) (xs : List (Nat × Entry)) : List (Nat × Entry) :=
  (xs.zipIdx.filter fun e => !lost.contains (e.2 / 32)).map fun e => e.1

/-- A selection (07 R237 to R247). -/
def castOf (k : Nat) (higher dedup : Bool) (lists : List CastList) (lost : List Nat) : CastResult :=
  let all := (lists.zipIdx.map fun l => l.1.entries.map fun e => (l.2, e)).flatten
  let xs := readable lost all
  let kept := if dedup then dedupe higher xs else xs
  let cands := (kept.map fun x => x.2).filter fun e => !isNaN32 e.score
  let sorted := sortBest higher cands
  let sel := sorted.take k
  let rest := sorted.drop k
  let carried := lists.filterMap fun l => l.carried
  let last := sel.getLast?
  let boundary := last.map (castKey higher)
  let tie (e : Entry) : Bool := some (castKey higher e) == boundary
  let partial_ := !rest.isEmpty
  { chosen := sel, read := all.length, distinct := (dedupe higher xs).length,
    report :=
      { boundaryFull := (last.map fun e => e.full).getD false, carried := !carried.isEmpty, multipass := 1024 < sel.length,
        higher := higher, rounds := max 1 (ceilDiv sel.length 1024), threshold := (last.map fun e => e.score).getD 0,
        selectedMass := massOf sel, leftOutMass := carryIn (massOf rest) carried, candidates := cands.length,
        selected := sel.length, duplicates := xs.length - kept.length, nanDropped := kept.length - cands.length,
        nonFinite := (cands.filter fun e => !(f32 e.score).isFinite).length, lost := all.length - xs.length,
        ties := if partial_ then (cands.filter tie).length else 0,
        taken := if partial_ then (sel.filter tie).length else 0 } }

/-- The 64 bytes of a selection report (07 R246). -/
def Report.bytes (r : Report) : List Byte :=
  natLE 1 0x10 ++
  natLE 1 (boolNat r.boundaryFull + 2 * boolNat r.carried + 4 * boolNat r.multipass + 8 * boolNat r.higher) ++
  natLE 2 r.rounds ++ natLE 4 r.threshold.toNat ++ natLE 8 r.selectedMass.toNat ++ natLE 8 r.leftOutMass.toNat ++
  natLE 4 r.candidates ++ natLE 4 r.selected ++ natLE 4 r.duplicates ++ natLE 4 r.nanDropped ++ natLE 4 r.nonFinite ++
  natLE 4 r.lost ++ natLE 4 r.ties ++ natLE 4 r.taken ++ zeroBytes 8

/-- Run `f` where `c` holds. -/
def State.when (s : State) (c : Bool) (f : State → State) : State := if c then f s else s

/-- CST runs a selection: its counters, status bits and fault (07 R247, R252 to R254). -/
def State.cast (s : State) (k : Nat) (higher dedup : Bool) (lists : List CastList) (lost : List Nat) : State × CastResult :=
  let r := castOf k higher dedup lists lost
  let p := r.report
  let s := (s.bump64 pgCst 0x050).bump64 pgCst 0x058 r.read
  let s := ((s.bump pgCst 0x060 p.duplicates).bump pgCst 0x064 p.nanDropped).bump pgCst 0x06C p.lost
  let s := s.when (0 < p.nanDropped) (·.sticky pgCst 0x044 2)
  let s := s.when (p.taken < p.ties) (·.bump pgCst 0x068)
  let s := s.when p.multipass (·.bump pgCst 0x070)
  let s := s.when (dedup && (!bitOf (s.reg pgCst 0x040) 0 || 16384 < r.distinct)) (·.bump pgCst 0x074)
  let s := s.when (0 < p.lost) fun s => (s.sticky pgCst 0x044 4).sendFault pgCst .castInputLost
  (s, r)

/-! ### Unique values and the index of the maximum (R248, R249) -/

/-- Distinct values in ascending order with their counts. -/
def uniqueCounts (vs : List Nat) : List (Nat × Nat) :=
  vs.foldl (fun (t : Table Nat) v => t.set v (t.getD v 0 + 1)) []

/-- One entry per distinct pair of bag and value, by bag and then by value, the weights summed exactly and rounded once. -/
def uniqueSums (vs : List Nat) (bags : List (Nat × Word)) : List (Nat × Nat × Word) :=
  let rows := bags.zip vs
  let t := rows.foldl (fun (t : Table (List Fl)) r =>
    let key := r.1.1 * 2 ^ 64 + r.2
    t.set key (t.getD key [] ++ [f32 r.1.2])) []
  t.map fun e => (e.1 / 2 ^ 64, e.1 % 2 ^ 64, toF32 (Fl.sum e.2))

/-- UNIQUE_WITH_COUNTS (R248): CST serves the request that a gather sent. -/
def uniqueWithCounts (request : Nat) (s : State) : State :=
  match s.cst.uniques.find? request with
  | none => s
  | some u =>
    if u.served then s
    else
      let u := { u with counts := uniqueCounts u.values, sums := uniqueSums u.values u.bags, served := true }
      (({ s with cst := { s.cst with uniques := s.cst.uniques.set request u } }).bump pgCst 0x078).bump64 pgCst 0x058 u.values.length

def execUniqueWithCounts (t request : Nat) (s : State) : Host.Outcome State Fault Refusal :=
  done ((s.at t).onlyIf (s.live && s.accepts pgCst) (uniqueWithCounts request))

/-- The index and value of the best of a list; 0xFFFF_FFFF and a NaN where every value is NaN (R249; log entry 12). -/
def indexOfMax (higher : Bool) (vs : List Word) : Nat × Word :=
  (vs.zipIdx.foldl (fun (best : Option (Nat × Word)) v =>
    if isNaN32 v.1 then best
    else match best with
      | none => some (v.2, v.1)
      | some b => if orderedScore higher b.2 < orderedScore higher v.1 then some (v.2, v.1) else best) none).getD (0xFFFFFFFF, 0x7FC00000#32)

/-- INDEX_OF_MAXIMUM (R249): a request of up to 16,777,216 values that GTH or ENC sends, as the operand (log entry 4). -/
def execIndexOfMaximum (t : Nat) (values : List Word) (higher : Bool) (s : State) : Host.Outcome State Fault Refusal :=
  done ((s.at t).onlyIf (s.live && s.accepts pgCst && decide (values.length ≤ 16777216)) fun s =>
    (({ s with cst := { s.cst with index := some (indexOfMax higher values) } }).bump pgCst 0x07C).bump64 pgCst 0x058 values.length)

end Sys2Proof.Machine
end

