-- ==== Sys2Proof/Machine/UnitMath.lean ====
section
/-!
DEFINITION. The arithmetic of Near-Bank Units (06 R193 to R195), of a walker pass (R205, R208) and of the re-score unit
(04 R142, R143).
-/

namespace Sys2Proof.Machine

/-- An accumulator with its S bit: an integer in int16 format, an `fp40` value in FP16 format (06 R191, R193). -/
structure Accum where
  val : Fl := Fl.zero
  sat : Bool := false
  deriving DecidableEq, Repr

/-- The integer a value stands for, where it is one. -/
def Fl.toInt : Fl → Int
  | .fin s m e => let v : Int := if 0 ≤ e then m * 2 ^ e.toNat else (m / 2 ^ (-e).toNat : Nat)
                  if s then -v else v
  | _ => 0

/-- One element of a 16-bit format: FP16, or int16. -/
def elem16 (fp : Bool) (b : Nat) : Fl := if fp then Fl.ofBits fp16 b else Fl.ofInt (signedOf 16 b)

/-- One exact term: q·v, or (q − v)² (06 R193). -/
def macTerm (l2 : Bool) (q v : Fl) : Fl := if l2 then let d := q.sub v; d.mul d else q.mul v

/-- A sum added to an accumulator: held at the ends of 40 bits in int16 format, rounded once in FP16 format (06 R193). -/
def Accum.add (fp : Bool) (a : Accum) (x : Fl) : Accum :=
  if fp then
    let v := (a.val.add x).round fp40
    { val := v, sat := a.sat || v.isNaN }
  else
    let i := a.val.toInt + x.toInt
    if 2 ^ 39 ≤ i then { val := .ofInt (2 ^ 39 - 1), sat := true }
    else if i < -2 ^ 39 then { val := .ofInt (-2 ^ 39), sat := true }
    else { a with val := .ofInt i }

/-- MAC over pairs of elements, sixteen a cycle, in ascending order (06 R193, R194). -/
def Accum.mac (fp l2 : Bool) : Nat → Accum → List (Fl × Fl) → Accum
  | 0, a, _ => a
  | n + 1, a, ps =>
    match ps with
    | [] => a
    | _ => Accum.mac fp l2 n (a.add fp (Fl.sum ((ps.take 16).map fun p => macTerm l2 p.1 p.2))) (ps.drop 16)

/-- The emitted score (06 R195). -/
def Accum.score (a : Accum) : Word := toF32 a.val

/-- The accumulator after the MAC of a walker pass for one query and one vector (06 R205). -/
def passAccum (metric navFormat : Nat) (q v : List Nat) : Accum :=
  let fp := navFormat == 0
  let ps := (q.map (elem16 fp)).zip (v.map (elem16 fp))
  Accum.mac fp (metric == 2) ps.length {} ps

/-! ### Full vectors (04 R142, R143) -/

/-- Element `i` of a full vector (04 R143). -/
def fullElem (fmt dim : Nat) (bs : List Byte) (i : Nat) : Fl :=
  if fmt = 4 then Fl.ofBits fp16 (fieldAt bs (2 * i) 2)
  else
    let g := if fmt = 1 then 32 else if fmt = 2 then 64 else 128
    let d := bitsOf (fieldAt bs (i / 2) 1) (4 * (i % 2) + 3) (4 * (i % 2))
    (Fl.ofInt (signedOf 4 d)).mul (Fl.ofBits fp16 (fieldAt bs ((dim + 1) / 2 + 2 * (i / g)) 2))

/-- Chunks of 256 terms, each summed exactly and added to an FP32 accumulator with one rounding (04 R142). -/
def chunkSum : Nat → Fl → List Fl → Fl
  | 0, a, _ => a
  | n + 1, a, ts => match ts with
    | [] => a
    | _ => chunkSum n ((a.add (Fl.sum (ts.take 256))).round fp32) (ts.drop 256)

/-- The full score (04 R142). -/
def fullScore (metric fmt dim : Nat) (q : List Nat) (bs : List Byte) : Word :=
  let ts := (q.take dim).zipIdx.map fun e => macTerm (metric == 2) (Fl.ofBits fp16 e.1) (fullElem fmt dim bs e.2)
  toF32 (chunkSum ts.length Fl.zero ts)

end Sys2Proof.Machine
end

