-- ==== Sys2Proof/Machine/Encoder.lean ====
section
/-!
DEFINITION. The encoder's arithmetic: Score images, element formats, quantising with delayed scaling, array layers, outlier
lanes, operators, and chunk contributions (08 R255 to R292; 09 R302 to R307).
-/

namespace Sys2Proof.Machine

/-! ### The image (09 R302 to R307) -/

def hdrFlags (im : List Byte) : Nat := fieldAt im 6 2
def imgOps (im : List Byte) : Nat := fieldAt im 24 2
def imgLayers (im : List Byte) : Nat := fieldAt im 26 2
def imgTiles (im : List Byte) : Nat := fieldAt im 28 4
def imgStateBytes (im : List Byte) : Nat := fieldAt im 56 4
def imgInput (im : List Byte) : Nat := fieldAt im 60 2
def imgNavDim (im : List Byte) : Nat := fieldAt im 62 2
def imgNavFormat (im : List Byte) : Nat := fieldAt im 64 1
def imgMaxClusters (im : List Byte) : Nat := fieldAt im 65 1
def imgChunkable (im : List Byte) : Bool := bitOf (hdrFlags im) 0
def imgHasProject (im : List Byte) : Bool := bitOf (hdrFlags im) 1

/-- One operator record (09 R303). -/
structure OpRec where
  op     : Nat
  sub    : Nat
  first  : Nat
  layers : Nat
  inBuf  : Nat
  in2    : Nat
  out    : Nat
  wide   : Bool
  width  : Nat
  p1     : Nat
  p2     : Nat
  p3     : Nat
  eps    : Word
  paramBytes : Nat
  paramOff   : Nat
  deriving DecidableEq, Repr

def opAt (im : List Byte) (i : Nat) : OpRec :=
  let o := fieldAt im 72 8 + 32 * i
  { op := fieldAt im o 1, sub := fieldAt im (o + 1) 1, first := fieldAt im (o + 2) 2, layers := fieldAt im (o + 4) 1,
    inBuf := bitsOf (fieldAt im (o + 5) 1) 2 0, in2 := bitsOf (fieldAt im (o + 6) 1) 2 0, out := bitsOf (fieldAt im (o + 7) 1) 2 0,
    wide := bitOf (fieldAt im (o + 7) 1) 3, width := fieldAt im (o + 8) 2, p1 := fieldAt im (o + 10) 2, p2 := fieldAt im (o + 12) 2,
    p3 := fieldAt im (o + 14) 2, eps := BitVec.ofNat 32 (fieldAt im (o + 16) 4), paramBytes := fieldAt im (o + 20) 4,
    paramOff := fieldAt im (o + 24) 8 }

def imgOpList (im : List Byte) : List OpRec := (List.range (imgOps im)).map (opAt im)

/-- One layer record (09 R304). -/
structure LayerRec where
  mode   : Nat
  wF4    : Bool
  aFloat : Bool
  group  : Nat
  freeze : Bool
  k      : Nat
  n      : Nat
  tile0  : Nat
  tiles  : Nat
  outTile0 : Nat
  outTiles : Nat
  lanes  : Nat
  exp0   : Nat
  outExp0 : Nat
  slices : Nat
  clip   : Word
  outScale : Word
  map0   : Nat
  deriving DecidableEq, Repr

def layerAt (im : List Byte) (i : Nat) : LayerRec :=
  let o := fieldAt im 80 8 + 48 * i
  let f := fieldAt im (o + 1) 1
  { mode := fieldAt im o 1, wF4 := bitsOf f 1 0 == 1, aFloat := bitsOf f 3 2 == 1, group := 32 * 2 ^ (fieldAt im (o + 2) 1),
    freeze := bitOf (fieldAt im (o + 3) 1) 0, k := fieldAt im (o + 4) 2, n := fieldAt im (o + 6) 2, tile0 := fieldAt im (o + 8) 4,
    tiles := fieldAt im (o + 12) 4, outTile0 := fieldAt im (o + 16) 4, outTiles := fieldAt im (o + 20) 2, lanes := fieldAt im (o + 22) 2,
    exp0 := fieldAt im (o + 24) 1, outExp0 := fieldAt im (o + 25) 1, slices := fieldAt im (o + 26) 2,
    clip := BitVec.ofNat 32 (fieldAt im (o + 28) 4), outScale := BitVec.ofNat 32 (fieldAt im (o + 32) 4), map0 := fieldAt im (o + 36) 4 }

/-- Reduction span, data size and weight bits of a tile (08 R261). -/
def LayerRec.span (l : LayerRec) : Nat := if l.mode = 1 || l.mode = 2 then 256 else 128
def LayerRec.dataSize (l : LayerRec) : Nat := if l.mode = 4 then 16384 else 8192
def LayerRec.wBits (l : LayerRec) : Nat := if l.mode = 4 then 8 else if l.mode = 1 || l.mode = 2 then 2 else 4

/-- Bytes of a main tile (08 R263). -/
def LayerRec.tileBytes (l : LayerRec) : Nat := l.dataSize + 256 * (l.span / l.group)

/-- Image offset, size and CRC-32C of a tile (09 R305). -/
def tileDesc (im : List Byte) (t : Nat) : Nat × Nat × Nat :=
  let o := fieldAt im 88 8 + 16 * t
  (fieldAt im o 8, fieldAt im (o + 8) 4, fieldAt im (o + 12) 4)

/-- Marked input channels of a layer (09 R306). -/
def laneMap (im : List Byte) (l : LayerRec) : List Nat :=
  (List.range l.lanes).map fun j => fieldAt im (fieldAt im 96 8 + 2 * (l.map0 + j)) 2

def isPinned (im : List Byte) (i : Nat) : Bool := bitOf (fieldAt im (fieldAt im 104 8 + 8 * i) 1) 0

/-- Columns of each slice: as equal as possible, the earlier ones taking the remainder (09 R305). -/
def sliceCols (cols slices : Nat) : List (List Nat) :=
  (List.range slices).map fun i =>
    let base := cols / max 1 slices
    let extra := cols % max 1 slices
    List.range' (i * base + min i extra) (base + if i < extra then 1 else 0)

/-- Tiles of an output column: the main ones, then the outlier ones (09 R305). -/
def LayerRec.columnTiles (l : LayerRec) (c : Nat) : List Nat :=
  let per := l.k / l.span
  let outPer := ceilDiv l.lanes 128
  List.range' (l.tile0 + c * per) per ++ (if l.lanes = 0 then [] else List.range' (l.outTile0 + c * outPer) outPer)

/-- The slices of one layer, as tiles in descriptor order. -/
def LayerRec.sliceTiles (l : LayerRec) : List (List Nat) :=
  (sliceCols (l.n / 128) l.slices).map fun cols =>
    let ts := cols.map l.columnTiles
    let per := l.k / l.span
    (ts.flatMap fun t => t.take per) ++ ts.flatMap fun t => t.drop per

/-- The slices that stream for a batch (09 R315). -/
def imgSlices (im : List Byte) : List (List Nat) :=
  (List.range (imgLayers im)).flatMap fun i => if isPinned im i then [] else (layerAt im i).sliceTiles

/-! ### Element formats (08 R258 to R260) -/

/-- d of an F4 code. -/
def f4d (b : Nat) : Int :=
  let m := b % 2
  let e := bitsOf b 2 1
  let v : Nat := if e = 0 then m else (2 + m) * 2 ^ (e - 1)
  if bitOf b 3 then -(v : Int) else v

/-- d of a weight code (R258, R260). -/
def LayerRec.wd (l : LayerRec) (b : Nat) : Int :=
  if l.mode = 4 then signedOf 8 b
  else if l.mode = 1 then signedOf 2 b
  else if l.mode = 2 then (if b = 1 then 1 else if b = 3 then -1 else 0)
  else if l.wF4 then f4d b else signedOf 4 b

/-- The code of reduction row `k` and output `n` of a tile's data (R263). -/
def wCode (bits : Nat) (tile : List Byte) (k n : Nat) : Nat :=
  let at_ := (k * 128 + n) * bits
  bitsOf (fieldAt tile (at_ / 8) 1) (at_ % 8 + bits - 1) (at_ % 8)

/-- Counts of one event or one step (R277). -/
structure Counts where
  clip   : Nat := 0
  under  : Nat := 0
  sat    : Nat := 0
  hit    : Nat := 0
  nonfin : Nat := 0
  deriving DecidableEq, Repr

def Counts.add (a b : Counts) : Counts :=
  { clip := a.clip + b.clip, under := a.under + b.under, sat := a.sat + b.sat, hit := a.hit + b.hit, nonfin := a.nonfin + b.nonfin }

/-- The path counts in the order of the Sillage record, each saturating at 65,535 (R277, R278). -/
def Counts.path (c : Counts) : List Nat := [c.clip, c.under, c.sat, c.hit, c.nonfin].map (min 65535)

/-! ### Quantising (08 R268 to R270, R276, R279) -/

/-- An activation format: Fmax, and how a value rounds to d. -/
inductive ActFmt where
  | a4i | f4 | a8i | f8
  deriving DecidableEq, Repr

def ActFmt.fmax : ActFmt → Nat
  | .a4i => 7 | .f4 => 6 | .a8i => 127 | .f8 => 448

/-- log2 of 1 / q_a (R260). -/
def ActFmt.qShift : ActFmt → Nat
  | .f4 => 1 | .f8 => 3 | _ => 0

def LayerRec.act (l : LayerRec) : ActFmt :=
  if l.mode = 4 then .a8i else if l.mode = 3 then (if l.aFloat then .f8 else .a8i) else if l.aFloat then .f4 else .a4i

/-- A value rounded to `p` significant bits, with quantum 2^qmin at the least, ties to even. -/
def Fl.roundTo (p : Nat) (qmin : Int) : Fl → Fl
  | .fin s m e =>
    if m = 0 then .fin s 0 0
    else
      let q := max (e + (Nat.log2 m + 1 : Nat) - p) qmin
      .fin s (if q ≤ e then m * 2 ^ (e - q).toNat else Fl.roundShift m (q - e).toNat) q
  | x => x

/-- The value in the target format, before R260 (R269). -/
def ActFmt.round (f : ActFmt) (x : Fl) : Fl :=
  match f with
  | .a4i | .a8i => .ofInt (Fl.divRound x (.ofInt 1))
  | .f4 => x.roundTo 2 (-1)
  | .f8 => x.roundTo 4 (-9)

/-- d of a value in the target format (R260). -/
def ActFmt.d (f : ActFmt) (x : Fl) : Int := Fl.divRound (x.mul (.fin false 1 f.qShift)) (.ofInt 1)

def pow2 (e : Int) : Fl := .fin false 1 e

/-- The group exponent (R268). -/
def groupExp (fmax eL : Nat) (amax : Fl) : Nat :=
  let fits (s : Nat) : Bool := Fl.le amax ((Fl.ofInt fmax).mul (pow2 ((eL : Int) - 127 - s)))
  let most := min 7 (eL - 1)
  eL - (((List.range (most + 1)).reverse.find? fits).getD 0)

/-- One quantised element: d, and what it counts (R269, R276, R279). -/
structure QElem where
  d   : Int := 0
  cnt : Counts := {}
  deriving DecidableEq, Repr

def quantElem (f : ActFmt) (eg : Nat) (watch : Bool) (x : Fl) : QElem :=
  match x with
  | .nan => { cnt := { nonfin := 1 } }
  | .inf s => { d := f.d (.ofInt (if s then -(f.fmax : Int) else f.fmax)), cnt := { clip := 1, nonfin := 1, hit := boolNat watch } }
  | x =>
    let y := x.mul (pow2 (127 - (eg : Int)))
    let hit := boolNat (watch && Fl.lt (.ofInt (4 * f.fmax)) y.abs)
    if Fl.lt (.ofInt f.fmax) y.abs then
      { d := f.d (.ofInt (if Fl.lt y Fl.zero then -(f.fmax : Int) else f.fmax)), cnt := { clip := 1, hit := hit } }
    else
      let v := f.round y
      let d := f.d v
      let isZero (z : Fl) : Bool := Fl.le z Fl.zero && Fl.le Fl.zero z
      { d := d, cnt := { under := boolNat (!isZero x && d == 0), hit := hit } }

/-- The largest magnitude of a group, a NaN reading as 0. -/
def groupMax (xs : List Fl) : Fl := xs.foldl (fun m x => if Fl.lt m x.abs then x.abs else m) Fl.zero

/-- One quantised group: its exponent and elements. -/
structure QGroup where
  eg  : Nat
  els : List QElem
  amax : Fl
  deriving DecidableEq, Repr

def quantGroup (f : ActFmt) (eL : Nat) (watch : Bool) (xs : List Fl) : QGroup :=
  let m := groupMax xs
  let eg := groupExp f.fmax eL m
  { eg := eg, els := xs.map (quantElem f eg watch), amax := m }

/-- A list cut into runs of `n`. -/
def runsOf {α : Type} (n : Nat) : Nat → List α → List (List α)
  | 0, _ => []
  | fuel + 1, xs => if xs.isEmpty then [] else xs.take (max 1 n) :: runsOf n fuel (xs.drop (max 1 n))

/-! ### Array layers (08 R265 to R267, R275) -/

/-- One rescale: acc ← fma(P, s_w × 2^(E_g − 127) × q_w × q_a, acc) (R265). -/
def rescale (p : Int) (sw : Fl) (eg qs : Nat) (acc : Fl) : Fl :=
  (acc.add (((Fl.ofInt p).mul sw).mul (pow2 ((eg : Int) - 127 - qs)))).round fp32

/-- The groups of one tile, in ascending order, for one output (R265, R266). -/
def tileOut (wd : Nat → Int) (bits dataSize group qs : Nat) (tile : List Byte) (gs : List QGroup) (n : Nat) (acc : Fl) : Fl :=
  gs.zipIdx.foldl (fun acc e =>
    let p := (e.1.els.zipIdx.map fun x => x.1.d * wd (wCode bits tile (e.2 * group + x.2) n)).sum
    rescale p (Fl.ofBits fp16 (fieldAt tile (dataSize + 2 * (128 * e.2 + n)) 2)) e.1.eg qs acc) acc

def tileBytesOf (im : List Byte) (t : Nat) : List Byte := let d := tileDesc im t; bytesAt im d.1 d.2.1

/-- One layer's outputs for one event: FP32 accumulators (R265, R266, R275). -/
def layerOut (im : List Byte) (l : LayerRec) (main out : List QGroup) : List Fl :=
  let per := l.k / l.span
  let gPer := l.span / l.group
  let outPer := ceilDiv l.lanes 128
  let qs := l.act.qShift + boolNat (l.wF4 && (l.mode == 0 || l.mode == 3))
  (List.range l.n).map fun n =>
    let c := n / 128
    let acc := (List.range per).foldl (fun acc t =>
      tileOut l.wd l.wBits l.dataSize l.group qs (tileBytesOf im (l.tile0 + c * per + t)) ((main.drop (t * gPer)).take gPer) (n % 128) acc) Fl.zero
    (List.range outPer).foldl (fun acc t =>
      tileOut (signedOf 8 ·) 8 16384 128 0 (tileBytesOf im (l.outTile0 + c * outPer + t)) ((out.drop t).take 1) (n % 128) acc) acc

/-! ### Results (08 R267, R279, R280) -/

def fmtOf (wide : Bool) : Fmt := if wide then fp32 else fp16

/-- The largest finite value of a format. -/
def maxFinite (wide : Bool) : Fl := Fl.ofBits (fmtOf wide) (if wide then 0x7F7FFFFF else 0x7BFF)

def signedMax (wide neg : Bool) : Fl := if neg then (maxFinite wide).neg else maxFinite wide

/-- An array output as it is written (R267). -/
def arrOut (wide : Bool) (x : Fl) : Fl × Counts :=
  match x with
  | .nan => (Fl.zero, { nonfin := 1 })
  | .inf s => (signedMax wide s, { sat := 1 })
  | x => if Fl.lt (maxFinite wide) x.abs then (signedMax wide (Fl.lt x Fl.zero), { sat := 1 }) else (x.round (fmtOf wide), {})

/-- A vector-unit result as it is written (R279, R280). -/
def vecOut (wide : Bool) (x : Fl) : Fl × Counts :=
  match x with
  | .nan => (Fl.zero, { nonfin := 1 })
  | .inf s => (signedMax wide s, { nonfin := 1 })
  | x => if Fl.lt (maxFinite wide) x.abs then (signedMax wide (Fl.lt x Fl.zero), { sat := 1 }) else (x.round (fmtOf wide), {})

/-- Write a list of results, summing what they count. -/
def writeAll (f : Fl → Fl × Counts) (xs : List Fl) : List Fl × Counts :=
  let ys := xs.map f
  (ys.map fun y => y.1, ys.foldl (fun c y => c.add y.2) {})

/-- An elementary function in FP32 of its FP16 result (R280). -/
def vfn (code : Nat) (x : Fl) : Fl := Fl.ofBits fp16 (Config.vectorFn code (toF32 x)).toNat

/-! ### Delayed scaling (08 R271, R272) -/

/-- What one step of a scale record saw. -/
structure StepStat where
  cnt   : Counts := {}
  total : Nat := 0
  amax  : Fl := Fl.zero
  deriving DecidableEq, Repr

/-- The least raise of R272 that brings amax within Fmax, stopping at 254. -/
def raiseBy (fmax eL : Nat) (amax : Fl) : Nat :=
  ((List.range' 1 (254 - eL)).find? fun (j : Nat) => Fl.le amax ((Fl.ofInt fmax).mul (pow2 ((eL : Int) - 127 + j)))).getD (254 - eL)

/-- The end of a step (R272, R274, R277). -/
def ScaleRec.stepEnd (r : ScaleRec) (adapt : Bool) (fmax : Nat) (threshold : Word) (st : StepStat) : ScaleRec :=
  let sat32 (n : Nat) : Nat := min 0xFFFFFFFF n
  let hist := (r.hist ++ [toF32 st.amax]).drop (r.hist.length + 1 - 16)
  let r := { r with hist := hist, clips := (r.clips + st.cnt.clip) % 2 ^ 64, under := sat32 (r.under + st.cnt.under),
                    hits := sat32 (r.hits + st.cnt.hit), nonfin := sat32 (r.nonfin + st.cnt.nonfin) }
  if !adapt then r
  else if Fl.lt ((f32 threshold).mul (.ofInt st.total)) (.ofInt st.cnt.clip) then
    let up := raiseBy fmax r.eL st.amax
    if up = 0 then r else { r with eL := r.eL + up, raises := min 0xFFFF (r.raises + 1) }
  else if hist.length = 16 && hist.all fun a => Fl.le (f32 a) ((Fl.ofInt fmax).mul (pow2 ((r.eL : Int) - 129))) then
    if r.eL ≤ 1 then { r with hist := [] } else { r with eL := r.eL - 1, hist := [], falls := min 0xFFFF (r.falls + 1) }
  else r

/-! ### Operators over a batch (08 R282 to R285, R290) -/

/-- One event within a batch. -/
structure EncEv where
  ev    : EncEvent
  reset : Bool := false                -- folds from zero state (R296)
  bufs  : Table (List Fl) := []
  cnt   : Counts := {}
  dsum  : Fl := Fl.zero                -- summed squared change of the recurrent states (R292)
  emb   : List Fl := []                -- the embedding before projection (04 R116)
  nav   : List Nat := []               -- the projected vector's elements
  out   : List Byte := []              -- output of the last operator (15 R504)
  deriving DecidableEq, Repr

/-- A batch as its operators run. -/
structure EncRun where
  scales : Table ScaleRec
  seqs   : Table SeqRec
  evs    : List EncEv
  adapt  : Bool
  deriving DecidableEq, Repr

def EncEv.buf (e : EncEv) (b : Nat) : List Fl := e.bufs.getD b []

def EncEv.put (e : EncEv) (b : Nat) (xs : List Fl) (c : Counts) : EncEv := { e with bufs := e.bufs.set b xs, cnt := e.cnt.add c }

def listPut {α : Type} (xs : List α) (i : Nat) (x d : α) : List α := (xs ++ List.replicate (i + 1 - xs.length) d).set i x

/-- One array layer over every event of the batch: a step of its scale records (R268 to R276). -/
def EncRun.layer (r : EncRun) (im : List Byte) (i : Nat) (wide : Bool) (inp : List (List Fl)) : EncRun × List (List Fl) :=
  let l := layerAt im i
  let lanes := laneMap im l
  let main := r.scales.getD (2 * i) { eL := l.exp0 }
  let outR := r.scales.getD (2 * i + 1) { eL := l.outExp0 }
  let qs := inp.map fun x =>
    let x := (List.range l.k).map fun j => x.getD j Fl.zero
    let own := x.zipIdx.map fun e => if lanes.contains e.2 then Fl.zero else e.1
    let marked := lanes.map fun j => x.getD j Fl.zero
    ((runsOf l.group l.k own).map (quantGroup l.act main.eL true), (runsOf 128 l.k marked).map (quantGroup .a8i outR.eL false))
  let cntOf (gs : List QGroup) : Counts := gs.foldl (fun c g => g.els.foldl (fun c x => c.add x.cnt) c) {}
  let statOf (gs : List QGroup) : StepStat :=
    { cnt := cntOf gs, total := (gs.map fun g => g.els.length).sum, amax := groupMax (gs.map fun g => g.amax) }
  let sm := statOf (qs.flatMap fun q => q.1)
  let so := statOf (qs.flatMap fun q => q.2)
  let adapt := r.adapt && !l.freeze
  let ys := qs.map fun q => writeAll (arrOut wide) (layerOut im l q.1 q.2)
  let sats := (ys.map fun y => y.2.sat).sum
  let nf := (ys.map fun y => y.2.nonfin).sum
  let hitChan := (qs.flatMap fun q => (q.1.flatMap fun g => g.els).zipIdx.filterMap fun x => if 0 < x.1.cnt.hit then some x.2 else none).getLast?
  let main := main.stepEnd adapt l.act.fmax l.clip sm
  let main := { main with clips := (main.clips + so.cnt.clip) % 2 ^ 64, under := min 0xFFFFFFFF (main.under + so.cnt.under),
                          nonfin := min 0xFFFFFFFF (main.nonfin + so.cnt.nonfin + nf), sat := min 0xFFFFFFFF (main.sat + sats),
                          lastHit := hitChan.getD main.lastHit }
  let scales := r.scales.set (2 * i) main
  let scales := if l.lanes = 0 then scales else scales.set (2 * i + 1) (outR.stepEnd adapt 127 l.clip so)
  let evs := (r.evs.zip (qs.zip ys)).map fun e =>
    { e.1 with cnt := ((e.1.cnt.add (cntOf e.2.1.1)).add (cntOf e.2.1.2)).add e.2.2.2 }
  ({ r with scales := scales, evs := evs }, ys.map fun y => y.1)

/-- Give each event its new buffer. -/
def EncRun.put (r : EncRun) (b : Nat) (outs : List (List Fl × Counts)) : EncRun :=
  { r with evs := (r.evs.zip outs).map fun e => e.1.put b e.2.1 e.2.2 }

/-- FP32 parameter `j` of an operator's block. -/
def param (im : List Byte) (o : OpRec) (j : Nat) : Fl := f32 (BitVec.ofNat 32 (fieldAt im (o.paramOff + 4 * j) 4))

def r32 (x : Fl) : Fl := x.round fp32

/-- One channel of GLR for one event: its new states and its output (R283). -/
def glrChannel (im : List Byte) (o : OpRec) (c : Nat) (h : List Fl) (x u z : Fl) (b cc : List Fl) : List Fl × Fl :=
  let delta := vfn 2 u
  let hs := (List.range o.p2).map fun j =>
    let a := vfn 0 (r32 (delta.mul (param im o (c * o.p2 + j)))).neg
    r32 ((a.mul (h.getD j Fl.zero)).add (r32 ((r32 (delta.mul (b.getD j Fl.zero))).mul x)))
  let sum := (hs.zip cc).foldl (fun a p => r32 (a.add (p.2.mul p.1))) Fl.zero
  (hs, r32 ((r32 (sum.add ((param im o (o.p1 * o.p2 + c)).mul x))).mul (vfn 3 z)))

/-- GLR scans the events one after another (R283, R292). `g` is its place among the Score's GLR operators. -/
def EncRun.glr (r : EncRun) (im : List Byte) (o : OpRec) (g : Nat) (xs us zs bs cs : List (List Fl)) : EncRun :=
  let wideState := o.sub == 0
  let rows := r.evs.zip (xs.zip (us.zip (zs.zip (bs.zip cs))))
  let res := rows.foldl (fun (a : Table SeqRec × List EncEv) row =>
    let (e, x, u, z, b, c) := row
    let rec_ := a.1.getD e.ev.seq {}
    let h := if e.reset then [] else (rec_.glr.getD g []).map f32
    let outs := (List.range o.p1).map fun ch =>
      glrChannel im o ch ((h.drop (ch * o.p2)).take o.p2) (x.getD ch Fl.zero) (u.getD ch Fl.zero) (z.getD ch Fl.zero) b c
    let (hs, hc) := writeAll (vecOut wideState) (outs.flatMap fun y => y.1)
    let (ys, yc) := writeAll (vecOut o.wide) (outs.map fun y => y.2)
    let change := hs.zipIdx.foldl (fun s y => let d := r32 (y.1.sub (h.getD y.2 Fl.zero)); r32 (s.add (d.mul d))) e.dsum
    let e := { e.put o.out ys (hc.add yc) with dsum := change }
    (a.1.set e.ev.seq { rec_ with glr := listPut rec_.glr g (hs.map toF32) [] }, a.2 ++ [e])) (r.seqs, [])
  { r with seqs := res.1, evs := res.2 }

/-- WATTN attends to the last events of the sequence (R284). `w` is its place among the Score's WATTN operators. Answers what
goes into its output layer. -/
def EncRun.attn (r : EncRun) (o : OpRec) (w : Nat) (qs ks vs : List (List Fl)) : EncRun × List (List Fl) :=
  let size := 2 ^ o.p1
  let res := (r.evs.zip (qs.zip (ks.zip vs))).foldl (fun (a : Table SeqRec × List (List Fl)) row =>
    let (e, q, k, v) := row
    let rec_ := a.1.getD e.ev.seq {}
    let cache := (if e.reset then [] else rec_.caches.getD w []) ++ [(k.map toF32, v.map toF32)]
    let y := Config.attend o.p2 o.p3 (q.map toF32) (cache.map fun x => x.1) (cache.map fun x => x.2)
    let keep := cache.drop (cache.length - (size - 1))
    (a.1.set e.ev.seq { rec_ with caches := listPut rec_.caches w keep [] },
     a.2 ++ [(List.range (o.p2 * o.p3)).map fun i => f32 (y.getD i 0)])) (r.seqs, [])
  ({ r with seqs := res.1 }, res.2)

/-- One int16 element of PROJECT (R285). -/
def projInt (scale x : Fl) : Int × Counts :=
  let y := r32 (x.mul scale)
  if !y.isFinite then (if y.isNaN then 0 else if Fl.lt y Fl.zero then -32768 else 32767, { nonfin := 1 })
  else
    let i := Fl.divRound y (.ofInt 1)
    if 32767 < i then (32767, { sat := 1 }) else if i < -32768 then (-32768, { sat := 1 }) else (i, {})

/-- Output bytes of a buffer in its operator's format (15 R504). -/
def bufBytes (wide : Bool) (xs : List Fl) : List Byte := xs.flatMap fun x => if wide then natLE 4 (x.bits fp32) else natLE 2 (x.bits fp16)

/-- Run one operator over the batch. `g` and `w` count the GLR and WATTN operators before it. -/
def EncRun.op (r : EncRun) (im : List Byte) (o : OpRec) (g w : Nat) : EncRun :=
  let inp := r.evs.map fun e => e.buf o.inBuf
  let inner := Config.innerFp32
  let noCnt (xs : List (List Fl)) : List (List Fl × Counts) := xs.map fun x => (x, {})
  let vec (f : EncEv → List Fl) : EncRun := r.put o.out (r.evs.map fun e => writeAll (vecOut o.wide) (f e))
  match o.op with
  | 1 => let (r, ys) := r.layer im o.first o.wide inp; r.put o.out (noCnt ys)
  | 2 =>
    let (r, xs) := r.layer im o.first inner inp
    let (r, us) := r.layer im (o.first + 1) inner inp
    let (r, zs) := r.layer im (o.first + 2) inner inp
    let (r, bs) := r.layer im (o.first + 3) inner inp
    let (r, cs) := r.layer im (o.first + 4) inner inp
    r.glr im o g xs us zs bs cs
  | 3 =>
    let (r, qs) := r.layer im o.first inner inp
    let (r, ks) := r.layer im (o.first + 1) inner inp
    let (r, vs) := r.layer im (o.first + 2) inner inp
    let (r, at_) := r.attn o w qs ks vs
    let (r, ys) := r.layer im (o.first + 3) o.wide at_
    r.put o.out (noCnt ys)
  | 4 =>
    if o.p2 = 3 then
      let (r, gs) := r.layer im o.first inner inp
      let (r, us) := r.layer im (o.first + 1) inner inp
      let mids := (gs.zip us).map fun p => writeAll (vecOut inner) ((p.1.zip p.2).map fun q => r32 ((vfn o.sub q.1).mul q.2))
      let r := { r with evs := (r.evs.zip mids).map fun (e : EncEv × (List Fl × Counts)) => { e.1 with cnt := e.1.cnt.add e.2.2 } }
      let (r, ys) := r.layer im (o.first + 2) o.wide (mids.map fun (m : List Fl × Counts) => m.1)
      r.put o.out (noCnt ys)
    else
      let (r, us) := r.layer im o.first inner inp
      let mids := us.map fun u => writeAll (vecOut inner) (u.map (vfn o.sub))
      let r := { r with evs := (r.evs.zip mids).map fun (e : EncEv × (List Fl × Counts)) => { e.1 with cnt := e.1.cnt.add e.2.2 } }
      let (r, ys) := r.layer im (o.first + 1) o.wide (mids.map fun (m : List Fl × Counts) => m.1)
      r.put o.out (noCnt ys)
  | 5 =>
    let ps := (List.range (o.paramBytes / 4)).map fun j => toF32 (param im o j)
    vec fun e =>
      let ys := Config.norm (o.sub == 1) o.eps ps ((e.buf o.inBuf).map toF32)
      (List.range o.width).map fun i => f32 (ys.getD i 0)
  | 6 => vec fun e => (e.buf o.inBuf).map (vfn o.sub)
  | 7 => vec fun e => ((e.buf o.inBuf).zip (e.buf o.in2)).map fun p => r32 (p.1.mul p.2)
  | 8 => vec fun e => ((e.buf o.inBuf).zip (e.buf o.in2)).map fun p => r32 (p.1.add p.2)
  | 9 => vec fun e => e.ev.x.map f32
  | 10 =>
    let isInt := imgNavFormat im == 1
    let (r, ys) := r.layer im o.first (o.wide || isInt) inp
    let scale := f32 (layerAt im o.first).outScale
    { r with evs := (r.evs.zip (inp.zip ys)).map fun e =>
        let (ev, emb, y) := e
        let ints := y.map (projInt scale)
        let nav := if isInt then ints.map fun i => toTwos 16 i.1 else y.map fun x => x.bits fp16
        { ev.put o.out y (if isInt then ints.foldl (fun c i => c.add i.2) {} else {}) with emb := emb, nav := nav } }
  | _ => r

/-- Every operator in record order (R290; 09 R303). -/
def EncRun.all (r : EncRun) (im : List Byte) : EncRun :=
  ((imgOpList im).foldl (fun (a : EncRun × Nat × Nat) o =>
    (a.1.op im o a.2.1 a.2.2, a.2.1 + boolNat (o.op == 2), a.2.2 + boolNat (o.op == 3))) (r, 0, 0)).1

/-- The output of the last operator for one event (15 R504; R285). -/
def EncEv.output (e : EncEv) (im : List Byte) : List Byte :=
  match (imgOpList im).getLast? with
  | none => []
  | some o => if o.op = 10 && imgNavFormat im = 1 then e.nav.flatMap (natLE 2) else bufBytes o.wide (e.buf o.out)

/-! ### Sequence headers (08 R286, R287, R291, R292) -/

/-- The change of a chunk. -/
def chunkChange (sum : Word) : Word := toF32 ((f32 sum).sqrt fp32)

/-- Order of chunk contributions: larger changes first, equal ones by lower index. -/
def chunkBefore (a b : Nat × Word) : Bool := b.2.toNat < a.2.toNat || (a.2 == b.2 && a.1 ≤ b.1)

/-- A closing chunk enters TopChunks where its change exceeds the smallest there (R292). -/
def enterChunk (top : List (Nat × Word)) (c : Nat × Word) : List (Nat × Word) :=
  if top.length < 8 then (if c.2 = 0 then top else sortBy chunkBefore (top ++ [c]))
  else match top.getLast? with
    | none => top
    | some w => if w.2.toNat < c.2.toNat then sortBy chunkBefore (top.dropLast ++ [c]) else top

/-- One event folded into its sequence's header (R287, R292, R296). Answers whether a chunk closed. -/
def SeqRec.fold (s : SeqRec) (e : EncEv) : SeqRec × Bool :=
  let s := if e.reset then { s with count := 0, openSum := 0, top := [] } else s
  let sum := toF32 ((f32 s.openSum).add e.dsum)
  let n := s.count + 1
  let s := { s with count := n, ooo := if e.ev.pos < s.last then min 0xFFFFFFFF (s.ooo + 1) else s.ooo, last := max s.last e.ev.pos }
  if n % 4096 = 0 then ({ s with openSum := 0, top := enterChunk s.top (n / 4096 - 1, chunkChange sum) }, true)
  else ({ s with openSum := sum }, false)

/-- An alarm's chunk contributions (R292; 11 R369). -/
def SeqRec.chunks (s : SeqRec) : List (Nat × Word) :=
  let isOpen := if s.count % 4096 = 0 then [] else [(s.count / 4096, chunkChange s.openSum)]
  (sortBy chunkBefore (s.top ++ isOpen)).take 8

end Sys2Proof.Machine
end

