-- ==== Sys2Proof/Machine/Scores.lean ====
section
/-!
DEFINITION. Scores: the checks of a load, charges, handles, adoption, unloading, and the encoder's own registers and arrays
(09 R301 to R325; 08 R274, R278, R300).
-/

namespace Sys2Proof.Machine

def State.score? (s : State) (h : Nat) : Option Score := s.enc.scores.find? h

def State.setScore (s : State) (h : Nat) (v : Score) : State := { s with enc := { s.enc with scores := s.enc.scores.set h v } }

/-- A Score that commands of domain `d` can name (R314, R323, R324). -/
def State.openScore? (s : State) (d h : Nat) : Option Score :=
  match s.score? h with
  | some v => if v.owner = d && v.isClosed.isNone && v.adopts.isNone then some v else none
  | none => none

/-! ### Phases 1 and 2 of a load (R301 to R311) -/

/-- Phase 1: the header (R302, R310; 00 R13, R17). -/
def headerRefusal (im : List Byte) (length : Nat) : Option Status :=
  if fieldAt im 4 1 / 16 != 1 || !bitOf (fieldAt im 5 1) 0 then some .version
  else if fieldAt im 0 4 != 0x53435A47 || fieldAt im 124 4 != crc32c (im.take 124) || length != fieldAt im 32 8 ||
      imgOps im = 0 || 4096 < imgOps im || imgLayers im = 0 || 1024 < imgLayers im || imgTiles im = 0 || 16777216 < imgTiles im ||
      imgInput im < 16 || 4096 < imgInput im || imgMaxClusters im = 0 || 4 < imgMaxClusters im ||
      fieldAt im 40 8 != fieldAt im 112 8 then some .malformed
  else none

def imgLayerList (im : List Byte) : List LayerRec := (List.range (imgLayers im)).map (layerAt im)

def imgLanes (im : List Byte) : Nat := ((imgLayerList im).map fun l => l.lanes).sum

/-- Where the tile region may begin and must have ended. -/
def tileRegion (im : List Byte) : Nat × Nat :=
  (fieldAt im 88 8 + 16 * imgTiles im, if imgLanes im = 0 then fieldAt im 104 8 else fieldAt im 96 8)

/-- First offset and end of a list of parts. -/
def spanOf (parts : List (Nat × Nat)) : List (Nat × Nat) :=
  match parts with
  | [] => []
  | p :: ps => [(ps.foldl (fun m q => min m q.1) p.1, ps.foldl (fun m q => max m (q.1 + q.2)) (p.1 + p.2) )]

def paramParts (im : List Byte) : List (Nat × Nat) :=
  (imgOpList im).filterMap fun o => if o.paramBytes = 0 then none else some (o.paramOff, o.paramBytes)

/-- The regions in order: start and end (R301). -/
def imgRegions (im : List Byte) : List (Nat × Nat) :=
  let tiles := (List.range (imgTiles im)).map fun t => ((tileDesc im t).1, (tileDesc im t).2.1)
  let sig := fieldAt im 112 8
  [(0, 128), (fieldAt im 72 8, fieldAt im 72 8 + 32 * imgOps im), (fieldAt im 80 8, fieldAt im 80 8 + 48 * imgLayers im),
   (fieldAt im 88 8, fieldAt im 88 8 + 16 * imgTiles im)] ++ spanOf tiles ++
  (if imgLanes im = 0 then [] else [(fieldAt im 96 8, fieldAt im 96 8 + 2 * imgLanes im)]) ++
  [(fieldAt im 104 8, fieldAt im 104 8 + 8 * imgLayers im)] ++ spanOf (paramParts im) ++
  [(sig, sig + 112 + fieldAt im (sig + 104) 4)]

/-- Reason 2: a region out of order, off its alignment, overlapping, or past the image; padding that is not zero. -/
def badLayout (im : List Byte) : Bool :=
  let rs := imgRegions im
  let n := fieldAt im 32 8
  (rs.any fun r => r.1 % 64 != 0 || n < r.2) || ((rs.getLast?.map fun r => r.2) != some n) ||
  ((rs.zip (rs.drop 1)).any fun p => decide (p.2.1 < p.1.2) || (bytesAt im p.1.2 (p.2.1 - p.1.2)).any fun b => b != 0) ||
  (imgLanes im == 0 && fieldAt im 96 8 != 0) ||
  ((imgOpList im).any fun o => o.paramBytes == 0 && o.paramOff != 0)

/-- How many array layers an operator owns (R303). -/
def OpRec.owns (o : OpRec) : Nat :=
  match o.op with
  | 1 | 10 => 1
  | 2 => 5
  | 3 => 4
  | 4 => o.p2
  | _ => 0

/-- The codes, the limits of R282 and the fields of R303; the widths that an operator's layers take and give. -/
def OpRec.ok (o : OpRec) (im : List Byte) (inW in2W : Option Nat) : Bool :=
  let l (i : Nat) : LayerRec := layerAt im (o.first + i)
  let takes (i w : Nat) : Bool := decide (w ≤ (l i).k)
  let gives (i w : Nat) : Bool := decide (w ≤ (l i).n)
  let from_ (f : Nat → Bool) : Bool := match inW with
    | some w => f w
    | none => false
  o.layers == o.owns && (o.owns != 0 || o.first == 0xFFFF) && (o.owns == 0 || o.first + o.owns ≤ imgLayers im) &&
  (match o.op with
  | 1 => o.sub == 0 && o.p1 == 0 && o.p2 == 0 && o.p3 == 0 && o.paramBytes == 0 && from_ (takes 0) && o.width == (l 0).n
  | 2 => o.sub ≤ 1 && 128 ≤ o.p1 && o.p1 ≤ 4096 && 1 ≤ o.p2 && o.p2 ≤ 256 && o.p3 == 0 && o.paramBytes == 4 * (o.p1 * o.p2 + o.p1) &&
      ((List.range 5).all fun i => from_ (takes i)) && ((List.range 3).all fun i => gives i o.p1) && gives 3 o.p2 && gives 4 o.p2 && o.width == o.p1
  | 3 => o.sub == 0 && 4 ≤ o.p1 && o.p1 ≤ 13 && 1 ≤ o.p2 && o.p2 ≤ 32 && (o.p3 == 64 || o.p3 == 128) && o.paramBytes == 0 &&
      ((List.range 3).all fun i => from_ (takes i) && gives i (o.p2 * o.p3)) && takes 3 (o.p2 * o.p3) && o.width == (l 3).n
  | 4 => o.sub ≤ 6 && 1 ≤ o.p1 && o.p1 ≤ 16384 && (o.p2 == 2 || o.p2 == 3) && o.p3 == 0 && o.paramBytes == 0 &&
      ((List.range (o.p2 - 1)).all fun i => from_ (takes i) && gives i o.p1) && takes (o.p2 - 1) o.p1 && o.width == (l (o.p2 - 1)).n
  | 5 => o.sub ≤ 1 && 1 ≤ o.p1 && o.p1 ≤ 16384 && o.p2 == 0 && o.p3 == 0 && o.paramBytes == 4 * o.p1 * (1 + o.sub) && o.width == o.p1 && inW == some o.width
  | 6 => o.sub ≤ 6 && o.p1 == 0 && o.p2 == 0 && o.p3 == 0 && o.paramBytes == 0 && inW == some o.width
  | 7 | 8 => o.sub == 0 && o.p1 == 0 && o.p2 == 0 && o.p3 == 0 && o.paramBytes == 0 && inW == some o.width && in2W == some o.width
  | 9 => o.sub == 0 && o.p1 == imgInput im && o.p2 == 0 && o.p3 == 0 && o.paramBytes == 0 && o.width == imgInput im
  | 10 => o.sub == 0 && o.p1 == 0 && o.p2 == 0 && o.p3 == 0 && o.paramBytes == 0 && from_ (takes 0) && o.width == (l 0).n
  | _ => false)

/-- Reason 3, over the operators in order with the widths of the buffers written so far. -/
def badOperators (im : List Byte) : Bool :=
  ((imgOpList im).foldl (fun (a : Bool × Table Nat) o =>
    (a.1 || !o.ok im (a.2.find? o.inBuf) (a.2.find? o.in2), a.2.set o.out o.width)) (false, [])).1

/-- FP32 between 0 and 1. -/
def unitRange (w : Word) : Bool := Fl.le Fl.zero (f32 w) && Fl.le (f32 w) (.ofInt 1)

/-- Layers that a PROJECT owns. -/
def isProjectLayer (im : List Byte) (i : Nat) : Bool := (imgOpList im).any fun o => o.op == 10 && o.first == i

/-- Reason 4 for one layer (R304; 08 R261, R262, R275, R282). -/
def badLayer (im : List Byte) (i : Nat) : Bool :=
  let l := layerAt im i
  let o := fieldAt im 80 8 + 48 * i
  let f := fieldAt im (o + 1) 1
  let cols := l.n / 128
  !(l.mode ≤ 4 && bitsOf f 1 0 ≤ 1 && bitsOf f 3 2 ≤ 1 && (!l.wF4 || l.mode == 0 || l.mode == 3) && (!l.aFloat || l.mode != 4) &&
    fieldAt im (o + 2) 1 ≤ 2 && 128 ≤ l.k && l.k ≤ 16384 && l.k % l.span == 0 && 128 ≤ l.n && l.n ≤ 16384 && l.n % 128 == 0 &&
    l.tiles == l.k / l.span * cols && l.lanes ≤ l.k / 50 && l.outTiles == ceilDiv l.lanes 128 * cols && (l.lanes != 0 || l.outTile0 == 0) &&
    1 ≤ l.exp0 && l.exp0 ≤ 254 && 1 ≤ l.outExp0 && l.outExp0 ≤ 254 && 1 ≤ l.slices && l.slices ≤ cols && unitRange l.clip &&
    (if isProjectLayer im i && imgNavFormat im == 1 then (f32 l.outScale).isFinite else l.outScale == 0))

/-- Reason 4: a layer's fields, or layers not owned in order by exactly one operator each. -/
def badLayers (im : List Byte) : Bool :=
  ((List.range (imgLayers im)).any (badLayer im)) ||
  (((imgOpList im).flatMap fun o => if o.owns = 0 then [] else List.range' o.first o.owns) != List.range (imgLayers im))

/-- Reason 5 (R305; 08 R263). -/
def badTiles (im : List Byte) : Bool :=
  let (lo, hi) := tileRegion im
  let sizeOk (t size : Nat) : Bool := t < imgTiles im && (tileDesc im t).2.1 == size
  ((List.range (imgTiles im)).any fun t => let d := tileDesc im t; decide (d.1 < lo) || decide (hi < d.1 + d.2.1)) ||
  ((imgLayerList im).any fun l =>
    ((List.range' l.tile0 l.tiles).any fun t => !sizeOk t l.tileBytes) || ((List.range' l.outTile0 l.outTiles).any fun t => !sizeOk t 16640))

/-- Reason 6 (R306). -/
def badOutlier (im : List Byte) : Bool :=
  (imgLayerList im).any fun l =>
    let m := laneMap im l
    (l.lanes != 0 && decide (imgLanes im < l.map0 + l.lanes)) || (m.any fun c => l.k ≤ c) || ((m.zip (m.drop 1)).any fun p => decide (p.2 ≤ p.1))

def tileSizes (im : List Byte) (ts : List Nat) : Nat := (ts.map fun t => (tileDesc im t).2.1).sum

/-- Reason 7 (R307). -/
def badHint (im : List Byte) : Bool :=
  ((List.range (imgLayers im)).any fun i => 1 < fieldAt im (fieldAt im 104 8 + 8 * i) 8) ||
  (((List.range (imgLayers im)).filter (isPinned im)).map fun i => tileSizes im (layerAt im i).sliceTiles.flatten).sum != fieldAt im 68 4

/-- One half of a sequence state (R311). -/
def stateBytesOf (im : List Byte) : Nat :=
  roundUp ((imgOpList im).map fun o =>
    if o.op = 2 then o.p1 * o.p2 * (if o.sub = 0 then 4 else 2)
    else if o.op = 3 then (2 ^ o.p1 - 1) * 2 * o.p2 * o.p3 * 33 / 32 else 0).sum 64

/-- MinAct (R311). -/
def minAct (im : List Byte) : Nat :=
  (if imgChunkable im then 4096 else 128) * ((List.range 8).map fun b =>
    let ws := (imgOpList im).filter fun o => o.out == b
    (ws.foldl (fun m o => max m o.width) 0) * (if ws.any fun o => o.wide then 4 else 2)).sum

/-- Reason 8 (R311). -/
def badFootprint (im : List Byte) : Bool :=
  imgStateBytes im != stateBytesOf im || ((imgSlices im).any fun ts => decide (fieldAt im 48 4 < tileSizes im ts)) ||
  decide (fieldAt im 52 4 < minAct im)

/-- Reason 9. -/
def badNav (im : List Byte) : Bool :=
  let ps := (imgOpList im).filter fun o => o.op == 10
  if imgHasProject im then
    ps.isEmpty || (ps.any fun o => (layerAt im o.first).n != imgNavDim im) || imgNavDim im < 64 || 256 < imgNavDim im ||
      imgNavDim im % 16 != 0 || 1 < imgNavFormat im
  else !ps.isEmpty || imgNavDim im != 0

/-- The first reason of phase 2 that stands, or 0 (R310). -/
def structureReason (im : List Byte) : Nat :=
  ((List.find? (fun (c : Nat × (List Byte → Bool)) => c.2 im)
    [(2, badLayout), (3, badOperators), (4, badLayers), (5, badTiles), (6, badOutlier), (7, badHint), (8, badFootprint), (9, badNav)]).map
      fun c => c.1).getD 0

/-! ### Charges, handles, signatures, seeds (R308, R312 to R314, R319; 08 R274; 22 R691) -/

def heartCharge (im : List Byte) : Nat := ceilDiv (fieldAt im 40 8) (2 ^ 28)

def topCharge (im : List Byte) : Nat :=
  imgMaxClusters im * (2 * ceilDiv (fieldAt im 48 4) (2 ^ 21) + ceilDiv (fieldAt im 52 4) (2 ^ 21)) + ceilDiv (fieldAt im 68 4) (2 ^ 21)

/-- Extents of a state pool of `n` records (R319); a record that no extent holds can be given none. -/
def poolExtentsFor (stateBytes n : Nat) : Nat :=
  let per := 2 ^ 28 / (2 * stateBytes + 128)
  if n = 0 then 0 else if per = 0 then 2 ^ 32 else ceilDiv n per + ceilDiv (16 * n) (2 ^ 28)

/-- The handle issued next, as the number of handles issued once it is (R314). -/
def State.nextIssue (s : State) : Option Nat :=
  ((List.range 65535).find? fun k => !(s.enc.scores.has ((s.enc.issued + k) % 65535 + 1))).map fun k => s.enc.issued + k + 1

/-- The registered pair that an image names, where it is bound to the domain (R308, R310). -/
def State.boundKey (s : State) (im : List Byte) (d : Nat) : Option ScoreKey :=
  match s.sec.keys.find? (fieldAt im (fieldAt im 112 8 + 4) 4) with
  | none => none
  | some k => if bitOf (k.domains.getD (d / 8) 0).toNat (d % 8) then some k else none

/-- Both signatures verify under a registered pair bound to the domain (R308, R310; log entry 26). -/
def State.signed (s : State) (im : List Byte) (d : Nat) : Bool :=
  let o := fieldAt im 112 8
  match s.boundKey im d with
  | none => false
  | some k =>
    Config.sigOk 0 (bytesAt k.block 0 97) (im.take o) (bytesAt im (o + 8) 96) &&
    Config.sigOk 1 (bytesAt k.block 100 52) (im.take o) (bytesAt im (o + 112) (fieldAt im (o + 104) 4))

/-- Every tile's CRC-32C is its descriptor's (R310). -/
def tilesMatch (im : List Byte) : Bool := (List.range (imgTiles im)).all fun t => crc32c (tileBytesOf im t) == (tileDesc im t).2.2

/-- The seed entry of a calibration set for a Score, from the entry at `off` on (22 R691). -/
def seedGo (set : List Byte) (id ver : Nat) : Nat → Nat → Option Nat
  | 0, _ => none
  | n + 1, off =>
    if fieldAt set off 8 = id && fieldAt set (off + 8) 4 = ver then some off
    else seedGo set id ver n (off + roundUp (16 + 2 * fieldAt set (off + 12) 2) 16)

/-- The scale records as a load leaves them (08 R274). -/
def State.firstScales (s : State) (im : List Byte) : Table ScaleRec :=
  let set := s.cal.inForce
  let seed := seedGo set (fieldAt im 8 8) (fieldAt im 16 4) (min 64 (fieldAt set 20 4)) (fieldAt set 36 4)
  (List.range (imgLayers im)).flatMap fun i =>
    let l := layerAt im i
    let (a, b) := match seed with
      | some o => if i < fieldAt set (o + 12) 2 then (fieldAt set (o + 16 + 2 * i) 1, fieldAt set (o + 17 + 2 * i) 1) else (l.exp0, l.outExp0)
      | none => (l.exp0, l.outExp0)
    [(2 * i, { eL := a }), (2 * i + 1, { eL := b })]

/-! ### SCORE_LOAD, with and without Adopt (R309, R310, R324) -/

def loadResult (reason handle heart top : Nat) : List Byte := natLE 2 reason ++ natLE 2 handle ++ natLE 4 heart ++ natLE 4 top ++ zeroBytes 4

/-- A refused load: its reason is in the result area, and nothing of it stays. -/
def State.refuseLoad (s : State) (cid : Nat) (k : Cmd) (st : Status) (reason : Nat) : State :=
  (s.cmdWrite cid (cmdPtrB k.raw) 0 (loadResult reason 0 0 0)).finish cid st

/-- The operators that carry state, as adoption compares them (R324). -/
def statefulOps (im : List Byte) : List (Nat × Nat × Nat × Nat × Nat) :=
  ((imgOpList im).filter fun o => o.op == 2 || o.op == 3).map fun o => (o.op, o.sub, o.p1, o.p2, o.p3)

/-- The outcome of phase 5 against a predecessor. -/
def State.adoptRefusal (s : State) (d pred : Nat) (im : List Byte) : Option (Status × Nat) :=
  match s.openScore? d pred with
  | none => some (.denied, 0)
  | some p =>
    if imgStateBytes p.image != imgStateBytes im || statefulOps p.image != statefulOps im then some (.malformed, 15) else none

/-- Phases 3 to 5 of a load. -/
def State.chargeLoad (s : State) (cid : Nat) (k : Cmd) (d : Nat) (im : List Byte) (adopt readFails : Bool) : State :=
  match s.takeHeart d (heartCharge im) with
  | (s, false) => s.refuseLoad cid k .quota 12
  | (s, true) =>
    match s.takeTop d (topCharge im) with
    | (s, none) => (s.giveHeart d (heartCharge im)).refuseLoad cid k .quota 13
    | (s, some fs) =>
      let undo := fun (s : State) => (s.giveHeart d (heartCharge im)).giveTop d fs
      let pred := fieldAt k.raw 50 2
      match s.nextIssue with
      | none => (undo s).refuseLoad cid k .quota 14
      | some n =>
        if 256 ≤ s.enc.scores.length then (undo s).refuseLoad cid k .quota 14
        else if readFails then (undo s).refuseLoad cid k .uncorrected 16
        else if !s.signed im d then
          ((undo s).when (s.boundKey im d).isSome fun s => (s.bump pgSec 0x070).sticky pgSec 0x044 2).refuseLoad cid k .denied 10
        else if !tilesMatch im then (undo s).refuseLoad cid k .malformed 11
        else match if adopt then s.adoptRefusal d pred im else none with
          | some (st, reason) => (undo s).refuseLoad cid k st reason
          | none =>
            let h := (n - 1) % 65535 + 1
            let v : Score := { owner := d, image := im.take (fieldAt im 40 8), scales := s.firstScales im, extents := heartCharge im,
                               frames := fs, adopts := if adopt then some pred else none }
            let s := (s.setScore h v)
            let s := { s with enc := { s.enc with issued := n } }
            if adopt then
              let s := match s.score? pred with
                | none => s
                | some p => s.setScore pred { p with isClosed := some cid }
              s.setCmd cid { k with phase := .waiting }
            else (s.cmdWrite cid (cmdPtrB k.raw) 0 (loadResult 0 h v.extents fs.length)).finish cid .ok

/-- A load up to its charges (R309, R310; 16 R533). -/
def scoreLoad (cid : Nat) (k : Cmd) (adopt readFails : Bool) (s : State) : State :=
  let d := fieldAt k.raw 8 2
  let length := cmdPtrC k.raw
  let head := s.cmdRead k (cmdPtrA k.raw) 128
  if s.dom.fuses.maxDomains ≤ d then s.finish cid .malformed
  else if (s.domain d).state != .active then s.finish cid .notFound
  else match headerRefusal head length with
    | some st => s.refuseLoad cid k st 1
    | none =>
      let im := s.cmdRead k (cmdPtrA k.raw) length
      match structureReason im with
      | 0 => s.chargeLoad cid k d im adopt readFails
      | r => s.refuseLoad cid k .malformed r

/-- A load whose Adopt flag is as the step says. -/
def Cmd.isLoad (k : Cmd) (adopt : Bool) : Bool := k.isAdmin 0x20 && bitOf (fieldAt k.raw 49 1) 0 == adopt

def execScoreLoad (t cid : Nat) (readFails : Bool) (s : State) : Host.Outcome State Fault Refusal :=
  done ((s.at t).withCmd cid (·.isLoad false) fun k s => scoreLoad cid k false readFails s)

def execScoreLoadAdopt (t cid : Nat) (readFails : Bool) (s : State) : Host.Outcome State Fault Refusal :=
  done ((s.at t).withCmd cid (·.isLoad true) fun k s => scoreLoad cid k true readFails s)

/-- SCORE_UNLOAD (R314, R323): the Score closes at once. -/
def scoreUnload (cid : Nat) (k : Cmd) (s : State) : State :=
  let h := fieldAt k.raw 50 2
  if s.dom.fuses.maxDomains ≤ fieldAt k.raw 8 2 then s.finish cid .malformed
  else match s.openScore? (fieldAt k.raw 8 2) h with
  | none => s.finish cid .denied
  | some v => (s.setScore h { v with isClosed := some cid }).setCmd cid { k with phase := .waiting }

def execScoreUnload (t cid : Nat) (s : State) : Host.Outcome State Fault Refusal :=
  done ((s.at t).withCmd cid (·.isAdmin 0x21) (scoreUnload cid))

/-- Whether a command names a Score handle. -/
def Cmd.namesScore (k : Cmd) (h : Nat) : Bool := [0x03, 0x04].contains (cmdOpcode k.raw) && fieldAt k.raw 12 2 == h

/-- The last admitted command of a closed Score has completed: it is freed, or its successor takes its pool (R323, R324). -/
def State.drainScore (s : State) (h : Nat) : State :=
  match s.score? h with
  | none => s
  | some v =>
    match v.isClosed with
    | none => s
    | some cid =>
      if s.qmg.cmds.any fun e => e.2.namesScore h then s
      else
        let s := (s.giveHeart v.owner v.extents).giveTop v.owner v.frames
        let s := { s with enc := { s.enc with scores := s.enc.scores.erase h } }
        match List.find? (fun e => e.2.adopts == some h) s.enc.scores with
        | none => (s.giveHeart v.owner v.poolExtents).finish cid .ok
        | some e =>
          let s := s.setScore e.1 { e.2 with adopts := none, pool := v.pool, poolExtents := v.poolExtents }
          let ptr := ((s.cmd? cid).map fun k => cmdPtrB k.raw).getD 0
          (s.cmdWrite cid ptr 0 (loadResult 0 e.1 e.2.extents e.2.frames.length)).finish cid .ok

/-! ### The layer window and the arrays (08 R278, R297, R300) -/

/-- The scale record that ENC_LSEL selects. -/
def State.selScale (s : State) : Option ScaleRec :=
  let v := s.reg (pgEnc 0) 0x080
  match s.score? (bitsOf v 31 16) with
  | none => none
  | some x => if bitsOf v 9 0 < imgLayers x.image then x.scales.find? (2 * bitsOf v 9 0) else none

/-- A layer's counters cleared; E_L and the history stay (R278). -/
def ScaleRec.cleared (r : ScaleRec) : ScaleRec := { eL := r.eL, hist := r.hist }

/-- ENC_LCLEAR (R278, R297). -/
def encLclear (s : State) : State :=
  let v := s.reg (pgEnc 0) 0x080
  let h := bitsOf v 31 16
  match s.score? h with
  | none => s
  | some x => s.setScore h { x with scales := (x.scales.modify (2 * bitsOf v 9 0) ScaleRec.cleared).modify (2 * bitsOf v 9 0 + 1) ScaleRec.cleared }

def execEncLclear (t fn cluster : Nat) (val : Word) (s : State) : Host.Outcome State Fault Refusal :=
  done ((s.at t).onlyIf (s.live && fn == 0 && cluster < 4 && bitOf val.toNat 0) encLclear)

/-- Arrays disabled in a cluster. -/
def State.arraysOff (s : State) (cluster : Nat) : List Nat := (s.enc.disabled.filter fun a => a.1 == cluster).map fun a => a.2

/-- An array is disabled until the next cold start (R300). -/
def State.disableArray (s : State) (cluster array : Nat) : State :=
  if s.enc.disabled.contains (cluster, array) then s
  else ({ s with enc := { s.enc with disabled := s.enc.disabled ++ [(cluster, array)] } }).sendFault (pgEnc cluster) .arrayFailed array

def execArrayParityError (t cluster array : Nat) (s : State) : Host.Outcome State Fault Refusal :=
  done ((s.at t).onlyIf (s.live && cluster < 4 && array < 16) fun s => s.disableArray cluster array)

end Sys2Proof.Machine
end

