-- ==== Sys2Proof/Machine/WalkCore.lean ====
section
/-!
DEFINITION. The walk of one search (04 R118 to R131; 05 R169 to R176): queues, result list, visited filter, budget, waves,
Encore rounds and the post-filter pass, over the collection as it stands.
-/

namespace Sys2Proof.Machine

/-- What a walk reads besides its own record: its collection, the local time, and what a pass returns for a slot. -/
structure WalkEnv where
  coll  : Coll
  now   : Nat
  score : Nat → Word

/-! ### Structures -/

/-- The neighbour list of a slot in the main graph or in a segment (R124). -/
def Coll.neighbours (c : Coll) (seg : Option Nat) (slot : Nat) : List Nat :=
  match seg with
  | none => c.mainGraph.lists.getD slot []
  | some g => match c.segs.find? g with
    | none => []
    | some x => x.graph.lists.getD slot []

def Coll.segSlots (c : Coll) (g : Nat) : List Nat := ((c.segs.find? g).map fun x => x.slots).getD []

/-- The slots that seed a walk: the entry set, or the segment's single entry slot (R123). -/
def Search.seeds (c : Coll) (q : Search) (seg : Option Nat) : List Nat :=
  match seg with
  | none => q.entrySet
  | some g => match c.segs.find? g with
    | none => []
    | some x => x.graph.entries.take 1

/-- Segments by seal sequence, newest first (R122). -/
def Coll.newestFirst (c : Coll) (gs : List Nat) : List Nat :=
  sortBy (fun a b => ((c.segs.find? b).map fun x => x.seq).getD 0 ≤ ((c.segs.find? a).map fun x => x.seq).getD 0) gs

/-- Slots of the flat scans: the Building segments taken, then the tail's chain (R118, R119). -/
def Search.flatSlots (c : Coll) (q : Search) : List Nat :=
  (q.buildTaken.map c.segSlots).flatten ++
  ((c.segs.filter fun e => e.2.fromTail && q.tailFrom ≤ e.2.seq).map fun e => e.2.slots).flatten ++ c.tail

/-! ### Queues, lists and the visited filter -/

/-- The rank of candidates (R121). -/
def Cand.before (higher : Bool) (a b : Cand) : Bool := betterNav higher a.score a.key b.score b.key

/-- Offer an entry to a queue of `cap` entries (R125); answers the entry that leaves. -/
def offerQueue (higher : Bool) (cap : Nat) (queue : List Cand) (x : Cand) : List Cand × Option Cand :=
  let sorted := insertBy (fun a b => !Cand.before higher b a) x queue
  if queue.length < cap then (sorted, none)
  else match queue.getLast? with
    | none => (queue, none)
    | some w => if Cand.before higher x w then (sorted.dropLast, some w) else (queue, none)

/-- The result list under the same rule (R125), best first. -/
def offerResult (higher : Bool) (cap : Nat) (rs : List Entry) (e : Entry) : List Entry :=
  let lt (a b : Entry) : Bool := betterNav higher a.score a.key b.score b.key
  let sorted := insertBy (fun a b => !lt b a) e rs
  if rs.length < cap then sorted
  else match rs.getLast? with
    | none => rs
    | some w => if lt e w then sorted.dropLast else rs

/-- Segment walks of the running wave. -/
def Search.waveCount (q : Search) : Nat := (q.walks.filter fun w => w.seg.isSome && !w.isDone).length

/-- Candidate-queue entries free for spilled entries (05 R169). -/
def Search.spillCap (q : Search) : Nat := 1024 - q.breadth - q.waveCount * q.desc.segBreadth

/-- Keep an entry that left the main-graph queue (05 R169). -/
def Search.spill (higher : Bool) (q : Search) (x : Cand) : Search :=
  { q with spilled := (offerQueue higher q.spillCap q.spilled x).1 }

/-- The visited filter (R128): answers whether the slot passes. -/
def Search.filterSlot (q : Search) (slot : Nat) : Search × Bool :=
  let full := 16384 ≤ q.visited.length
  if full && (q.visited.contains slot || Config.bloomFalse q.visited.length slot) then ({ q with bloomOnly := q.bloomOnly + 1 }, false)
  else if q.visited.contains slot then (q, false)
  else ({ q with visited := slot :: q.visited }, true)

def Search.filterSlots (q : Search) (slots : List Nat) : Search × List Nat :=
  slots.foldl (fun a slot => let (q', ok) := a.1.filterSlot slot; (q', if ok then a.2 ++ [slot] else a.2)) (q, [])

/-! ### Scores that a pass returns (R120, R124, R125; 05 R167, R168) -/

/-- A scored slot is admitted where it is visible, its record could be read and its program admits it (R120). -/
def Search.letIn (c : Coll) (q : Search) (x : Slot) (readable : Bool) : Bool :=
  readable && x.visible q.asOf && admits c.schema q.desc.predicate x.attrs q.asOf

/-- Offer a scored slot to the result list (R120, R125). -/
def Search.offer (c : Coll) (q : Search) (slot : Nat) (x : Slot) (score : Word) (origin : Nat) (readable : Bool) : Search :=
  if !isNaN32 score && q.letIn c x readable then
    { q with admitted := q.admitted + 1,
             results := offerResult (higherBetter c.metric) q.breadth q.results
               { key := x.key, score := score, origin := origin, stamp := x.ins, slot := slot } }
  else q

/-- The walk that waits for a slot's score. -/
def Search.walkOf (q : Search) (slot : Nat) : Option Nat :=
  (List.range q.walks.length).find? fun i => (q.walks.getD i { breadth := 0 }).due.contains slot

/-- Give a graph score to the walk that asked for it. -/
def Search.scored (c : Coll) (q : Search) (i slot : Nat) (x : Slot) (score : Word) (readable : Bool) : Search :=
  let higher := higherBetter c.metric
  let w := q.walks.getD i { breadth := 0 }
  let cap := if w.seg.isNone then q.breadth else q.desc.segBreadth
  let (queue, out) := if isNaN32 score then (w.queue, none) else offerQueue higher cap w.queue { slot := slot, key := x.key, score := score }
  let due := w.due.erase slot
  let q := { q with walks := q.walks.set i { w with queue := queue, due := due, seeded := w.seeded || due.isEmpty },
                    dists := q.dists + 1, poolDist := q.poolDist + 1, nans := q.nans + boolNat (isNaN32 score),
                    entryKey := if w.seg.isNone && !w.seeded && due.isEmpty then (queue.head?.map Cand.key).getD 0 else q.entryKey }
  let q := match out with
    | some e => if w.seg.isNone then q.spill higher e else q
    | none => q
  q.offer c slot x score (if w.seg.isNone then 0 else 1) readable

/-- Take the score of one (query, slot) pair (R124, R135). -/
def Search.takeScore (c : Coll) (q : Search) (slot : Nat) (score : Word) (flat readable : Bool) : Search :=
  match c.slots.find? slot with
  | none => { q with flat := q.flat.erase slot, walks := q.walks.map fun w => { w with due := w.due.erase slot } }
  | some x =>
    if flat then
      ({ q with flat := q.flat.erase slot, flatScanned := q.flatScanned + 1, nans := q.nans + boolNat (isNaN32 score) }).offer
        c slot x score 2 readable
    else match q.walkOf slot with
      | none => q
      | some i => q.scored c i slot x score readable

/-! ### The budget (R130, R131) -/

/-- CLK_ARITH cycles, at 1.1 GHz, since the cycle pool was filled (R130; 07 R250). -/
def Search.cycles (q : Search) (now : Nat) : Nat := (now - q.poolFrom) * 11 / 10

def Search.anySpent (q : Search) (now : Nat) : Bool :=
  q.desc.maxHops ≤ q.poolHops || q.desc.maxDist ≤ q.poolDist || q.desc.maxCycles ≤ q.cycles now

/-- Set the flags of the pools that are spent (R131; 05 R172). -/
def Search.markSpent (q : Search) (now : Nat) : Search :=
  { q with hitHops := q.hitHops || decide (q.desc.maxHops ≤ q.poolHops),
           hitDist := q.hitDist || decide (q.desc.maxDist ≤ q.poolDist),
           hitCyc := q.hitCyc || decide (q.desc.maxCycles ≤ q.cycles now) }

/-! ### Expansions and waves (R122 to R127) -/

def Search.setWalk (q : Search) (i : Nat) (w : Walk) : Search := { q with walks := q.walks.set i w }

/-- Advance one walk until a pass is due or it ends; answers the slots to be scored. -/
def Search.advanceWalk (env : WalkEnv) (i : Nat) : Nat → Search → Search × List Nat
  | 0, q => (q, [])
  | fuel + 1, q =>
    let w := q.walks.getD i { breadth := 0 }
    if w.isDone || !w.due.isEmpty then (q, [])
    else if !w.begun then
      let (q, due) := q.filterSlots (q.seeds env.coll w.seg)
      let q := q.setWalk i { w with begun := true, due := due, seeded := due.isEmpty }
      if due.isEmpty then q.advanceWalk env i fuel else (q, due)
    else if q.anySpent env.now then ((q.markSpent env.now).setWalk i { w with isDone := true }, [])
    else match w.queue.find? fun e => !e.expanded with
      | none => (q.setWalk i { w with isDone := true }, [])
      | some e =>
        let q := { q with hops := q.hops + 1, poolHops := q.poolHops + 1 }
        let (q, due) := q.filterSlots (env.coll.neighbours w.seg e.slot)
        let q := q.setWalk i { w with due := due, queue := w.queue.map fun y => if y.slot = e.slot then { y with expanded := true } else y }
        if due.isEmpty then q.advanceWalk env i fuel else (q, due)

/-- Advance every walk in turn (R127). -/
def Search.advanceAll (env : WalkEnv) (q : Search) : Search × List Nat :=
  (List.range q.walks.length).foldl (fun a i =>
    let (q', due) := a.1.advanceWalk env i ((a.1.walks.getD i { breadth := 0 }).queue.length + 3)
    (q', a.2 ++ due)) (q, [])

def Search.mainDone (q : Search) : Bool := q.walks.all fun w => w.seg.isSome || w.isDone

/-- Start the next wave of segment walks where one may start (R122, R131; 05 R169). -/
def Search.nextWave (q : Search) (now : Nat) : Search :=
  if q.segsLeft.isEmpty || 0 < q.waveCount then q
  else
    let fits := q.desc.segBreadth ≤ 1024 - q.breadth
    if !fits && !q.mainDone then q
    else if q.anySpent now then { q.markSpent now with segsSkip := q.segsSkip ++ q.segsLeft, segsLeft := [] }
    else
      let n := max 1 ((if fits then 1024 - q.breadth else 1024) / max 1 q.desc.segBreadth)
      let take := q.segsLeft.take n
      let main := q.walks.filter fun w => w.seg.isNone
      let q := if fits || q.saved.isSome then q
        else { q with saved := main.head?.map fun w => (w, q.spilled), spilled := [] }
      let fresh := take.map fun g => ({ seg := some g, breadth := q.desc.segBreadth } : Walk)
      let q := { q with walks := main ++ fresh,
                        segsLeft := q.segsLeft.drop n, segsWalked := q.segsWalked + take.length }
      { q with spilled := q.spilled.take q.spillCap }

/-! ### Encore and the post-filter pass (05 R170 to R176) -/

def distinctKeys (es : List Entry) : Nat := (es.foldl (fun (ks : List Nat) e => if ks.contains e.key then ks else e.key :: ks) []).length

/-- Fresh pools (R130; 05 R172). -/
def Search.freshPools (q : Search) (now : Nat) : Search :=
  { q with cyclesUsed := q.cyclesUsed + q.cycles now, poolHops := 0, poolDist := 0, poolFrom := now }

/-- Whether an Encore round runs (05 R170). -/
def Search.encoreDue (q : Search) : Bool :=
  distinctKeys q.results < q.desc.k && q.rounds < q.desc.encoreMax && q.breadth < 1024

/-- Start an Encore round (05 R171): the main walk resumes with the spilled entries, and skipped segments are walked. -/
def Search.encore (c : Coll) (now : Nat) (q : Search) : Search :=
  let q := q.freshPools now
  let breadth := min (2 * q.breadth) 1024
  let (mainW, spilled) := match q.saved with
    | some (w, sp) => (w, sp)
    | none => ((List.find? (fun (w : Walk) => w.seg.isNone) q.walks).getD { breadth := q.breadth }, q.spilled)
  let n := breadth - mainW.queue.length
  let queue := (spilled.take n).foldl (fun qu e => insertBy (fun a b => !Cand.before (higherBetter c.metric) b a) e qu) mainW.queue
  let q := { q with rounds := q.rounds + 1, breadth := breadth, saved := none,
                    walks := [{ mainW with breadth := breadth, queue := queue, isDone := false }],
                    segsLeft := q.segsSkip, segsSkip := [] }
  { q with spilled := (spilled.drop n).take q.spillCap }

/-- Records in the order in which the post-filter pass reads them (05 R173). -/
def Search.postOrder (c : Coll) (q : Search) (start : Nat) : List Nat :=
  let rotate (xs : List Nat) : List Nat := if xs.isEmpty then [] else xs.drop (start % xs.length) ++ xs.take (start % xs.length)
  rotate c.mainSlots ++ ((c.newestFirst q.segsTaken).map fun g => rotate (c.segSlots g)).flatten

/-- Read records one a cycle until the pass ends (05 R173, R174). `read` counts them. -/
def Search.postGo (env : WalkEnv) (main : List Nat) : Nat → Nat → List Nat → Search → Search × Nat
  | 0, read, _, q => (q, read)
  | _, read, [], q => (q, read)
  | left + 1, read, slot :: rest, q =>
    if q.desc.maxDist ≤ q.poolDist then ({ q with hitDist := true }, read)
    else if q.desc.maxCycles ≤ read then ({ q with hitCyc := true }, read)
    else
      let q := match env.coll.slots.find? slot with
        | none => q
        | some x =>
          if !q.letIn env.coll x true then { q with rejected := slot :: q.rejected }
          else
            let (q, ok) := q.filterSlot slot
            if !ok then q
            else
              let w := env.score slot
              ({ q with dists := q.dists + 1, poolDist := q.poolDist + 1, nans := q.nans + boolNat (isNaN32 w) }).offer
                env.coll slot x w (if main.contains slot then 0 else 1) true
      q.postGo env main left (read + 1) rest

/-- The post-filter pass, where R173 asks for one. -/
def Search.postFilter (env : WalkEnv) (tag : Nat) (q : Search) : Search :=
  if q.desc.predicate.isEmpty || postFilterSlots q.desc.predicate = 0 || q.desc.k ≤ distinctKeys q.results || q.postRun then q
  else
    let q := { q with poolHops := 0, poolDist := 0, postRun := true }
    let (q, read) := q.postGo env env.coll.mainSlots (postFilterSlots q.desc.predicate) 0 (q.postOrder env.coll (Config.postFilterStart tag))
    { q with cyclesUsed := q.cyclesUsed + read }

/-- Every slot the search covered was scored, or read and rejected (05 R176). -/
def Search.coveredAll (c : Coll) (q : Search) : Bool :=
  (c.mainSlots ++ (q.segsTaken.map c.segSlots).flatten).all fun slot => q.visited.contains slot || q.rejected.contains slot

/-- Walking is over (05 R170): the local cast is due. -/
def Search.walkOver (env : WalkEnv) (tag : Nat) (q : Search) : Search :=
  let q := ({ q with cyclesUsed := q.cyclesUsed + q.cycles env.now }).postFilter env tag
  { q with stage := .walked, exhausted := q.coveredAll env.coll }

/-- Drive a search until passes are due or walking is over; answers the slots to be scored. -/
def Search.drive (env : WalkEnv) (tag : Nat) : Nat → Search → Search × List Nat
  | 0, q => (q, [])
  | fuel + 1, q =>
    let (q, due) := (q.nextWave env.now).advanceAll env
    if !due.isEmpty then (q, due)
    else if q.walks.any (fun w => !w.isDone) then (q, [])
    else if !q.segsLeft.isEmpty then q.drive env tag fuel
    else if !q.flat.isEmpty then (q, [])
    else if q.encoreDue then (q.encore env.coll env.now).drive env tag fuel
    else (q.walkOver env tag, [])

/-- Rounds of `drive` that one call can need: waves and Encore rounds. -/
def driveFuel : Nat := 2400

/-- A whole walk whose passes all complete at once: the precedent searches of 05 R184 (log entry 14). -/
def Search.walkNow (env : WalkEnv) (tag : Nat) : Nat → Search → Search
  | 0, q => q
  | fuel + 1, q =>
    let (q, due) := q.drive env tag driveFuel
    if q.stage = .walking then
      (due.foldl (fun q slot => q.takeScore env.coll slot (env.score slot) false true) q).walkNow env tag fuel
    else q

end Sys2Proof.Machine
end

