-- ==== Sys2Proof/Machine/Search.lean ====
section
/-!
DEFINITION. Searches up to the end of their walk: admission, the watermark timeout, contexts, convoys and passes (03 R88 to
R91; 04 R109 to R136, R152 to R155; 16 R534, R535; 17 R566, R567).
-/

namespace Sys2Proof.Machine

def State.search? (s : State) (n : Nat) : Option Search := s.wlk.searches.find? n

def State.setSearch (s : State) (n : Nat) (q : Search) : State := { s with wlk := { s.wlk with searches := s.wlk.searches.set n q } }

/-! ### The descriptor (R114 to R116) -/

/-- The vectors a search runs with, where they do not come from its descriptor (R116; 17 R567). -/
structure GivenQuery where
  nav  : List Nat
  full : List Nat
  deriving DecidableEq, Repr

/-- The descriptor's fields with their defaults taken (R114). -/
def State.descOf (s : State) (c : Coll) (raw nav full predicate : List Byte) : Desc :=
  let fl := fieldAt raw 1 1
  let enc := fieldAt raw 6 1
  { onTimeout := bitOf fl 0, exact := bitOf fl 1, rescoreOnNear := bitOf fl 2, scatter := bitOf fl 3, k := fieldAt raw 2 2,
    breadth := fieldAt raw 4 2, encoreMax := if enc = 0xFF then 2 else enc, rescore := fieldAt raw 8 2,
    segBreadth := orDefault (fieldAt raw 10 2) (s.reg pgWlk 0x05C), waitUs := orDefault (fieldAt raw 12 4) c.waitUs,
    maxHops := orDefault (fieldAt raw 16 4) (s.reg pgWlk 0x050), maxDist := orDefault (fieldAt raw 20 4) (s.reg pgWlk 0x054),
    maxCycles := orDefault (fieldAt raw 24 4) (s.reg pgWlk 0x058), margin := BitVec.ofNat 32 (fieldAt raw 28 4),
    regions := fieldAt raw 48 2, nav := elems16 nav, fullQ := elems16 full, predicate := predicate }

/-- The checks of R115 and 05 R165, after the major versions (00 R15). -/
def descRefusal (c : Coll) (raw : List Byte) (d : Desc) : Option Status :=
  let enc := fieldAt raw 6 1
  let sb := fieldAt raw 10 2
  if fieldAt raw 0 1 / 16 != 1 then some .version
  else if !(1 ≤ d.k && d.k ≤ 1024 && 16 ≤ d.breadth && d.breadth ≤ 1024 && d.breadth % 16 == 0 && d.k ≤ d.breadth &&
      (enc ≤ 6 || enc == 0xFF) && d.rescore ≤ 1024 && (sb == 0 || (16 ≤ sb && sb ≤ 256 && sb % 16 == 0)) &&
      fieldAt raw 20 4 ≤ 16777215 && (!d.exact || (1 ≤ d.regions && d.regions ≤ 64)) &&
      (d.rescore == 0 || (c.fullDim != 0 && d.fullQ.length == c.fullDim && !d.fullQ.any nonFinite16)) &&
      !(c.navFormat == 0 && d.nav.any nonFinite16)) then some .malformed
  else if d.predicate.isEmpty then none
  else predicateRefusal c.schema d.predicate

/-- The enabled rules of a domain on a collection (05 R180, R183), in ascending RuleId. -/
def State.rulesFor (s : State) (d coll : Nat) : List (List Byte) :=
  (s.dom.rules.filter fun e => e.1 / 65536 == d && ruleEnabled e.2 && ruleColl e.2 == coll).map fun e => e.2

/-! ### Shares (16 R534, R535) -/

def State.walkerShare (s : State) (d : Nat) : Nat :=
  if d = 0 then 4096 - ((s.dom.doms.filter fun e => e.1 != 0).map fun e => e.2.walkerShare).sum
  else (s.domain d).walkerShare

def Search.contexts (q : Search) : Nat :=
  if q.stage = .queued then 0 else if q.needTwo then 2 else 1

/-- Contexts in use, over all domains or one. -/
def State.ctxBusy (s : State) : Nat := (s.wlk.searches.map fun e => e.2.contexts).sum

def State.searchDomain (s : State) (n : Nat) : Nat := ((s.cmd? n).map fun k => k.domain).getD 0

def State.ctxBusyOf (s : State) (d : Nat) : Nat :=
  ((s.wlk.searches.filter fun e => s.searchDomain e.1 == d).map fun e => e.2.contexts).sum

/-! ### The latency histograms (R154) -/

def histBucket (ns : Nat) : Nat := if ns < 128 then 0 else min 31 (Nat.log2 ns - 6)

def State.histAdd (s : State) (stage ns : Nat) : State :=
  let k := stage * 32 + histBucket ns
  { s with wlk := { s.wlk with hist := s.wlk.hist.set k (min 0xFFFFFFFF (s.wlk.hist.getD k 0 + 1)) } }

/-- A stage of a search ends now. -/
def State.stageEnd (s : State) (n stage : Nat) : State :=
  match s.search? n with
  | none => s
  | some q => (s.histAdd stage (s.now - q.stageAt)).setSearch n { q with stageAt := s.now }

/-! ### Admission (R110, R113; 03 R88, R91) -/

/-- The replica that a remote shard is asked at: the preferred one, or the other while its connection is Down (17 R566). -/
def State.replica (s : State) (e : Nat × Nat × Bool) : Nat :=
  let (primary, twin, pref) := e
  let (a, b) := if pref then (twin, primary) else (primary, twin)
  if (s.conn a).state = .down then b else a

/-- The payload of a QUERY_SCATTER of Kind 0 (17 R567): Scatter clear, and the vectors the search runs with. -/
def scatterPayload (shard coll asOf : Nat) (raw nav full predicate : List Byte) : List Byte :=
  let desc := overlay (raw.take 64) 1 (natLE 1 (fieldAt raw 1 1 - 8 * (bitsOf (fieldAt raw 1 1) 3 3))) ++ nav
  natLE 1 0 ++ natLE 1 0 ++ natLE 2 shard ++ natLE 4 coll ++ natLE 8 asOf ++ natLE 4 desc.length ++ natLE 4 predicate.length ++
    natLE 4 full.length ++ zeroBytes 4 ++ padTo 16 desc ++ padTo 16 predicate ++ padTo 16 full

/-- Ask one shard of a scattered search, at `node` (17 R566). -/
def State.askShard (s : State) (n index node : Nat) (payload : List Byte) : State :=
  let req := s.fab.nextReq
  let cls := ((s.cmd? n).map fun k => cmdClass k.raw).getD 0
  let s := { s with fab := { s.fab with nextReq := (req + 1) % 2 ^ 32, reqs := s.fab.reqs.set req { node := node, what := .shard n index } } }
  let s := match s.search? n with
    | none => s
    | some q =>
      let asks := q.shards.filter fun (a : ShardAsk) => a.index != index
      let old := q.shards.any fun (a : ShardAsk) => a.index == index
      let ask : ShardAsk := { index := index, request := req, node := node, busyOnce := old, summary := payload }
      s.setSearch n { q with shards := asks ++ [ask] }
  s.sendMsg (s.ownMsg 1 cls node req (s.searchDomain n) 0 payload)

/-- Send a search to one replica of each remote shard (R138; 17 R566). Until a shard answers, its record keeps what it was
asked, for the one resend of R139. -/
def State.scatter (s : State) (n coll asOf : Nat) (raw nav full predicate : List Byte) : State :=
  match s.fab.shardMaps.find? coll with
  | none => s
  | some m =>
    m.zipIdx.foldl (fun s e =>
      if e.1.1 = s.nodeId || e.1.2.1 = s.nodeId then s
      else s.askShard n e.2 (s.replica e.1) (scatterPayload e.2 coll asOf raw nav full predicate)) s

/-- Enter the admission queue (R110), taking the structures of R118 and the rules of 05 R180. -/
def State.enqueueSearch (s : State) (n coll : Nat) (c : Coll) (asked : Nat) (d : Desc) (rules : List (List Byte))
    (near : List Word) (enc : Option EncodedPart) : State :=
  let asOf := if asked = 0 then s.wlk.watermark else asked
  let taken (p : SegState → Bool) : List Nat := (c.segs.filter fun e => p e.2.state).map fun e => e.1
  let q : Search :=
    { coll := coll, asOf := asOf, asked := asked, wmAtStart := s.wlk.watermark, desc := d, order := s.wlk.order,
      queuedAt := s.tapeTime, startAt := s.now, stageAt := s.now, needTwo := !rules.isEmpty, rules := rules, near := near,
      segsTaken := taken fun x => x == .sealed || x == .compacting || x == .entering,
      buildTaken := taken fun x => x == .building, tailFrom := c.nextSeal, entrySet := c.mainGraph.entries, breadth := d.breadth,
      encoded := enc }
  { s.setSearch n q with wlk := { (s.setSearch n q).wlk with order := s.wlk.order + 1 } }

/-- A search refused before it runs; the completion still reports a decided insert (15 R506). -/
def State.refuseSearch (s : State) (n : Nat) (st : Status) (enc : Option EncodedPart) : State :=
  s.post n { status := st, search := true, insertOutcome := enc.bind fun e => e.insertOutcome }

/-- Admit a search with a descriptor already read (R110 to R118; 05 R165; 16 R535; 03 R91). `home` is false at a shard; `enc` is
the encoder's share of an ENCODE_SEARCH. -/
def State.admitSearch (s : State) (n coll asked : Nat) (raw predicate : List Byte) (d : Desc) (home : Bool)
    (enc : Option EncodedPart) : State :=
  match s.coll? coll with
  | none => s.refuseSearch n .notFound enc
  | some c =>
    let dom := s.searchDomain n
    let all := s.rulesFor dom coll
    let rules := if home then all else []
    let near := (all.filter fun r => bitOf (fieldAt r 1 1) 2).map fun r => ruleWord r 40
    let share := s.walkerShare dom
    let asOf := if asked = 0 then s.wlk.watermark else asked
    match descRefusal c raw d with
    | some st => s.refuseSearch n st enc
    | none =>
      if bitOf (s.reg pgDom 0x040) 0 && (share = 0 || (share < 2 && !rules.isEmpty)) then s.refuseSearch n .quota enc
      else if asOf < c.horizon then s.refuseSearch n .stale enc
      else
        let s := s.enqueueSearch n coll c asked d rules near enc
        let s := match s.cmd? n with
          | some k => s.setCmd n { k with phase := .started }
          | none => s
        if home && d.scatter then s.scatter n coll asOf raw (d.nav.flatMap (natLE 2)) (d.fullQ.flatMap (natLE 2)) predicate else s

/-- Bytes of the predicate program that a pointer names (05 R162); none for pointer 0. -/
def State.readPredicate (s : State) (k : Cmd) (ptr : Nat) : List Byte :=
  if ptr = 0 then [] else s.cmdRead k ptr (16 + 16 * min 16 (fieldAt (s.cmdRead k ptr 16) 2 1))

/-- SEARCH (R110, R114, R115; 03 R88, R91; 05 R162, R165). -/
def searchCmd (cid : Nat) (k : Cmd) (s : State) : State :=
  let coll := fieldAt k.raw 8 4
  match s.coll? coll with
  | none => s.finish cid .notFound
  | some c =>
    let ptr := cmdPtrA k.raw
    let raw := s.cmdRead k ptr 64
    let predicate := s.readPredicate k (fieldAt raw 32 8)
    let full := if fieldAt raw 8 2 = 0 || fieldAt raw 40 8 = 0 then [] else s.cmdRead k (fieldAt raw 40 8) (2 * c.fullDim)
    s.admitSearch cid coll (cmdPos k.raw) raw predicate (s.descOf c raw (s.cmdRead k (ptr + 64) (2 * c.navDim)) full predicate) true none

def execSearch (t cid : Nat) (s : State) : Host.Outcome State Fault Refusal :=
  done ((s.at t).withCmd cid (·.isNew 0x01) (searchCmd cid))

/-! ### The watermark timeout (03 R89, R90; 04 R149) -/

/-- Let a search go whose command has completed. -/
def State.dropSearch (s : State) (n : Nat) : State :=
  match s.search? n with
  | none => s
  | some q =>
    let reqs := s.fab.reqs.filter fun e => match e.2.what with
      | .shard m _ => m != n
      | _ => true
    ({ s with wlk := { s.wlk with searches := s.wlk.searches.erase n }, fab := { s.fab with reqs := reqs } }).reclaim q.coll

/-- Complete a search that gives no results. -/
def State.failSearch (s : State) (n : Nat) (st : Status) (wm : Option Nat := none) : State :=
  let s := s.bump64 pgWlk 0x0A8
  let ins := ((s.search? n).bind fun q => q.encoded).bind fun e => e.insertOutcome
  (s.post n { status := st, search := true, watermark := wm, insertOutcome := ins }).dropSearch n

/-- WATERMARK_TIMEOUT: WaitUs of tracked tape time have passed and the watermark is still below the position. -/
def watermarkTimeout (n : Nat) (s : State) : State :=
  match s.search? n with
  | none => s
  | some q =>
    if q.stage = .queued && !q.timedOut && s.wlk.watermark < q.asOf && q.queuedAt + q.desc.waitUs * us ≤ s.tapeTime then
      if q.desc.onTimeout then s.failSearch n .busy
      else
        let w := s.wlk.watermark
        let h := ((s.coll? q.coll).map fun c => c.horizon).getD 0
        if w < h then s.failSearch n .stale (some w)
        else s.setSearch n { q with timedOut := true, asOf := w, readyAt := some s.now }
    else s

def execWatermarkTimeout (t cid : Nat) (s : State) : Host.Outcome State Fault Refusal :=
  done ((s.at t).onlyIf s.live (watermarkTimeout cid))

/-! ### Convoys (R132 to R136) -/

/-- The granule that holds a slot's navigation vector: vectors lie in slot order, rows in granule order (log entry 15;
06 R206). -/
def Coll.rowOf (c : Coll) (slot : Nat) : Nat := slot / max 1 (1024 / max 1 (2 * c.navDim))

def State.setConvoy (s : State) (n : Nat) (v : Convoy) : State := { s with wlk := { s.wlk with convoys := s.wlk.convoys.set n v } }

def Convoy.queries (v : Convoy) : List Nat := (v.pairs.map fun p => p.1).eraseDups

/-- A convoy closes: it is counted by its queries and issued as one pass (R132, R136). -/
def State.issue (s : State) (n : Nat) : State :=
  match s.wlk.convoys.find? n with
  | none => s
  | some v =>
    if v.issued then s
    else
      let qs := v.queries
      let s := s.setConvoy n { v with issued := true }
      let k := qs.length - 1
      let s := { s with wlk := { s.wlk with occupancy := s.wlk.occupancy.set k (min 0xFFFFFFFF (s.wlk.occupancy.getD k 0 + 1)) } }
      if qs.length < 2 then s
      else { s with wlk := { s.wlk with searches := qs.foldl (fun t i => t.modify i fun q => { q with convoys := q.convoys + 1 }) s.wlk.searches } }

/-- The window of a convoy in ns; 0 when each pass carries one query (R132, R134, R135, R157). -/
def State.convoyWin (s : State) (flat : Bool) : Nat :=
  if flat then (if bitOf (s.reg pgWlk 0x040) 1 then s.reg pgWlk 0x04C else 0)
  else (if bitOf (s.reg pgWlk 0x040) 0 then s.reg pgWlk 0x048 else 0)

/-- Open a convoy; with no window it closes at once. -/
def State.openConvoy (s : State) (coll row : Nat) (flat : Bool) (pairs : List (Nat × Nat)) : State :=
  let n := s.wlk.nextConvoy
  let s := { s with wlk := { s.wlk with nextConvoy := n + 1,
                                        convoys := s.wlk.convoys.set n { coll := coll, row := row, flat := flat, openedAt := s.now, pairs := pairs } } }
  if s.convoyWin flat = 0 then s.issue n else s

/-- One request: a search needs slots of one row (R132). -/
def State.requestRow (s : State) (n coll row : Nat) (flat : Bool) (slots : List Nat) : State :=
  let pairs := slots.map fun x => (n, x)
  match List.find? (fun e => e.2.coll == coll && e.2.row == row && e.2.flat == flat && !e.2.issued) s.wlk.convoys with
  | none => s.openConvoy coll row flat pairs
  | some (m, v) =>
    if v.openedAt + s.convoyWin flat ≤ s.now then (s.issue m).openConvoy coll row flat pairs
    else
      let s := s.setConvoy m { v with pairs := v.pairs ++ pairs }
      if 32 ≤ (v.queries.filter fun i => i != n).length + 1 then s.issue m else s

/-- Request the scores of slots, one request a row. -/
def State.request (s : State) (n coll : Nat) (c : Coll) (flat : Bool) (slots : List Nat) : State :=
  ((slots.map c.rowOf).eraseDups).foldl (fun s row => s.requestRow n coll row flat (slots.filter fun x => c.rowOf x == row)) s

/-- CONVOY_WINDOW_EXPIRY (R132). -/
def convoyWindowExpiry (n : Nat) (s : State) : State :=
  match s.wlk.convoys.find? n with
  | none => s
  | some v => if v.openedAt + s.convoyWin v.flat ≤ s.now then s.issue n else s

def execConvoyWindowExpiry (t convoy : Nat) (s : State) : Host.Outcome State Fault Refusal :=
  done ((s.at t).onlyIf s.live (convoyWindowExpiry convoy))

/-! ### Scores (06 R205, R228; 01 R22) -/

def State.pnmStack (s : State) (i : Nat) : PnmStack := s.pnm.stackList.getD i {}

/-- The unit of a row is disabled. -/
def State.unitDisabled (s : State) (row : Nat) : Bool := (s.pnmStack (granuleStack row)).disabled.contains (granuleUnit row)

/-- The fallback scorer serves a row (06 R228, R231). -/
def State.fallback (s : State) (row : Nat) : Bool :=
  let ctrl := s.reg (pgPnm (granuleStack row)) 0x040
  !bitOf ctrl 0 || (s.unitDisabled row && bitOf ctrl 2)

/-- A row whose unit is disabled while no fallback serves it returns NaN scores (06 R228). -/
def State.rowLost (s : State) (row : Nat) : Bool := s.unitDisabled row && !s.fallback row

/-- What a pass leaves in the accumulator for a query and a slot. -/
def State.slotAccum (s : State) (c : Coll) (nav : List Nat) (slot : Nat) : Accum :=
  if s.rowLost (c.rowOf slot) then { val := .nan, sat := true }
  else passAccum c.metric c.navFormat nav (((c.slots.find? slot).map fun x => x.nav).getD [])

def State.walkEnv (s : State) (c : Coll) (nav : List Nat) : WalkEnv :=
  { coll := c, now := s.now, score := fun slot => (s.slotAccum c nav slot).score }

/-- Carry what a search counted in WLK's own counters (R156, R158). -/
def State.walkCounts (s : State) (old new : Search) : State :=
  let s := s.when (old.nans < new.nans) (·.bump pgWlk 0x084 (new.nans - old.nans))
  s.when (old.bloomOnly < new.bloomOnly) fun s => (s.bump pgWlk 0x080 (new.bloomOnly - old.bloomOnly)).sticky pgWlk 0x044 1

/-- Drive a search on: request what it needs, or end its walking (R124, R126). -/
def State.driveSearch (s : State) (n : Nat) : State :=
  match s.search? n with
  | none => s
  | some q =>
    if q.stage != .walking || q.aborting then s
    else match s.coll? q.coll with
      | none => s
      | some c =>
        let tag := ((s.cmd? n).map fun k => cmdTag k.raw).getD 0
        let (q', due) := q.drive (s.walkEnv c q.desc.nav) tag driveFuel
        let s := (s.walkCounts q q').setSearch n q'
        if q'.stage = .walked then s.stageEnd n 2 else s.request n q.coll c false due

/-! ### Contexts (R109 to R112, R123, R153; 16 R534) -/

/-- Searches that walk in an engine. -/
def State.engineLoad (s : State) (e : Nat) : List Search :=
  (s.wlk.searches.map fun x => x.2).filter fun q => q.stage != .queued && q.engine == e

/-- Whether a search will run an ExactSample (R152, R157). -/
def State.runsExact (s : State) (q : Search) : Bool := q.desc.exact && bitOf (s.reg pgWlk 0x040) 3

/-- The lowest engine with a free context; for an ExactSample search, one that runs none (R109, R153; log entry 16). -/
def State.freeEngine (s : State) (q : Search) : Option Nat :=
  (List.range 64).find? fun e =>
    let load := s.engineLoad e
    load.length < 64 && !(s.runsExact q && load.any fun x => x.exactEngine)

/-- Whether a Ready search can take its contexts now. -/
def State.canTake (s : State) (n : Nat) (q : Search) : Bool :=
  let need := if q.needTwo then 2 else 1
  let d := s.searchDomain n
  q.stage == .queued && (q.timedOut || q.asOf ≤ s.wlk.watermark) && s.ctxBusy + need ≤ 4096 &&
  (!bitOf (s.reg pgDom 0x040) 0 || s.ctxBusyOf d + need ≤ s.walkerShare d) && (s.freeEngine q).isSome

/-- The Ready search that takes a context next: the oldest that can (R110, R112). -/
def State.nextReady (s : State) : Option (Nat × Search) :=
  (s.wlk.searches.filter fun e => s.canTake e.1 e.2).foldl (fun best e =>
    match best with
    | none => some e
    | some b => if e.2.order < b.2.order then some e else some b) none

/-- SEARCH_CONTEXT_TAKE (R110, R119, R123, R130): the walk starts, seeded, with its flat scans. -/
def searchContextTake (s : State) : State :=
  match s.nextReady with
  | none => s
  | some (n, q) =>
    match s.coll? q.coll with
    | none => s
    | some c =>
      let ready := q.readyAt.getD s.now
      let s := (s.histAdd 0 (ready - q.stageAt)).histAdd 1 (s.now - ready)
      let q := { q with stage := .walking, engine := (s.freeEngine q).getD 0, exactEngine := s.runsExact q, stageAt := s.now,
                        poolFrom := s.now, walks := [{ breadth := q.breadth }], segsLeft := c.newestFirst q.segsTaken }
      let flat := q.flatSlots c
      ((s.setSearch n { q with flat := flat }).request n q.coll c true flat).driveSearch n

def execSearchContextTake (t : Nat) (s : State) : Host.Outcome State Fault Refusal :=
  done ((s.at t).onlyIf (s.live && s.accepts pgWlk) searchContextTake)

/-! ### Passes (R120, R124, R125; 06 R205 to R208, R219) -/

/-- A raw run holds the unit (06 R219). -/
def State.unitHeld (s : State) (stack unit : Nat) : Bool :=
  s.pnm.runs.any fun e => e.2.phase == .running && e.2.stack == stack && e.2.pseudo == unit / 8 && bitOf e.2.mask (unit % 8)

/-- Give one score of a pass to its search; scores of an aborted search are discarded (R147). -/
def State.passScore (s : State) (v : Convoy) (c : Coll) (bad : List (Nat × Nat)) (p : Nat × Nat) : State :=
  match s.search? p.1 with
  | none => s
  | some q =>
    if q.aborting then s
    else
      let a := s.slotAccum c q.desc.nav p.2
      let q' := q.takeScore c p.2 a.score v.flat (!bad.any fun b => b.1 == p.2)
      let s := (s.walkCounts q q').setSearch p.1 q'
      let pg := pgPnm (granuleStack v.row)
      s.when (a.sat && !s.rowLost v.row) fun s => (s.bump pg 0x078).sticky pg 0x044 4

/-- An aborted search whose passes have all drained completes ABORTED (R147). -/
def State.drainAborted (s : State) (n : Nat) : State :=
  match s.search? n with
  | none => s
  | some q =>
    if q.aborting && !(s.wlk.convoys.any fun e => e.2.pairs.any fun p => p.1 == n) then s.failSearch n .aborted else s

/-- WALKER_PASS_COMPLETE: a pass returns its scores, stamps and records. -/
def walkerPassComplete (m : Nat) (bad : List (Nat × Nat)) (s : State) : State :=
  match s.wlk.convoys.find? m with
  | none => s
  | some v =>
    match s.coll? v.coll with
    | none => { s with wlk := { s.wlk with convoys := s.wlk.convoys.erase m } }
    | some c =>
      if !v.issued || s.unitHeld (granuleStack v.row) (granuleUnit v.row) ||
          !s.pseudoOpen (granuleStack v.row) (granuleUnit v.row / 8) then s
      else
        let s := { s with wlk := { s.wlk with convoys := s.wlk.convoys.erase m } }
        let pg := pgPnm (granuleStack v.row)
        let s := (s.bump64 pg 0x068).when (s.fallback v.row) (·.bump pg 0x084)
        let s := bad.foldl (fun s b => s.heartBad b.2 0 none) s
        let s := v.pairs.foldl (fun s p => s.passScore v c bad p) s
        v.queries.foldl (fun s n => (s.driveSearch n).drainAborted n) s

def execWalkerPassComplete (t pass : Nat) (badRecords : List (Nat × Nat)) (s : State) : Host.Outcome State Fault Refusal :=
  done ((s.at t).onlyIf s.live (walkerPassComplete pass badRecords))

/-! ### Registers with their own steps, stragglers (R144, R155, R156) -/

/-- WLK_HIST_CLEAR (R156). -/
def execWlkHistClear (t fn : Nat) (val : Word) (s : State) : Host.Outcome State Fault Refusal :=
  done ((s.at t).onlyIf (s.live && fn == 0 && val == 1) fun s => { s with wlk := { s.wlk with hist := [] } })

/-- Full vectors of `size` bytes that the cache holds (R144). -/
def State.fvcRoom (s : State) (size : Nat) : Nat := s.reg pgWlk 0x068 * 2 ^ 28 / max 1 size

/-- Bytes that cached full vectors take. -/
def State.fvcBytes (s : State) (es : List (Nat × Nat)) : Nat :=
  (es.map fun e => match s.coll? e.1 with
    | none => 0
    | some c => fullBytes c.fullFormat c.fullDim).sum

/-- Evict oldest entries until the cache fits its extents (R144; log entry 17). -/
def State.fvcShrink (s : State) : Nat → State
  | 0 => s
  | n + 1 => if s.fvcBytes s.wlk.fvc ≤ s.reg pgWlk 0x068 * 2 ^ 28 then s
             else State.fvcShrink { s with wlk := { s.wlk with fvc := s.wlk.fvc.drop 1 } } n

/-- WLK_FVC_EXTENTS_WRITE (R144, R156; 12 R408): the size is charged to domain 0, and a shrunk cache evicts at once. A growth
that domain 0's quota or free extents refuse leaves the size as it was (log entry 18). -/
def fvcExtentsWrite (val : Nat) (s : State) : State :=
  let old := s.reg pgWlk 0x068
  let new := min 64 val
  if new ≤ old then
    let s := (s.giveHeart 0 (old - new)).setReg pgWlk 0x068 new
    s.fvcShrink s.wlk.fvc.length
  else match s.takeHeart 0 (new - old) with
    | (s, false) => s
    | (s, true) => s.setReg pgWlk 0x068 new

def execWlkFvcExtentsWrite (t fn : Nat) (val : Word) (s : State) : Host.Outcome State Fault Refusal :=
  done ((s.at t).onlyIf (s.live && fn == 0) (fvcExtentsWrite val.toNat))

/-- The 99th percentile of a list of durations: the smallest at or above which at most one in a hundred lies. -/
def percentile99 (ds : List Nat) : Nat :=
  let sorted := sortBy (fun (a b : Nat) => decide (a ≤ b)) ds
  sorted.getD (ceilDiv (99 * ds.length) 100 - 1) 0

/-- STRAGGLER_CHECK (R155): at the end of each second of tracked tape time. -/
def stragglerCheck (s : State) : State :=
  if s.tapeTime < s.wlk.slowFrom + oneSec then s
  else
    let p := percentile99 s.wlk.slow
    let limit := s.reg pgWlk 0x08C
    let s := { s with wlk := { s.wlk with slowFrom := s.tapeTime, slow := [] } }
    if limit = 0 || p ≤ limit * us then s else (s.sticky pgWlk 0x044 4).sendFault pgWlk .straggler

def execStragglerCheck (t : Nat) (s : State) : Host.Outcome State Fault Refusal :=
  done ((s.at t).onlyIf s.live stragglerCheck)

end Sys2Proof.Machine
end

