-- ==== Sys2Proof/Machine/CueTable.lean ====
section
/-!
DEFINITION. The Cue Table: entries, writes and their refusals, scheduled commands, and the entry window (02 R49 to R54, R64,
R749).
-/

namespace Sys2Proof.Machine

def State.cueEntry (s : State) (i : Nat) : CueEntry := s.cue.entries.getD i {}

def State.withCue (s : State) (f : CueBlock → CueBlock) : State := { s with cue := f s.cue }

/-- Entries that hold nothing are not listed. -/
def State.setCueEntry (s : State) (i : Nat) (e : CueEntry) : State :=
  s.withCue fun b => { b with entries := if e = {} then b.entries.erase i else b.entries.set i e }

/-- An entry image (R49). -/
def entryOf (bs : List Byte) : CueEntry :=
  { version := fieldAt bs 0 1, trigger := fieldAt bs 1 1, action := fieldAt bs 2 1, flags := fieldAt bs 3 1, owner := fieldAt bs 4 2,
    value := fieldAt bs 8 8, period := fieldAt bs 16 8, arg := fieldAt bs 24 8 }

def CueEntry.bytes (e : CueEntry) : List Byte :=
  natLE 1 e.version ++ natLE 1 e.trigger ++ natLE 1 e.action ++ natLE 1 e.flags ++ natLE 2 e.owner ++ zeroBytes 2 ++ natLE 8 e.value ++
    natLE 8 e.period ++ natLE 8 e.arg

def CueEntry.armed (e : CueEntry) : Bool := bitOf e.flags 0
def CueEntry.scheduled (e : CueEntry) : Bool := bitOf e.flags 1
def CueEntry.onPosition (e : CueEntry) : Bool := e.trigger == 1 || e.trigger == 3
def CueEntry.periodic (e : CueEntry) : Bool := e.trigger == 3 || e.trigger == 4

/-- The refusals of an entry write (R50, R52; 00 R15). -/
def CueEntry.refusal (e : CueEntry) : Option Status :=
  if e.trigger = 0 then none
  else if e.version / 16 != 1 then some .version
  else if 4 < e.trigger || e.action = 0 || 8 < e.action || (e.trigger == 3 && decide (e.period < 256)) ||
      (e.trigger == 4 && decide (e.period < 10000)) || (!e.periodic && e.period != 0) then some .malformed
  else if e.owner != 0 && 4 ≤ e.action then some .denied
  else none

/-- The flags without Scheduled. -/
def CueEntry.unscheduled (e : CueEntry) : CueEntry := { e with flags := e.flags - 2 * boolNat e.scheduled, holds := none }

/-- Write an entry (R50, R749): a command that the entry held completes ABORTED unless the new contents keep it. -/
def State.writeCue (s : State) (i : Nat) (e : CueEntry) : State × Status :=
  match e.refusal with
  | some st => (s, st)
  | none =>
    match (s.cueEntry i).holds with
    | none => (s.setCueEntry i e.unscheduled, .ok)
    | some cid =>
      if e.trigger != 0 && e.armed && e.scheduled then (s.setCueEntry i { e with holds := some cid }, .ok)
      else ((s.setCueEntry i e.unscheduled).finish cid .aborted, .ok)

/-- Disarm an entry (R749). -/
def State.disarmCue (s : State) (i : Nat) : State :=
  let e := s.cueEntry i
  let off (e : CueEntry) : CueEntry := { e with flags := e.flags - boolNat e.armed }
  match e.holds with
  | none => s.setCueEntry i (off e)
  | some cid => (s.setCueEntry i (off e).unscheduled).finish cid .aborted

/-- Cue entries that count against a domain's quota (R53; 16 R524). -/
def State.cuesOf (s : State) (d : Nat) : Nat := s.cue.entries.countP fun e => e.owner == d && e.trigger != 0

/-- The lowest free entry (R53). -/
def State.freeCue (s : State) : Option Nat := (List.range 4096).find? fun i => (s.cueEntry i).trigger == 0

/-- Whether a command asks to be scheduled (R53). -/
def State.toSchedule (s : State) (k : Cmd) : Bool := cmdPos k.raw != 0 && decide (s.tapePos < cmdPos k.raw)

/-- Place a scheduled command in the table (R53). -/
def State.schedule (s : State) (cid : Nat) (k : Cmd) (action arg : Nat) : State :=
  if !bitOf k.classes 4 then s.finish cid .denied
  else if (s.domain k.domain).cueQuota ≤ s.cuesOf k.domain then s.finish cid .quota
  else match s.freeCue with
    | none => s.finish cid .quota
    | some i =>
      (s.setCueEntry i { version := 0x10, trigger := 1, action := action, flags := 3, owner := k.domain, value := cmdPos k.raw, arg := arg,
                         holds := some cid }).setCmd cid { k with phase := .waiting }

/-- The entry that holds a command. -/
def State.cueHolding (s : State) (cid : Nat) : Option Nat :=
  (List.find? (fun e => e.2.holds == some cid) s.cue.entries).map fun e => e.1

/-- Free the entry of a scheduled command, which completes with `st` (R54; 16 R522). -/
def State.unschedule (s : State) (cid : Nat) (st : Status) : State :=
  match s.cueHolding cid with
  | none => s
  | some i => (s.setCueEntry i {}).finish cid st

/-! ### The entry window (R64) -/

def cueSel (s : State) : Nat := bitsOf (s.reg pgCue 0x100) 11 0

/-- The window's image. -/
def State.cueWindow (s : State) : List Byte := (List.range 8).flatMap fun i => natLE 4 (s.reg pgCue (0x120 + 4 * i))

def State.setCueStat (s : State) (st : Status) : State := s.withCue fun b => { b with entStat := st.code }

/-- CUE_ENT_READ: the selected entry into the window. -/
def execCueEntRead (t fn : Nat) (s : State) : Host.Outcome State Fault Refusal :=
  done ((s.at t).onlyIf (s.live && fn == 0) fun s =>
    let bs := (s.cueEntry (cueSel s)).bytes
    ((List.range 8).foldl (fun s i => s.setReg pgCue (0x120 + 4 * i) (fieldAt bs (4 * i) 4)) s).setCueStat .ok)

/-- CUE_ENT_WRITE: the window into the selected entry. -/
def execCueEntWrite (t fn : Nat) (s : State) : Host.Outcome State Fault Refusal :=
  done ((s.at t).onlyIf (s.live && fn == 0) fun s =>
    let (s', st) := s.writeCue (cueSel s) (entryOf s.cueWindow)
    s'.setCueStat st)

/-- CUE_ENT_DISARM. -/
def execCueEntDisarm (t fn : Nat) (s : State) : Host.Outcome State Fault Refusal :=
  done ((s.at t).onlyIf (s.live && fn == 0) fun s => (s.disarmCue (cueSel s)).setCueStat .ok)

/-- CUE_ENT_CMD_INVALID: any value but 1, 2 and 3. -/
def execCueEntCmdInvalid (t fn : Nat) (val : Word) (s : State) : Host.Outcome State Fault Refusal :=
  done ((s.at t).onlyIf (s.live && fn == 0 && !(1 ≤ val.toNat && val.toNat ≤ 3)) fun s => s.setCueStat .malformed)

/-- CUE_WRITE (R50, R749; 15 R505). -/
def cueWrite (cid : Nat) (k : Cmd) (s : State) : State :=
  let i := fieldAt k.raw 52 2
  if 4096 ≤ i then s.finish cid .malformed
  else
    let (s, st) := s.writeCue i (entryOf (s.cmdRead k (cmdPtrA k.raw) 32))
    s.finish cid st

def execCueWrite (t cid : Nat) (s : State) : Host.Outcome State Fault Refusal :=
  done ((s.at t).withCmd cid (·.isAdmin 0x60) (cueWrite cid))

end Sys2Proof.Machine
end

