-- ==== Sys2Proof/Machine/Tables.lean ====
section
/-!
DEFINITION. Embedding tables: rows, versions and switches, gathers and pooling, updates, hot rows (10 R326 to R359).
-/

namespace Sys2Proof.Machine

def State.tab? (s : State) (n : Nat) : Option Tab := s.gth.tables.find? n

def State.setTab (s : State) (n : Nat) (v : Tab) : State := { s with gth := { s.gth with tables := s.gth.tables.set n v } }

/-- A table that commands can name (R356). -/
def State.openTab? (s : State) (n : Nat) : Option Tab :=
  match s.tab? n with
  | some t => if t.isClosed.isNone then some t else none
  | none => none

def State.gthBad (s : State) (bit : Nat) : State := s.sticky pgGth 0x044 bit

/-! ### Rows (R327 to R330) -/

def Tab.elemBytes (t : Tab) : Nat := if t.fmt = 0 then t.elems / 2 else if t.fmt = 1 then t.elems else 2 * t.elems

/-- Offset of the optimiser state. -/
def Tab.stateAt (t : Tab) : Nat := roundUp (t.elemBytes + (if t.fmt = 2 then 0 else 2)) 4

/-- Row stride (R327). -/
def Tab.stride (t : Tab) : Nat :=
  roundUp (if t.adagrad then t.stateAt + 4 else t.elemBytes + (if t.fmt = 2 then 0 else 2)) 32

/-- The stored row of a slot. -/
def Tab.rowBytes (t : Tab) (uid row : Nat) : List Byte :=
  ((t.vers.find? uid).bind fun v => v.rows.find? row).getD (zeroBytes t.stride)

/-- The values that a stored row stands for (R327). -/
def Tab.values (t : Tab) (bs : List Byte) : List Fl :=
  if t.fmt = 2 then (List.range t.elems).map fun e => Fl.ofBits fp16 (fieldAt bs (2 * e) 2)
  else
    let s := Fl.ofBits fp16 (fieldAt bs t.elemBytes 2)
    (List.range t.elems).map fun e =>
      let d := if t.fmt = 0 then signedOf 4 (bitsOf (fieldAt bs (e / 2) 1) (4 * (e % 2) + 3) (4 * (e % 2))) else signedOf 8 (fieldAt bs e 1)
      (Fl.ofInt d).mul s

/-- The Adagrad accumulator of a stored row. -/
def Tab.accOf (t : Tab) (bs : List Byte) : Fl := f32 (BitVec.ofNat 32 (fieldAt bs t.stateAt 4))

/-- The key of an index, none where it is out of range (R329, R331, R339). -/
def State.keyOf (s : State) (t : Tab) (i : Nat) : Option Nat :=
  if t.kind = 1 then some ((i * t.hashMult % 2 ^ 64) / 2 ^ 32 * t.rowCount / 2 ^ 32)
  else if t.kind = 2 then
    let ra := ((s.tab? t.accA).map fun x => x.rowCount).getD 0
    let rb := ((s.tab? t.accB).map fun x => x.rowCount).getD 0
    if i < ra * rb then some i else none
  else if i < t.rowCount then some i else none

/-- The slot that a command took for a table and the version it asks (R333). -/
def Cmd.slotFor (k : Cmd) (table asked : Nat) : Option Nat :=
  (k.versions.find? fun e => e.1 == table && e.2.1 == asked).map fun e => e.2.2

/-- The version number for the current one. -/
def currentVersion : Nat := 0xFFFFFFFF

/-- What a command takes for one table it names (R332, R333): its slot, or the components' for an Accord table. -/
def State.takeVersion (s : State) (table asked : Nat) : List (Nat × Nat × Nat) :=
  match s.openTab? table with
  | none => []
  | some t =>
    if t.kind = 2 then
      if asked != currentVersion then []
      else match s.tab? t.accA, s.tab? t.accB with
        | some a, some b => [(table, asked, 0), (t.accA, asked, a.current), (t.accB, asked, b.current)]
        | _, _ => []
    else if asked = currentVersion then [(table, asked, t.current)]
    else match List.find? (fun v => v.2.num == asked && !v.2.dropped) t.vers with
      | none => []
      | some v => [(table, asked, v.1)]

/-- The stored rows that a key of a table names: table, slot and row (R330, R340). -/
def State.rowsOf (s : State) (k : Cmd) (n : Nat) (t : Tab) (asked key : Nat) : List (Nat × Nat × Nat) :=
  if t.kind = 2 then
    let ra := max 1 (((s.tab? t.accA).map fun x => x.rowCount).getD 1)
    [(t.accA, (k.slotFor t.accA asked).getD 0, key % ra), (t.accB, (k.slotFor t.accB asked).getD 0, key / ra)]
  else [(n, (k.slotFor n asked).getD 0, key)]

/-- The values of one stored row. -/
def State.rowValues (s : State) (r : Nat × Nat × Nat) : List Fl :=
  match s.tab? r.1 with
  | none => []
  | some t => t.values (t.rowBytes r.2.1 r.2.2)

/-- The values of the row that a key names (R327, R330). -/
def State.keyValues (s : State) (k : Cmd) (n : Nat) (t : Tab) (asked key : Nat) : List Fl :=
  match (s.rowsOf k n t asked key).map s.rowValues with
  | [v] => v
  | [a, b] => (a.zip b).map fun p => (if t.accProduct then p.1.mul p.2 else p.1.add p.2).round fp32
  | _ => []

/-! ### Bags and pooling (R337 to R343) -/

/-- One bag of a request, its indices and weights read (R337, R338). -/
structure Bag where
  table  : Nat
  asked  : Nat
  idx    : List Nat
  ws     : List Word
  sample : Nat
  off    : Nat
  count  : Nat
  deriving DecidableEq, Repr

/-- A bag record; its lists are read only where `count` lies in its range. -/
def State.bagAt (s : State) (k : Cmd) (raw : List Byte) : Bag :=
  let n := fieldAt raw 24 4
  let m := if 16777216 < n then 0 else n
  let wp := fieldAt raw 16 8
  { table := fieldAt raw 0 4, asked := fieldAt raw 4 4, sample := fieldAt raw 28 2, off := fieldAt raw 30 2, count := n,
    idx := (List.range m).map fun i => leNat (s.cmdRead k (fieldAt raw 8 8 + 8 * i) 8),
    ws := (List.range m).map fun i => if wp = 0 then 0x3F800000#32 else BitVec.ofNat 32 (leNat (s.cmdRead k (wp + 4 * i) 4)) }

def State.bagWidth (s : State) (b : Bag) : Nat := ((s.tab? b.table).map fun t => t.elems).getD 0

/-- The checks of R338 on bags of output vectors of `width` elements. -/
def State.bagRefusal (s : State) (k : Cmd) (bags : List Bag) (samples width : Nat) : Option Status :=
  if bags.any fun b => ((s.tab? b.table).map fun t => t.owner != k.domain).getD false then some .denied
  else if bags.any fun b => (k.slotFor b.table b.asked).isNone then some .notFound
  else if (bags.any fun b => b.count = 0 || 16777216 < b.count || samples ≤ b.sample || width < b.off + s.bagWidth b) ||
      16777216 < (bags.map fun b => b.count).sum ||
      (bags.zipIdx.any fun x => (bags.take x.2).any fun y =>
        y.sample == x.1.sample && decide (y.off < x.1.off + s.bagWidth x.1) && decide (x.1.off < y.off + s.bagWidth y)) then some .malformed
  else none

/-- The distinct keys of a bag in ascending order, with each key's weight summed exactly and rounded once (R339). -/
def State.weightSums (s : State) (t : Tab) (b : Bag) : List (Nat × Fl) :=
  let tbl := (b.idx.zip b.ws).foldl (fun (m : Table (List Fl)) e => match s.keyOf t e.1 with
    | none => m
    | some key => m.set key (m.getD key [] ++ [f32 e.2])) []
  tbl.map fun e => (e.1, (Fl.sum e.2).round fp32)

/-- A bag's pooled row in FP32 (R339). -/
def State.poolBag (s : State) (k : Cmd) (b : Bag) : List Fl :=
  match s.tab? b.table with
  | none => []
  | some t =>
    (s.weightSums t b).foldl (fun acc e =>
      (acc.zip (s.keyValues k b.table t b.asked e.1)).map fun p => (p.1.add (e.2.mul p.2)).round fp32)
      (List.replicate t.elems Fl.zero)

/-- An output vector of `width` elements; elements that no bag covers are zero (R338). -/
def State.poolSample (s : State) (k : Cmd) (bags : List Bag) (sample width : Nat) : List Fl :=
  (bags.filter fun b => b.sample == sample).foldl (fun v b =>
    v.take b.off ++ s.poolBag k b ++ v.drop (b.off + s.bagWidth b)) (List.replicate width Fl.zero)

/-- The distinct stored rows that a request reads (R340). -/
def State.distinctRows (s : State) (k : Cmd) (bags : List Bag) : List (Nat × Nat × Nat) :=
  ((bags.flatMap fun b => match s.tab? b.table with
    | none => []
    | some t => ((b.idx.filterMap (s.keyOf t)).map fun key => (b.table, b.asked, key))).eraseDups).flatMap fun x =>
      match s.tab? x.1 with
      | none => []
      | some t => s.rowsOf k x.1 t x.2.1 x.2.2

def State.oorCount (s : State) (bags : List Bag) : Nat :=
  (bags.map fun b => match s.tab? b.table with
    | none => 0
    | some t => (b.idx.filter fun i => (s.keyOf t i).isNone).length).sum

/-- A row whose entry is Moved is read from the hot area while TopReadEnable is set (R350, R358). -/
def State.rowFromTop (s : State) (r : Nat × Nat × Nat) : Bool :=
  bitOf (s.reg pgGth 0x040) 1 && ((s.tab? r.1).map fun t => t.dir.getD (r.2.1 * 2 ^ 32 + r.2.2) 0 % 4 == 2).getD false

/-- Count row reads, and note the hot rows as read most recently (R353, R357). -/
def State.noteReads (s : State) (rows : List (Nat × Nat × Nat)) (taken oor fromTop : Nat) : State :=
  let s := rows.foldl (fun s r => match s.tab? r.1 with
    | none => s
    | some t => if t.hot.contains r.2 then s.setTab r.1 { t with hot := t.hot.erase r.2 ++ [r.2] } else s) s
  let s := (s.bump64 pgGth 0x058 rows.length).bump64 pgGth 0x060 taken
  ((s.bump pgGth 0x068 oor).bump pgGth 0x06C fromTop).when (0 < oor) (·.gthBad 2)

/-- A failed row read goes to FLT from the memory that failed (R344; 12 R388, R403). -/
def State.rowFault (s : State) (r : RowReads) : State :=
  match r with
  | .allRead => s
  | .hotFailed off => s.topBad off
  | .homeFailed loc => s.heartBad loc 0 none

/-- What a gather's rows give: counts taken, or UNCORRECTED (R344). -/
def State.gatherRows (s : State) (k : Cmd) (bags : List Bag) (reads : RowReads) : State × Nat × Nat × Nat × Bool :=
  let rows := s.distinctRows k bags
  let top := (rows.filter s.rowFromTop).length
  let top := match reads with
    | .hotFailed _ => 0
    | _ => top
  let oor := s.oorCount bags
  let s := (s.noteReads rows (bags.map fun b => b.count).sum oor top).rowFault reads
  (s, rows.length, oor, top, match reads with
    | .homeFailed _ => false
    | _ => true)

/-- One output element: its bytes, whether it saturated, whether it is not finite (R341). -/
def outElem (wide : Bool) (x : Fl) : List Byte × Bool × Bool :=
  if !x.isFinite then (if wide then natLE 4 (x.bits fp32) else natLE 2 (x.bits fp16), false, true)
  else if wide then (natLE 4 (x.bits fp32), false, false)
  else if Fl.lt (.ofInt 65504) x.abs then (natLE 2 (if Fl.lt x Fl.zero then 0xFBFF else 0x7BFF), true, false)
  else (natLE 2 (x.bits fp16), false, false)

/-- The unique-with-counts request of a larger gather (R340; 07 R248). -/
def State.uniqueOf (s : State) (bags : List Bag) : CstUnique :=
  let rows := bags.zipIdx.flatMap fun b => match s.tab? b.1.table with
    | none => []
    | some t => (b.1.idx.zip b.1.ws).filterMap fun e => (s.keyOf t e.1).map fun key => (key, b.2, e.2)
  { values := rows.map fun r => r.1, bags := rows.map fun r => r.2 }

/-- Pool a gather and post it (R339 to R342). -/
def State.gatherOut (s : State) (cid : Nat) (k : Cmd) (bags : List Bag) (samples width : Nat) (wide : Bool) (reads : RowReads) : State :=
  let taken := (bags.map fun b => b.count).sum
  let (s, distinct, oor, top, good) := s.gatherRows k bags reads
  let s := { s with cst := { s.cst with uniques := s.cst.uniques.erase cid } }
  if !good then s.finish cid .uncorrected
  else
    let els := ((List.range samples).flatMap fun i => s.poolSample k bags i width).map (outElem wide)
    let sat := (els.filter fun e => e.2.1).length
    let bad := (els.filter fun e => e.2.2).length
    let s := (s.bump pgGth 0x084 sat).bump pgGth 0x078 bad
    let s := (s.when (0 < sat) (·.gthBad 8)).when (0 < bad) (·.gthBad 4)
    let header := natLE 1 0x10 ++ natLE 1 (boolNat (0 < oor) + 2 * boolNat (0 < bad) + 4 * boolNat (0 < sat)) ++ zeroBytes 2 ++
      natLE 4 taken ++ natLE 4 distinct ++ natLE 4 oor ++ natLE 4 top ++ natLE 4 bad ++ natLE 4 sat ++ zeroBytes 4
    (s.cmdWrite cid (cmdPtrC k.raw) 0 (header ++ els.flatMap fun e => e.1)).finish cid .ok samples

/-- GATHER (R337 to R344): a request of more than 64 indices waits for CST's unique values first. -/
def gather (cid : Nat) (k : Cmd) (reads : RowReads) (s : State) : State :=
  let h := s.cmdRead k (cmdPtrA k.raw) 16
  let n := fieldAt h 2 2
  let samples := fieldAt h 4 4
  let width := fieldAt h 8 2
  if fieldAt h 0 1 / 16 != 1 then s.finish cid .version
  else if n = 0 || 4096 < n then s.finish cid .malformed
  else
    let bags := (List.range n).map fun j => s.bagAt k (s.cmdRead k (cmdPtrA k.raw + 16 + 32 * j) 32)
    match s.bagRefusal k bags samples width with
    | some st => s.finish cid st
    | none =>
      if samples = 0 || 4096 < samples || width < 16 || 4096 < width then s.finish cid .malformed
      else if (bags.map fun b => b.count).sum ≤ 64 then s.gatherOut cid k bags samples width (bitOf (fieldAt h 1 1) 0) reads
      else match s.cst.uniques.find? cid with
        | none => ({ s with cst := { s.cst with uniques := s.cst.uniques.set cid (s.uniqueOf bags) } }).setCmd cid { k with phase := .started }
        | some u => if u.served then s.gatherOut cid k bags samples width (bitOf (fieldAt h 1 1) 0) reads else s

/-- A GATHER that is new, or that waits for its unique values. -/
def Cmd.isGather (k : Cmd) : Bool := cmdOpcode k.raw == 0x10 && (k.phase == .admitted || k.phase == .started)

def execGather (t cid : Nat) (reads : RowReads) (s : State) : Host.Outcome State Fault Refusal :=
  done ((s.at t).withCmd cid (fun k => k.isGather && (s.at t).accepts pgGth) fun k s => gather cid k reads s)

/-! ### Creation and destruction (R326 to R330, R356) -/

def tabOf (d : List Byte) : Tab :=
  { kind := fieldAt d 1 1, fmt := fieldAt d 2 1, adagrad := bitOf (fieldAt d 3 1) 0, autoHot := bitOf (fieldAt d 3 1) 1, owner := fieldAt d 4 2,
    elems := fieldAt d 6 2, rowCount := fieldAt d 8 8, hashMult := fieldAt d 16 8, accA := fieldAt d 24 4, accB := fieldAt d 28 4,
    accProduct := fieldAt d 32 1 == 1, slots := fieldAt d 33 1, vers := if fieldAt d 1 1 = 2 then [] else [(0, { num := fieldAt d 40 4 })] }

/-- The ranges of R326 and the component checks of R330. -/
def State.tabOk (s : State) (d : List Byte) (t : Tab) : Bool :=
  let accord := t.kind == 2
  t.kind ≤ 2 && (accord || t.fmt ≤ 2) && 16 ≤ t.elems && t.elems ≤ 1024 && t.elems % 16 == 0 &&
  (if accord then t.rowCount == 0 else 1 ≤ t.rowCount && t.rowCount ≤ 4294967296) &&
  (if t.kind == 1 then t.hashMult % 2 == 1 else t.hashMult == 0) &&
  (if accord then t.slots == 0 else 1 ≤ t.slots && t.slots ≤ 4) && fieldAt d 34 1 ≤ 64 && fieldAt d 36 4 < 65536 &&
  (accord || fieldAt d 40 4 != currentVersion) && t.owner < s.dom.fuses.maxDomains &&
  (!accord || (fieldAt d 32 1 ≤ 1 && match s.openTab? t.accA, s.openTab? t.accB with
    | some a, some b => a.kind == 0 && b.kind == 0 && a.owner == t.owner && b.owner == t.owner && a.elems == t.elems && b.elems == t.elems
    | _, _ => false))

/-- TABLE_CREATE (R326, R328). -/
def tableCreate (cid : Nat) (k : Cmd) (s : State) : State :=
  let d := s.cmdRead k (cmdPtrA k.raw) 64
  let t := tabOf d
  let n := fieldAt d 36 4
  if fieldAt d 0 1 / 16 != 1 then s.finish cid .version
  else if !s.tabOk d t then s.finish cid .malformed
  else if (s.tab? n).isSome then s.finish cid .busy
  else if (s.domain t.owner).state != .active then s.finish cid .notFound
  else
    let ext := if t.kind = 2 then 0 else t.slots * ceilDiv t.rowCount (268435456 / t.stride)
    match s.takeHeart t.owner ext with
    | (s, false) => s.finish cid .quota
    | (s, true) =>
      match s.takeTop t.owner (fieldAt d 34 1) with
      | (s, none) => (s.giveHeart t.owner ext).finish cid .quota
      | (s, some fs) => (s.setTab n { t with extents := ext, frames := fs, autoAt := s.tapeTime }).finish cid .ok

def execTableCreate (t cid : Nat) (s : State) : Host.Outcome State Fault Refusal :=
  done ((s.at t).withCmd cid (·.isAdmin 0x28) (tableCreate cid))

/-- TABLE_DESTROY (R330, R356): the table closes at once. -/
def tableDestroy (cid : Nat) (k : Cmd) (s : State) : State :=
  let n := fieldAt k.raw 8 4
  match s.openTab? n with
  | none => s.finish cid .notFound
  | some t =>
    if s.gth.tables.any fun e => e.2.kind == 2 && (e.2.accA == n || e.2.accB == n) then s.finish cid .busy
    else (s.setTab n { t with isClosed := some cid }).setCmd cid { k with phase := .waiting }

def execTableDestroy (t cid : Nat) (s : State) : Host.Outcome State Fault Refusal :=
  done ((s.at t).withCmd cid (·.isAdmin 0x29) (tableDestroy cid))

/-- Whether a command names a table (R333, R335, R345). -/
def Cmd.namesTab (k : Cmd) (n : Nat) : Bool :=
  (k.versions.any fun e => e.1 == n) || ([0x11, 0x12].contains (cmdOpcode k.raw) && fieldAt k.raw 8 4 == n)

/-- The last admitted command that names a closed table has completed (R356). -/
def State.drainTab (s : State) (n : Nat) : State :=
  match s.tab? n with
  | none => s
  | some t =>
    match t.isClosed with
    | none => s
    | some cid =>
      if s.qmg.cmds.any fun e => e.2.namesTab n then s
      else
        let s := (s.giveHeart t.owner t.extents).giveTop t.owner t.frames
        ({ s with gth := { s.gth with tables := s.gth.tables.erase n } }).finish cid .ok

/-! ### Updates (R345 to R349) -/

def updTable (raw : List Byte) : Nat := fieldAt raw 8 4
def updCount (raw : List Byte) : Nat := cmdPtrC raw

/-- A TABLE_UPDATE of a sub-operation, not started yet. -/
def Cmd.isUpdate (k : Cmd) (sub : Nat) : Bool := k.isNew 0x11 && fieldAt k.raw 48 1 == sub

/-- An earlier TABLE_UPDATE of the table that has not completed: updates apply in order of admission (R349). -/
def State.updBehind (s : State) (cid : Nat) (k : Cmd) : Bool :=
  s.qmg.cmds.any fun e => decide (e.1 < cid) && cmdOpcode e.2.raw == 0x11 && updTable e.2.raw == updTable k.raw

/-- The indices of a TABLE_UPDATE. -/
def State.updIndices (s : State) (k : Cmd) : List Nat :=
  (List.range (updCount k.raw)).map fun i => leNat (s.cmdRead k (cmdPtrA k.raw + 8 * i) 8)

/-- Write a stored row (R346, R348). -/
def State.putRow (s : State) (r : Nat × Nat × Nat) (bs : List Byte) : State :=
  match s.tab? r.1 with
  | none => s
  | some t => s.setTab r.1 { t with vers := t.vers.modify r.2.1 fun v => { v with rows := v.rows.set r.2.2 bs } }

/-- Out-of-range entries of an update are counted (R331). -/
def State.countOor (s : State) (n : Nat) : State := (s.bump pgGth 0x068 n).when (0 < n) (·.gthBad 2)

/-- WRITE_ROWS (R345, R346). -/
def writeRows (cid : Nat) (k : Cmd) (s : State) : State :=
  let n := updTable k.raw
  let c := updCount k.raw
  match s.tab? n, k.slotFor n (fieldAt k.raw 12 4) with
  | some t, some uid =>
    if !bitOf (s.reg pgGth 0x040) 0 then s.finish cid .denied
    else if t.kind = 2 || c = 0 || 16777216 < c then s.finish cid .malformed
    else
      let es := (s.updIndices k).zipIdx.filterMap fun e => (s.keyOf t e.1).map fun row => (row, e.2)
      let s := es.foldl (fun s e => s.putRow (n, uid, e.1) (s.cmdRead k (cmdPtrB k.raw + t.stride * e.2) t.stride)) s
      ((s.countOor (c - es.length)).bump pgGth 0x07C ((es.map fun e => e.1).eraseDups).length).finish cid .ok es.length
  | _, _ => s.finish cid .notFound

def execWriteRows (t cid : Nat) (s : State) : Host.Outcome State Fault Refusal :=
  done ((s.at t).withCmd cid (fun k => k.isUpdate 0 && (s.at t).accepts pgGth && !(s.at t).updBehind cid k) (writeRows cid))

/-- The largest magnitude. -/
def maxAbs (ws : List Fl) : Fl := ws.foldl (fun m w => if Fl.lt m w.abs then w.abs else m) Fl.zero

/-- The scale of R348: m / Fmax rounded up to FP16, held at 65,504. -/
def scaleOf (m : Fl) (fmax : Nat) : Nat :=
  let b := ((m.div fp16 (.ofInt fmax)).bits fp16)
  let b := if Fl.lt ((Fl.ofBits fp16 b).mul (.ofInt fmax)) m then b + 1 else b
  min 0x7BFF b

/-- A stored row of new values, with how many were held (R348). A NaN gives an element that the manual does not state: a free value. -/
def Tab.store (t : Tab) (free : Nat) (ws : List Fl) : List Byte × Nat :=
  if t.fmt = 2 then
    let es := ws.map (outElem false)
    (es.flatMap fun e => e.1, (es.filter fun e => e.2.1).length)
  else
    let fmax := if t.fmt = 0 then 7 else 127
    let sb := scaleOf (maxAbs ws) fmax
    let s := Fl.ofBits fp16 sb
    let qs := ws.zipIdx.map fun e =>
      if e.1.isNaN then ((((Config.freeByte (free * 2 ^ 32 + e.2)).toNat % (2 * fmax + 1) : Nat) : Int) - fmax, false)
      else if sb = 0 then (0, false)
      else if Fl.lt (s.mul (.ofInt fmax)) e.1.abs then ((if Fl.lt e.1 Fl.zero then -(fmax : Int) else fmax), true)
      else (Fl.divRound e.1 s, false)
    let bytes := if t.fmt = 1 then qs.flatMap fun q => natLE 1 (toTwos 8 q.1)
      else (List.range (t.elems / 2)).map fun i => BitVec.ofNat 8 (toTwos 4 (qs.getD (2 * i) (0, false)).1 + 16 * toTwos 4 (qs.getD (2 * i + 1) (0, false)).1)
    (bytes ++ natLE 2 sb, (qs.filter fun q => q.2).length)

/-- Update one row with its merged gradient (R347, R348). -/
def State.updateRow (s : State) (k : Cmd) (r : Nat × Nat × Nat) (g : List Fl) : State :=
  match s.tab? r.1 with
  | none => s
  | some t =>
    if g.any fun x => !x.isFinite then (s.bump pgGth 0x078).gthBad 4
    else
      let bs := t.rowBytes r.2.1 r.2.2
      let w := t.values bs
      let lr := f32 (BitVec.ofNat 32 (fieldAt k.raw 52 4))
      let eps := f32 (BitVec.ofNat 32 (fieldAt k.raw 56 4))
      let ada := fieldAt k.raw 49 1 == 1
      let sq := g.foldl (fun a x => (a.add ((x.mul x).round fp32)).round fp32) Fl.zero
      let a := if ada then ((t.accOf bs).add (sq.div fp32 (.ofInt t.elems))).round fp32 else t.accOf bs
      let den := ((a.sqrt fp32).add eps).round fp32
      let step (x : Fl) : Fl := let p := (lr.mul x).round fp32; if ada then p.div fp32 den else p
      let (body, sat) := t.store s.freeCtr ((w.zip g).map fun p => (p.1.sub (step p.2)).round fp32)
      let row := body ++ zeroBytes (t.stride - body.length)
      let row := if t.adagrad then overlay row t.stateAt (natLE 4 (a.bits fp32)) else row
      let s := (s.putRow r row).bump pgGth 0x07C
      (s.bump pgGth 0x084 sat).when (0 < sat) (·.gthBad 8)

/-- Gradient contributions of one entry: stored row and gradient (R347). -/
def State.gradOf (s : State) (k : Cmd) (n : Nat) (t : Tab) (asked key : Nat) (g : List Fl) : List ((Nat × Nat × Nat) × List Fl) :=
  match s.rowsOf k n t asked key with
  | [a, b] =>
    if t.accProduct then
      [(a, (g.zip (s.rowValues b)).map fun p => (p.1.mul p.2).round fp32), (b, (g.zip (s.rowValues a)).map fun p => (p.1.mul p.2).round fp32)]
    else [(a, g), (b, g)]
  | rs => rs.map fun r => (r, g)

/-- Merge a contribution into the gradients so far, elementwise in FP32 (R347). -/
def mergeGrad (m : List ((Nat × Nat × Nat) × List Fl)) (x : (Nat × Nat × Nat) × List Fl) : List ((Nat × Nat × Nat) × List Fl) :=
  if m.any fun y => y.1 == x.1 then
    m.map fun y => if y.1 == x.1 then (y.1, (y.2.zip x.2).map fun p => (p.1.add p.2).round fp32) else y
  else m ++ [x]

/-- The checks of R345 on the learning rate and epsilon. -/
def badRate (raw : List Byte) (off : Nat) : Bool :=
  let x := f32 (BitVec.ofNat 32 (fieldAt raw off 4))
  x.isNaN || Fl.lt x Fl.zero

/-- Whether Adagrad state stands behind every row of a table. -/
def State.hasAdagrad (s : State) (t : Tab) : Bool :=
  if t.kind = 2 then [t.accA, t.accB].all fun n => ((s.tab? n).map fun x => x.adagrad).getD false else t.adagrad

/-- APPLY_GRADIENTS (R345, R347, R348). -/
def applyGradients (cid : Nat) (k : Cmd) (s : State) : State :=
  let n := updTable k.raw
  let c := updCount k.raw
  let asked := fieldAt k.raw 12 4
  let opt := fieldAt k.raw 49 1
  match s.tab? n, k.slotFor n asked with
  | some t, some _ =>
    if !bitOf (s.reg pgGth 0x040) 0 then s.finish cid .denied
    else if c = 0 || 16777216 < c || 1 < opt || badRate k.raw 52 || (opt == 1 && (badRate k.raw 56 || !s.hasAdagrad t)) then s.finish cid .malformed
    else
      let wide := bitOf (fieldAt k.raw 50 1) 0
      let w := if wide then 4 else 2
      let es := (s.updIndices k).zipIdx.filterMap fun e => (s.keyOf t e.1).map fun key => (key, e.2)
      let grads := es.flatMap fun e =>
        let g := (List.range t.elems).map fun i => Fl.ofBits (if wide then fp32 else fp16) (leNat (s.cmdRead k (cmdPtrB k.raw + w * (t.elems * e.2 + i)) w))
        s.gradOf k n t asked e.1 g
      let s := (grads.foldl mergeGrad []).foldl (fun s x => s.updateRow k x.1 x.2) s
      (s.countOor (c - es.length)).finish cid .ok es.length
  | _, _ => s.finish cid .notFound

def execApplyGradients (t cid : Nat) (s : State) : Host.Outcome State Fault Refusal :=
  done ((s.at t).withCmd cid (fun k => k.isUpdate 1 && (s.at t).accepts pgGth && !(s.at t).updBehind cid k) (applyGradients cid))

/-! ### Versions (R332 to R336) -/

/-- Free what dropped slots held, once no command holds them (R336). -/
def State.freeDropped (s : State) (n : Nat) (t : Tab) : Tab :=
  { t with vers := t.vers.filter fun v => !v.2.dropped || s.qmg.cmds.any fun e => e.2.versions.any fun x => x.1 == n && x.2.2 == v.1 }

/-- VERSION_OPEN (R336). -/
def versionOpen (cid : Nat) (k : Cmd) (s : State) : State :=
  let n := updTable k.raw
  let num := fieldAt k.raw 12 4
  match s.tab? n with
  | none => s.finish cid .notFound
  | some t =>
    let t := s.freeDropped n t
    if updCount k.raw != 0 || num = currentVersion || t.vers.any (fun v => v.2.num == num && !v.2.dropped) then s.finish cid .malformed
    else if t.slots ≤ t.vers.length then s.finish cid .quota
    else
      let rows := if bitOf (fieldAt k.raw 50 1) 1 then ((t.vers.find? t.current).map fun v => v.rows).getD [] else []
      (s.setTab n { t with vers := t.vers.set t.nextVer { num := num, rows := rows }, nextVer := t.nextVer + 1 }).finish cid .ok

def execVersionOpen (t cid : Nat) (s : State) : Host.Outcome State Fault Refusal :=
  done ((s.at t).withCmd cid (fun k => k.isUpdate 2 && (s.at t).accepts pgGth && !(s.at t).updBehind cid k) (versionOpen cid))

/-- VERSION_DROP (R336, R356). -/
def versionDrop (cid : Nat) (k : Cmd) (s : State) : State :=
  let n := updTable k.raw
  let num := fieldAt k.raw 12 4
  match s.tab? n with
  | none => s.finish cid .notFound
  | some t =>
    if updCount k.raw != 0 then s.finish cid .malformed
    else match List.find? (fun v => v.2.num == num && !v.2.dropped) t.vers with
      | none => s.finish cid .notFound
      | some v =>
        if v.1 = t.current then s.finish cid .busy
        else
          let s := s.setTab n { t with vers := t.vers.set v.1 { v.2 with dropped := true }, hot := t.hot.filter (fun h => h.1 != v.1),
                                       dir := t.dir.filter fun e => e.1 / 2 ^ 32 != v.1 }
          let s := s.finish cid .ok
          match s.tab? n with
          | none => s
          | some t => s.setTab n (s.freeDropped n t)

def execVersionDrop (t cid : Nat) (s : State) : Host.Outcome State Fault Refusal :=
  done ((s.at t).withCmd cid (fun k => k.isUpdate 3 && (s.at t).accepts pgGth && !(s.at t).updBehind cid k) (versionDrop cid))

/-- Dispatch a switch of a table to a version: its outcome where it needs no wait (R334). -/
def State.startSwitch (s : State) (n num ticket : Nat) : State × Option Status :=
  match s.openTab? n with
  | none => (s, some .notFound)
  | some t =>
    if t.kind = 2 then (s, some .malformed)
    else match List.find? (fun v => v.2.num == num && !v.2.dropped) t.vers with
      | none => (s, some .notFound)
      | some v =>
        if v.1 = t.current && t.switchers.isEmpty then (s, some .ok)
        else (s.setTab n { t with switchers := t.switchers ++ [ticket] }, none)

/-- A TABLE_UPDATE admitted before the switch that names its target (R334); `limit` is the number of the first command admitted
after it. -/
def State.switchBlocked (s : State) (n uid limit : Nat) : Bool :=
  s.qmg.cmds.any fun e => decide (e.1 < limit) && cmdOpcode e.2.raw == 0x11 && updTable e.2.raw == n && e.2.versions.any fun x => x.1 == n && x.2.2 == uid

/-- The switch at the head of a table's line takes effect, where nothing it waits for is left (R334, R335). -/
def State.switchNow (s : State) (n num ticket limit : Nat) : State × Option Status :=
  match s.tab? n with
  | none => (s, some .notFound)
  | some t =>
    if t.switchers.head? != some ticket then (s, none)
    else
      let t' := { t with switchers := t.switchers.drop 1, cueTarget := t.cueTarget.erase ticket }
      match List.find? (fun v => v.2.num == num && !v.2.dropped) t.vers with
      | none => (s.setTab n t', some .notFound)
      | some v =>
        if s.switchBlocked n v.1 limit then (s, none)
        else if v.1 = t.current then (s.setTab n t', some .ok)
        else ((s.setTab n { t' with current := v.1 }).bump pgGth 0x080, some .ok)

/-- TABLE_SWITCH (R334, R335; 02 R53): what needs no wait completes; the others wait for their turn, or in the Cue Table. -/
def tableSwitch (cid : Nat) (k : Cmd) (s : State) : State :=
  if s.toSchedule k then s.schedule cid k 0x03 (updTable k.raw + 2 ^ 32 * fieldAt k.raw 12 4)
  else match s.startSwitch (updTable k.raw) (fieldAt k.raw 12 4) cid with
  | (s, some st) => s.finish cid st
  | (s, none) => s.setCmd cid { k with phase := .waiting }

def execTableSwitch (t cid : Nat) (s : State) : Host.Outcome State Fault Refusal :=
  done ((s.at t).withCmd cid (fun k => k.isNew 0x12 && (s.at t).accepts pgGth) (tableSwitch cid))

/-- TABLE_SWITCH_TAKE_EFFECT (R334): a switch that a command asked for, or, with a ticket from 2^40 on, that a cue dispatched. -/
def tableSwitchTakeEffect (ticket : Nat) (s : State) : State :=
  if 2 ^ 40 ≤ ticket then
    match List.find? (fun e => e.2.switchers.head? == some ticket) s.gth.tables with
    | none => s
    | some e =>
      let v := e.2.cueTarget.getD ticket 0
      (s.switchNow e.1 (v % 2 ^ 32) ticket (v / 2 ^ 32)).1
  else match s.cmd? ticket with
    | none => s
    | some k =>
      if cmdOpcode k.raw != 0x12 || k.phase != .waiting then s
      else match s.switchNow (updTable k.raw) (fieldAt k.raw 12 4) ticket ticket with
        | (s, some st) => s.finish ticket st
        | (s, none) => s

def execTableSwitchTakeEffect (t cid : Nat) (s : State) : Host.Outcome State Fault Refusal :=
  done ((s.at t).onlyIf s.live (tableSwitchTakeEffect cid))

/-! ### Hot rows (R350 to R353) -/

/-- Rows that the hot area holds at most. -/
def Tab.hotRoom (t : Tab) : Nat := t.frames.length * 2 ^ 21 / max 1 t.stride

/-- A row version word in a new state (R350). -/
def wordOf (w st : Nat) (steps : Nat) : Nat := (w / 4 + steps) % 2 ^ 30 * 4 + st

/-- Demote one row (R353). -/
def Tab.demote (t : Tab) (r : Nat × Nat) : Tab :=
  if t.hot.contains r then
    { t with hot := t.hot.erase r, dir := t.dir.modify (r.1 * 2 ^ 32 + r.2) fun w => wordOf w 0 0 }
  else t

/-- Promote one row: both steps of R351 that write its word, with the copy between them (R352, R353). -/
def State.promote (s : State) (n : Nat) (r : Nat × Nat) (copyFails : Bool) : State :=
  match s.tab? n with
  | none => s
  | some t =>
    if t.hot.contains r || t.hotRoom = 0 then s
    else
      let key := r.1 * 2 ^ 32 + r.2
      let t := if t.hotRoom ≤ t.hot.length then (match t.hot.head? with
        | some x => t.demote x
        | none => t) else t
      let w := t.dir.getD key 0
      if copyFails then (s.setTab n { t with dir := t.dir.set key (wordOf w 0 1) }).bump pgGth 0x074
      else (s.setTab n { t with dir := t.dir.set key (wordOf w 2 2), hot := t.hot ++ [r] }).bump pgGth 0x070

/-- MIGRATE (R351 to R353). `copyFails` are the rows whose copy meets an uncorrectable error. -/
def migrate (cid : Nat) (k : Cmd) (copyFails : List Nat) (s : State) : State :=
  let n := updTable k.raw
  let c := updCount k.raw
  match s.tab? n, k.slotFor n (fieldAt k.raw 12 4) with
  | some t, some uid =>
    if c = 0 || 16777216 < c then s.finish cid .malformed
    else
      let rows := (s.updIndices k).filterMap (s.keyOf t)
      let up := bitOf (fieldAt k.raw 50 1) 2
      let s := rows.foldl (fun s row =>
        if up then s.promote n (uid, row) (copyFails.contains row)
        else match s.tab? n with
          | none => s
          | some t => s.setTab n (t.demote (uid, row))) s
      (s.countOor (c - rows.length)).finish cid .ok rows.length
  | _, _ => s.finish cid .notFound

def execMigrate (t cid : Nat) (copyFails : List Nat) (s : State) : Host.Outcome State Fault Refusal :=
  done ((s.at t).withCmd cid (fun k => k.isUpdate 4 && (s.at t).accepts pgGth && !(s.at t).updBehind cid k) fun k s => migrate cid k copyFails s)

/-- AUTO_HOT_INTERVAL (R353): the rows that GTH promotes and demotes by their read counts (log entry 4). -/
def autoHotInterval (n : Nat) (up down : List Nat) (s : State) : State :=
  match s.tab? n with
  | none => s
  | some t =>
    if !t.autoHot || t.kind == 2 || !bitOf (s.reg pgGth 0x040) 2 || s.tapeTime < t.autoAt + s.reg pgGth 0x04C * us then s
    else
      let t := (down.map fun row => (t.current, row)).foldl Tab.demote { t with autoAt := s.tapeTime }
      (up.filter fun row => row < t.rowCount).foldl (fun s row => s.promote n (t.current, row) false) (s.setTab n t)

def execAutoHotInterval (t table : Nat) (promote demote : List Nat) (s : State) : Host.Outcome State Fault Refusal :=
  done ((s.at t).onlyIf s.live (autoHotInterval table promote demote))

end Sys2Proof.Machine
end

