-- ==== Sys2Proof/Machine/Batches.lean ====
section
/-!
DEFINITION. Encode commands and batches: events, batch forming, weight streaming, commits, and what follows a commit (08 R281,
R286 to R296; 09 R315 to R322; 15 R502 to R504; 03 R30).
-/

namespace Sys2Proof.Machine

def State.withEnc (s : State) (f : EncBlock → EncBlock) : State := { s with enc := f s.enc }

/-! ### Events of a command (15 R499, R502, R503) -/

def encHandle (k : Cmd) : Nat := fieldAt k.raw 12 2
def encCount (k : Cmd) : Nat := if cmdOpcode k.raw = 0x04 then 1 else fieldAt k.raw 48 4
def encResets (k : Cmd) : Bool := bitOf (cmdFlags k.raw) 0
def encDrops (k : Cmd) : Bool := cmdOpcode k.raw == 0x03 && bitOf (cmdFlags k.raw) 1
def encInserts (k : Cmd) : Bool := cmdOpcode k.raw == 0x04 && bitOf (cmdFlags k.raw) 1
def encCompletes (k : Cmd) : Bool := bitOf (cmdFlags k.raw) 2

/-- One event record and its bag records. -/
structure RawEvent where
  head : List Byte
  bags : List Bag
  deriving DecidableEq, Repr

/-- `n` event records from an address; none where a BagCount is out of range. -/
def State.eventsGo (s : State) (k : Cmd) : Nat → Nat → Option (List RawEvent)
  | 0, _ => some []
  | n + 1, a =>
    let head := s.cmdRead k a 64
    let b := fieldAt head 24 2
    if b = 0 || 64 < b then none
    else match State.eventsGo s k n (a + 64 + 32 * b) with
      | none => none
      | some rest => some ({ head := head, bags := (List.range b).map fun j => s.bagAt k (s.cmdRead k (a + 64 + 32 * j) 32) } :: rest)

/-- The bags of a whole command, each with its event as its sample (10 R338, R343). -/
def allBags (es : List RawEvent) : List Bag := es.zipIdx.flatMap fun e => e.1.bags.map fun b => { b with sample := e.2 }

/-- The events of a command, pooled (10 R339, R343). -/
def State.pooled (s : State) (k : Cmd) (cid width : Nat) (es : List RawEvent) : List EncEvent :=
  let bags := allBags es
  es.zipIdx.map fun e =>
    { cid := cid, index := e.2, seq := fieldAt e.1.head 0 8, pos := fieldAt e.1.head 8 8, item := fieldAt e.1.head 16 8,
      attrs := bytesAt e.1.head 32 32, x := (s.poolSample k bags e.2 width).map toF32 }

/-! ### Sequences and the state pool (R286; 09 R319, R320) -/

/-- Events of a Score's commands that have not committed, in order of admission: with each, whether it resets its sequence. -/
def State.uncommitted (s : State) (h : Nat) : List (EncEvent × Bool) :=
  (s.enc.cmds.filter fun e => e.2.score == h).flatMap fun e =>
    match s.cmd? e.1 with
    | none => []
    | some k => (e.2.events.drop k.progress).map fun v => (v, encResets k && v.index == 0)

/-- A sequence's event count once these events have folded; none where it passes 16,777,216 (R286). -/
def countAfter (seq : Nat) : Nat → List (EncEvent × Bool) → Option Nat
  | n, [] => some n
  | n, (v, r) :: rest =>
    if v.seq != seq then countAfter seq n rest
    else
      let m := (if r then 0 else n) + 1
      if 16777216 < m then none else countAfter seq m rest

def Score.eventCount (v : Score) (seq : Nat) : Nat := ((v.pool.find? seq).map fun r => r.count).getD 0

/-- The sequence keys that a Score's pool holds or is about to hold. -/
def State.poolKeys (s : State) (h : Nat) (v : Score) (more : List Nat) : Nat :=
  ((v.pool.map fun e => e.1) ++ ((s.uncommitted h).map fun e => e.1.seq) ++ more).eraseDups.length

/-- Take the extents that a Score's pool needs for `more` further keys (09 R319, R320). -/
def State.growPool (s : State) (h : Nat) (more : List Nat) : State × Bool :=
  match s.score? h with
  | none => (s, false)
  | some v =>
    let need := poolExtentsFor (imgStateBytes v.image) (s.poolKeys h v more)
    if need ≤ v.poolExtents then (s, true)
    else match s.takeHeart v.owner (need - v.poolExtents) with
      | (s, false) => (s, false)
      | (s, true) => (s.setScore h { v with poolExtents := need }, true)

/-- Empty extents return to the quota (09 R320). -/
def State.trimPool (s : State) (h : Nat) : State :=
  match s.score? h with
  | none => s
  | some v =>
    let need := poolExtentsFor (imgStateBytes v.image) (s.poolKeys h v [])
    if v.poolExtents ≤ need then s
    else (s.giveHeart v.owner (v.poolExtents - need)).setScore h { v with poolExtents := need }

/-! ### Forming batches (R287 to R289) -/

/-- Sequences with events in a closed or running batch of a Score. -/
def State.busySeqs (s : State) (h : Nat) : List Nat :=
  ((s.enc.closed ++ s.enc.running.map fun e => e.2).filter fun (b : Batch) => b.score == h).flatMap fun b => b.events.map fun v => v.seq

/-- A pass over the waiting commands: sequences that must wait, the streaming batch that is forming, the batches that close. -/
structure Forming where
  blocked : List Nat
  cur     : List EncEvent := []
  closed  : List (List EncEvent) := []
  deriving DecidableEq, Repr

def Forming.close (f : Forming) : Forming :=
  if f.cur.isEmpty then f
  else { blocked := f.blocked ++ f.cur.map fun v => v.seq, closed := f.closed ++ [f.cur] }

/-- Close a batch that holds these events alone. -/
def Forming.closeAlone (f : Forming) (es : List EncEvent) : Forming :=
  { f with blocked := f.blocked ++ es.map (fun v => v.seq), closed := f.closed ++ [es] }

def Forming.holds (f : Forming) (es : List EncEvent) : Bool := es.any fun v => f.blocked.contains v.seq

/-- Events of a chunk batch: up to the sequence's next chunk boundary (R286, R288). -/
def chunkOf (count : Nat) (es : List EncEvent) : List EncEvent := es.take (4096 - count % 4096)

/-- One waiting command joins, waits or closes batches (R288, R289). -/
def Forming.take (f : Forming) (v : Score) (most : Nat) (k : Cmd) (c : EncCmd) : Forming :=
  let es := c.events.drop c.taken
  let wait (f : Forming) : Forming := { f with blocked := f.blocked ++ es.map fun v => v.seq }
  if es.isEmpty then f
  else if f.holds es then wait f
  else if 128 < c.events.length then
    if es.any fun x => f.cur.any fun y => y.seq == x.seq then wait f
    else f.closeAlone (chunkOf (if c.taken = 0 && encResets k then 0 else v.eventCount ((es.map fun x => x.seq).headD 0)) es)
  else if f.cur.length + es.length ≤ most then
    let f := { f with cur := f.cur ++ es }
    if most ≤ f.cur.length then f.close else f
  else
    let f := f.close
    if f.holds es then wait f
    else if most ≤ es.length then f.closeAlone es
    else { f with cur := es }

/-- ENC_BATCH_MAX (R297). -/
def State.batchMax (s : State) : Nat := clampNat 1 128 (s.reg (pgEnc 0) 0x048)

/-- What the waiting commands of a Score now form. -/
def State.forming (s : State) (h : Nat) : Forming :=
  match s.score? h with
  | none => { blocked := [] }
  | some v =>
    (s.enc.cmds.filter fun e => e.2.score == h).foldl (fun (f : Forming) e =>
      match s.cmd? e.1 with
      | none => f
      | some k => f.take v s.batchMax k e.2) { blocked := s.busySeqs h }

/-- Close batches: their events are taken. -/
def State.closeBatches (s : State) (h : Nat) (bs : List (List EncEvent)) : State :=
  s.withEnc fun b => { b with
    closed := b.closed ++ bs.map fun es => { score := h, events := es },
    cmds := bs.flatten.foldl (fun (t : Table EncCmd) v => t.modify v.cid fun c => { c with taken := max c.taken (v.index + 1) }) b.cmds }

/-- Close the batches of a Score that are full (R288). -/
def State.formBatches (s : State) (h : Nat) : State := s.closeBatches h (s.forming h).closed

/-- BATCH_WAIT_EXPIRY (R288): the forming batch closes once its oldest event has waited ENC_BATCH_WAIT_US. -/
def batchWaitExpiry (h : Nat) (s : State) : State :=
  let s := s.formBatches h
  let cur := (s.forming h).cur
  let since := (cur.map fun v => ((s.enc.cmds.find? v.cid).map fun c => c.since).getD s.now).foldl min s.now
  if cur.isEmpty || s.now < since + min 10000 (s.reg (pgEnc 0) 0x04C) * us then s else s.closeBatches h [cur]

def execBatchWaitExpiry (t score : Nat) (s : State) : Host.Outcome State Fault Refusal :=
  done ((s.at t).onlyIf s.live (batchWaitExpiry score))

/-! ### ENCODE, ENCODE_SEARCH, and drops (R286 to R296; 09 R320, R321; 15 R499, R502, R503) -/

/-- An earlier encode command of the Score that has not been taken: events fold in order of admission (R287). -/
def State.encBehind (s : State) (cid : Nat) (k : Cmd) : Bool :=
  s.qmg.cmds.any fun e => decide (e.1 < cid) && e.2.phase == .admitted && e.2.namesScore (encHandle k)

/-- The embedding's elements: what PROJECT reads (04 R116). -/
def embWidth (im : List Byte) : Nat :=
  ((imgOpList im).foldl (fun (a : Table Nat × Nat) o =>
    (a.1.set o.out o.width, if o.op = 10 then (a.1.find? o.inBuf).getD 0 else a.2)) ([], 0)).2

/-- The search that an ENCODE_SEARCH asks for, as its descriptor stands at admission. -/
structure AskedSearch where
  raw     : List Byte := []
  program : List Byte := []
  refusal : Option Status := none

/-- Read and check an ENCODE_SEARCH's descriptor, collection and insert (R321; 04 R115, R116; 15 R503; 03 R80, R83, R85). -/
def State.askedSearch (s : State) (k : Cmd) (v : Score) (es : List RawEvent) : AskedSearch :=
  match s.coll? (fieldAt k.raw 8 4) with
  | none => { refusal := some .notFound }
  | some c =>
    let raw := s.cmdRead k (cmdPtrB k.raw) 64
    let program := s.readPredicate k (fieldAt raw 32 8)
    let w := embWidth v.image
    let d := s.descOf c raw [] (if w = c.fullDim then zeroBytes (2 * w) else []) program
    let src := fieldAt k.raw 14 2
    let q := (es.map fun e => fieldAt e.head 8 8).headD 0
    let ins : Option Status :=
      if !encInserts k then none
      else match s.source? src with
        | none => some .malformed
        | some _ => s.mutCheck c src q
    { raw := raw, program := program,
      refusal := match descRefusal c raw d with
        | some st => some st
        | none =>
          if !imgHasProject v.image || imgNavDim v.image != c.navDim || imgNavFormat v.image != c.navFormat then some .malformed else ins }

/-- The checks on a command's events (R286, R321; 15 R503; 10 R338, R343). -/
def State.eventRefusal (s : State) (k : Cmd) (h : Nat) (v : Score) (n : Nat) (es : List RawEvent) : Option Status :=
  let evs : List (EncEvent × Bool) := es.zipIdx.map fun e =>
    ({ cid := 0, index := e.2, seq := fieldAt e.1.head 0 8, pos := 0, x := [] }, encResets k && e.2 == 0)
  let seqs := (evs.map fun e => e.1.seq).eraseDups
  if (128 < n && (!imgChunkable v.image || 1 < seqs.length)) || (es.any fun e => e.bags.any fun b => b.sample != 0) then some .malformed
  else if seqs.any fun q => (countAfter q (v.eventCount q) (s.uncommitted h ++ evs)).isNone then some .tooLong
  else s.bagRefusal k (allBags es) (max 1 n) (imgInput v.image)

/-- Complete an encode command that is refused, counting TOO_LONG (R297). -/
def State.refuseEnc (s : State) (cid : Nat) (k : Cmd) (st : Status) : State :=
  let s := s.when (st == .tooLong) (·.bump (pgEnc 0) 0x068)
  if cmdOpcode k.raw = 0x04 then s.refuseSearch cid st none else s.finish cid st

/-- Admit an encode command: its checks, its pool extents, its gather, and its place in the batches. -/
def encodeCmd (cid : Nat) (k : Cmd) (reads : RowReads) (s : State) : State :=
  let h := encHandle k
  let n := encCount k
  match s.score? h with
  | none => s.refuseEnc cid k .denied
  | some v =>
    if 16777216 < n || (encDrops k && n != 0) then s.refuseEnc cid k .malformed
    else match s.eventsGo k n (cmdPtrA k.raw) with
      | none => s.refuseEnc cid k .malformed
      | some es =>
        let asked := if cmdOpcode k.raw = 0x04 then s.askedSearch k v es else {}
        match asked.refusal with
        | some st => s.refuseEnc cid k st
        | none =>
          match s.eventRefusal k h v n es with
          | some st => s.refuseEnc cid k st
          | none =>
            match s.growPool h (es.map fun e => fieldAt e.head 0 8) with
            | (s, false) => s.refuseEnc cid k .quota
            | (s, true) =>
              let (s, _, _, _, good) := s.gatherRows k (allBags es) reads
              if !good then (s.trimPool h).refuseEnc cid k .uncorrected
              else if n = 0 then s.finish cid .ok 0
              else
                let c : EncCmd := { score := h, events := s.pooled k cid (imgInput v.image) es, since := s.now, raw := asked.raw, program := asked.program }
                ((s.withEnc fun b => { b with cmds := b.cmds.set cid c }).setCmd cid { k with phase := .started }).formBatches h

def execEncode (t cid : Nat) (reads : RowReads) (s : State) : Host.Outcome State Fault Refusal :=
  done ((s.at t).withCmd cid (fun k => k.isNew 0x03 && !(encDrops k && encCount k == 0) && (s.at t).accepts pgGth && !(s.at t).encBehind cid k)
    fun k s => encodeCmd cid k reads s)

/-- ENCODE_DROP_SEQUENCE (09 R320): it waits while the sequence has events in a closed or running batch. -/
def encodeDropSequence (cid : Nat) (k : Cmd) (s : State) : State :=
  let h := encHandle k
  let seq := fieldAt k.raw 56 8
  match s.score? h with
  | none => s.finish cid .denied
  | some v =>
    if (s.busySeqs h).contains seq then s.setCmd cid { k with phase := .waiting }
    else if !(v.pool.has seq) then s.finish cid .notFound
    else ((s.setScore h { v with pool := v.pool.erase seq }).trimPool h).finish cid .ok

def execEncodeDropSequence (t cid : Nat) (s : State) : Host.Outcome State Fault Refusal :=
  done ((s.at t).withCmd cid (fun k => cmdOpcode k.raw == 0x03 && encDrops k && encCount k == 0 && !(s.at t).encBehind cid k)
    (encodeDropSequence cid))

/-! ### After an event has committed: the encoded insert, and the search (03 R29, R30, R99; 04 R116; 01 R24) -/

/-- FP16 of an embedding element, held at the largest finite value. -/
def halfOf (x : Fl) : Nat :=
  if Fl.lt (.ofInt 65504) x.abs then (if Fl.lt x Fl.zero then 0xFBFF else 0x7BFF) else x.bits fp16

/-- The full vector of an encoded insert: the embedding where the collection holds FP16 of its width; otherwise the manual states
none, and its bytes are free values. -/
def State.insertFull (s : State) (c : Coll) (emb : List Nat) : List Byte :=
  if c.fullFormat = 4 && emb.length = c.fullDim then emb.flatMap (natLE 2)
  else (List.range (fullBytes c.fullFormat c.fullDim)).map fun i => Config.freeByte (s.freeCtr * 2 ^ 64 + 2 ^ 62 + i)

/-- The item record that an encoded insert amounts to (15 R500). -/
def insertRecord (c : Coll) (it : Item) : List Byte :=
  let bs := natLE 8 it.key ++ padTo 32 (it.attrs.take 32) ++ it.nav.flatMap (natLE 2) ++ it.full
  bs ++ zeroBytes (c.recordBytes - bs.length)

/-- What became of an encoded insert. -/
inductive InsertFate where
  | decided (outcome : Nat)
  | refused (st : Status)
  | waits
  deriving DecidableEq, Repr

/-- Stamp an encoded insert at `q` (03 R30, R74, R78, R82, R99). -/
def State.stampEncoded (s : State) (k : Cmd) (coll q : Nat) (key : Nat) (attrs : List Byte) (nav emb : List Nat) : State × InsertFate :=
  let src := fieldAt k.raw 14 2
  match s.coll? coll, s.source? src with
  | some c, some v =>
    if q ≤ v.w then (s, .refused .malformed)
    else
      let c := c.sealIfDue s.tapeTime
      let it : Item := { key := key, attrs := attrs, nav := nav, full := s.insertFull c emb }
      let need := c.slotsNeeded 0x08 src q [it]
      if c.tailFull then (s, .waits)
      else if 2 ^ 32 - 1 < c.slots.length + need then (s, .refused .quota)
      else
        match s.growColl c (c.slots.length + need) with
        | (s, _, false) => (s, .refused .quota)
        | (s, c, true) =>
          let (c, o) := c.stampItem 0x08 src q s.tapeTime it
          let s := s.setColl coll ((c.sealIfDue s.tapeTime).compactIfDue)
          let v := v.raise (q - 1)
          let v := { v with next := v.next + 1, stamped := true }
          let s := s.setSource src (if encCompletes k then v.raise q else v)
          let s := if o = 0 then s.holdForTwin coll 0x08 q (insertRecord c it) else s
          (s.replicate coll (max s.wlk.watermark s.givenWatermark), .decided o)
  | _, _ => (s, .refused .malformed)

/-- An ENCODE_SEARCH whose event has committed goes on: its insert, then its search. -/
def State.afterCommit (s : State) (cid : Nat) (e : EncEvent) (part : EncodedPart) (nav emb : List Nat) (raw program : List Byte) : State :=
  match s.cmd? cid with
  | none => s
  | some k =>
    let coll := fieldAt k.raw 8 4
    match s.coll? coll with
    | none => s.refuseSearch cid .notFound none
    | some c =>
      let (s, fate) := if encInserts k then s.stampEncoded k coll e.pos e.item e.attrs nav emb else (s, .decided 0)
      match fate with
      | .refused st => s.refuseSearch cid st none
      | .waits =>
        let s := s.withEnc fun b => { b with encoded := b.encoded.set cid part, vectors := b.vectors.set cid (nav, emb),
                                             cmds := b.cmds.set cid { score := part.handle, events := [e], since := s.now, taken := 1, raw := raw, program := program } }
        s.setCmd cid { k with phase := .waiting, progress := 1 }
      | .decided o =>
        let part := { part with insertOutcome := if encInserts k then some o else none }
        let s := s.withEnc fun b => { b with encoded := b.encoded.erase cid, vectors := b.vectors.erase cid, cmds := b.cmds.erase cid }
        let full := if fieldAt raw 8 2 = 0 then [] else emb.flatMap (natLE 2)
        s.admitSearch cid coll (cmdPos k.raw) raw program (s.descOf c raw (nav.flatMap (natLE 2)) full program) true (some part)

/-- ENCODE_SEARCH: its admission, or the stamp that waited for room in the tail (03 R99). -/
def encodeSearch (cid : Nat) (k : Cmd) (reads : RowReads) (s : State) : State :=
  if k.phase = .admitted then encodeCmd cid k reads s
  else match s.enc.encoded.find? cid, s.enc.vectors.find? cid, s.enc.cmds.find? cid with
    | some part, some (nav, emb), some c =>
      match c.events with
      | e :: _ => s.afterCommit cid e part nav emb c.raw c.program
      | [] => s
    | _, _, _ => s

def execEncodeSearch (t cid : Nat) (reads : RowReads) (s : State) : Host.Outcome State Fault Refusal :=
  done ((s.at t).withCmd cid (fun k => cmdOpcode k.raw == 0x04 && (k.phase == .waiting ||
      (k.phase == .admitted && (s.at t).accepts pgGth && !(s.at t).encBehind cid k)))
    fun k s => encodeSearch cid k reads s)

/-! ### Running batches (R281, R288, R293; 09 R315, R316, R322) -/

/-- A cluster that takes a batch now (R288, R298, R300; 24 R740). -/
def State.clusterFree (s : State) (cluster : Nat) : Bool :=
  !s.pwr.throttled && !(s.enc.running.has cluster) && bitOf (s.reg (pgEnc cluster) 0x040) 0 && s.accepts (pgEnc cluster) && (s.arraysOff cluster).length < 16

/-- Clusters that run a Score's batches. -/
def State.clustersOf (s : State) (h : Nat) : Nat := s.enc.running.countP fun b => b.score == h

/-- BATCH_START (R288; 09 R322): the oldest closed batch whose Score may run on one cluster more takes the lowest free one. -/
def batchStart (s : State) : State :=
  match (List.range 4).find? s.clusterFree with
  | none => s
  | some i =>
    let may (b : Batch) : Bool := match s.score? b.score with
      | none => false
      | some v => s.clustersOf b.score < imgMaxClusters v.image
    match List.findIdx? may s.enc.closed with
    | none => s
    | some j => match s.enc.closed[j]? with
      | none => s
      | some b => s.withEnc fun x => { x with closed := x.closed.eraseIdx j, running := x.running.set i { b with startAt := s.now } }

def execBatchStart (t : Nat) (s : State) : Host.Outcome State Fault Refusal :=
  done ((s.at t).onlyIf s.live batchStart)

/-- Encoder cycles in `ns` (R255). -/
def encCycles (ns : Nat) : Nat := ns * 11 / 10

/-- A cluster is done with its batch. -/
def State.freeCluster (s : State) (cluster : Nat) (b : Batch) : State :=
  (s.withEnc fun x => { x with running := x.running.erase cluster }).bump64 (pgEnc cluster) 0x050 (encCycles (s.now - b.startAt))

/-- Commands complete with no more of their events folded. -/
def State.failEnc (s : State) (cids : List Nat) (st : Status) : State :=
  cids.foldl (fun s cid => match s.cmd? cid with
    | none => s
    | some k => (s.withEnc fun x => { x with cmds := x.cmds.erase cid }).refuseEnc cid k st) s

def batchCids (b : Batch) : List Nat := (b.events.map fun v => v.cid).eraseDups

/-- A batch is abandoned for a bad tile (R281). -/
def State.abandonBatch (s : State) (cluster : Nat) (b : Batch) : State :=
  let s := ((s.sendFault (pgEnc cluster) .tileChecksum).freeCluster cluster b).failEnc (batchCids b) .uncorrected
  (s.trimPool b.score).formBatches b.score

/-- SLICE_STREAM_START (09 R315): the next slice, once the one before it has finished. -/
def sliceStreamStart (cluster : Nat) (s : State) : State :=
  match s.enc.running.find? cluster with
  | none => s
  | some b =>
    let n := ((s.score? b.score).map fun v => (imgSlices v.image).length).getD 0
    if b.tile.isNone && b.slices < n then s.withEnc fun x => { x with running := x.running.set cluster { b with tile := some 0 } } else s

def execSliceStreamStart (t cluster : Nat) (s : State) : Host.Outcome State Fault Refusal :=
  done ((s.at t).onlyIf s.live (sliceStreamStart cluster))

/-- TILE_LANDING (R281; 09 R316): the next tile of the streaming slice lands as `bytes`, or its read fails at a location. -/
def tileLanding (cluster : Nat) (bytes : List Byte) (readFails : Option Nat) (s : State) : State :=
  match s.enc.running.find? cluster with
  | none => s
  | some b =>
    match s.score? b.score, b.tile with
    | some v, some j =>
      let slice := (imgSlices v.image).getD b.slices []
      match slice[j]?, readFails with
      | none, _ => s
      | some _, some loc => (s.heartBad loc 0 none).abandonBatch cluster b
      | some t, none =>
        if crc32c bytes = (tileDesc v.image t).2.2 then
          let b := if j + 1 < slice.length then { b with tile := some (j + 1), reread := false }
            else { b with tile := none, slices := b.slices + 1, reread := false }
          s.withEnc fun x => { x with running := x.running.set cluster b }
        else
          let s := (s.bump (pgEnc cluster) 0x060).sticky (pgEnc cluster) 0x044 8
          if b.reread then s.abandonBatch cluster b
          else s.withEnc fun x => { x with running := x.running.set cluster { b with reread := true } }
    | _, _ => s

def execTileLanding (t cluster : Nat) (bytes : List Byte) (readFails : Option Nat) (s : State) : Host.Outcome State Fault Refusal :=
  done ((s.at t).onlyIf s.live (tileLanding cluster bytes readFails))

/-! ### BATCH_COMMIT (R287, R290 to R293) -/

/-- One committed event: with its index in its sequence (R286). -/
structure Folded where
  ev    : EncEv
  index : Nat
  deriving DecidableEq, Repr

/-- Fold the events' headers in order (R287, R292); answers the records, each event's index, and the chunks closed. -/
def foldHeaders (seqs : Table SeqRec) (evs : List EncEv) : Table SeqRec × List Folded × Nat :=
  evs.foldl (fun (a : Table SeqRec × List Folded × Nat) e =>
    let r := Table.getD a.1 e.ev.seq {}
    let (r', closed) := r.fold e
    (Table.set a.1 e.ev.seq r', a.2.1 ++ [{ ev := e, index := if e.reset then 0 else r.count }], a.2.2 + boolNat closed)) (seqs, [], 0)

/-- Tables and versions of a command's bags, in ascending number (11 R370). An Accord table has no version of its own, so what its
entry names is a free value. -/
def State.tableList (s : State) (k : Cmd) : List (Nat × Nat) :=
  let t := k.versions.foldl (fun (t : Table Nat) e =>
    let free := fieldAt ((List.range 4).map fun i => Config.freeByte (s.freeCtr * 2 ^ 64 + 2 ^ 61 + 4 * e.1 + i)) 0 4
    let num := match s.tab? e.1 with
      | none => e.2.1
      | some x => if x.kind = 2 then free else ((x.vers.find? e.2.2).map fun v => v.num).getD e.2.1
    t.set e.1 num) []
  t

/-- What a committed event gives the record of its search (11 R368 to R370). -/
def State.partOf (s : State) (k : Cmd) (h : Nat) (v : Score) (f : Folded) (r : SeqRec) : EncodedPart :=
  { itemKey := f.ev.ev.item, seqKey := f.ev.ev.seq, evPos := f.ev.ev.pos, handle := h, scoreId := fieldAt v.image 8 8,
    scoreVer := fieldAt v.image 16 4, index := f.index, counts := f.ev.cnt.path, chunks := r.chunks, tables := s.tableList k }

/-- One event of a committed batch: ENCODE's output, or what follows of an ENCODE_SEARCH (R293; 15 R504). -/
def State.eventDone (s : State) (h : Nat) (v : Score) (f : Folded) (r : SeqRec) : State :=
  let e := f.ev.ev
  match s.cmd? e.cid with
  | none => s
  | some k =>
    let c := (s.enc.cmds.find? e.cid).getD { score := h, events := [e], since := 0 }
    if cmdOpcode k.raw = 0x04 then
      let s := s.withEnc fun x => { x with cmds := x.cmds.erase e.cid }
      s.afterCommit e.cid e (s.partOf k h v f r) f.ev.nav (f.ev.emb.map halfOf) c.raw c.program
    else
      let out := f.ev.output v.image
      let s := s.cmdWrite e.cid (cmdPtrC k.raw) (e.index * out.length) out
      if e.index + 1 < c.events.length then s.setCmd e.cid { (s.cmd? e.cid).getD k with progress := e.index + 1 }
      else (s.withEnc fun x => { x with cmds := x.cmds.erase e.cid }).finish e.cid .ok c.events.length

/-- BATCH_COMMIT: the last layer of the cluster's batch has ended. The states of the sequences of `unreadable` could not be read;
with each, the location of the error. -/
def batchCommit (cluster : Nat) (unreadable : List (Nat × Nat)) (s : State) : State :=
  match s.enc.running.find? cluster with
  | none => s
  | some b =>
    match s.score? b.score with
    | none => s
    | some v =>
      if b.tile.isSome || b.slices < (imgSlices v.image).length then s
      else
        let lost (seq : Nat) : Bool := unreadable.any fun u => u.1 == seq
        let s := (unreadable.filter fun u => b.events.any fun e => e.seq == u.1).foldl (fun s u => s.heartBad u.2 0 none) s
        let evs := (b.events.filter fun e => !lost e.seq).map fun e =>
          { ev := e, reset := e.index == 0 && ((s.cmd? e.cid).map encResets).getD false : EncEv }
        let run : EncRun := { scales := v.scales, seqs := v.pool, evs := evs, adapt := bitOf (s.reg (pgEnc 0) 0x040) 1 }
        let run := run.all v.image
        let (seqs, folded, closed) := foldHeaders run.seqs run.evs
        let seqs := ((evs.map fun e => e.ev.seq).eraseDups).foldl (fun (t : Table SeqRec) q => t.modify q fun r => { r with commits := (r.commits + 1) % 2 ^ 31 }) seqs
        let cnt := run.evs.foldl (fun (c : Counts) e => c.add e.cnt) {}
        let s := s.setScore b.score { v with scales := run.scales, pool := seqs }
        let s := ((s.freeCluster cluster b).bump64 (pgEnc cluster) 0x058 evs.length).bump (pgEnc cluster) 0x064 closed
        let s := s.sticky (pgEnc cluster) 0x044 (16 * boolNat (0 < cnt.nonfin) + 4 * boolNat (0 < cnt.clip) + 2 * boolNat (0 < cnt.sat))
        let bad := ((b.events.filter fun e => lost e.seq).map fun e => e.cid).eraseDups
        let s := s.failEnc bad .uncorrected
        let s := folded.foldl (fun s f => s.eventDone b.score v f (Table.getD seqs f.ev.ev.seq {})) s
        (s.trimPool b.score).formBatches b.score

def execBatchCommit (t cluster : Nat) (unreadable : List (Nat × Nat)) (s : State) : Host.Outcome State Fault Refusal :=
  done ((s.at t).onlyIf s.live (batchCommit cluster unreadable))

/-- The ABORT of an encode command that waits in no closed batch (R295): answers whether it was still to be had. -/
def State.abortEnc (s : State) (cid : Nat) : State × Bool :=
  match s.enc.cmds.find? cid with
  | none => (s, false)
  | some c =>
    if 0 < c.taken then (s, false)
    else (((s.withEnc fun x => { x with cmds := x.cmds.erase cid }).trimPool c.score), true)

end Sys2Proof.Machine
end

