-- ==== Sys2Proof/Machine/Tape.lean ====
section
/-!
DEFINITION. The Tape: its sources and their health, interpolation and monotonic tracking, tape loss (02 R32 to R48).
-/

namespace Sys2Proof.Machine

/-! ### Sources and trust (R32 to R35) -/

def cueCtrl (s : State) (bit : Nat) : Bool := bitOf (s.reg pgCue 0x040) bit

/-- The TAPE_PPS requirement of TAPE_SER health (R33). -/
def State.ppsFresh (s : State) : Bool :=
  match s.cue.tape.lastPps with
  | none => false
  | some p => s.now - p ≤ 1100 * ms

/-- The last valid frame arrived no longer ago than CUE_LOSS_NS (R33). -/
def State.frameFresh (s : State) (f : Src) : Bool :=
  match f.lastValid with
  | none => false
  | some a => s.now - a ≤ s.reg pgCue 0x048

def State.serHealthy (s : State) : Bool :=
  cueCtrl s 1 && s.frameFresh s.cue.tape.ser && (!cueCtrl s 4 || s.ppsFresh)

def State.beaconHealthy (s : State) (port : Nat) : Bool :=
  cueCtrl s 2 && s.frameFresh (s.cue.tape.beacons.getD port {})

def State.hostHealthy (s : State) : Bool := cueCtrl s 3 && s.frameFresh s.cue.tape.host

/-- Among healthy beacons, the one with the lowest grade, then the lowest port (R39). -/
def State.bestBeacon (s : State) : Option Nat :=
  (s.cue.tape.beacons.filter fun e => s.beaconHealthy e.1).foldl (fun best e =>
    match best with
    | none => some e.1
    | some p => if e.2.grade < (s.cue.tape.beacons.getD p {}).grade then some e.1 else some p) none

/-- The tracked source is healthy (R34). -/
def State.trackedHealthy (s : State) : Bool :=
  match s.cue.tape.tracked with
  | none => false
  | some .ser => s.serHealthy
  | some .beacon => s.beaconHealthy s.cue.tape.port
  | some .host => s.hostHealthy

/-- The most trusted healthy source, with its port (R32, R34). -/
def State.mostTrusted (s : State) : Option (TapeSource × Nat) :=
  if s.serHealthy then some (.ser, 0)
  else match s.bestBeacon with
    | some p => some (.beacon, p)
    | none => if s.hostHealthy then some (.host, 0) else none

/-- The order of trust (R32). -/
def trustRank : TapeSource → Nat
  | .ser => 0 | .beacon => 1 | .host => 2

/-! ### Interpolation (R42 to R44) -/

def State.withTape (s : State) (tp : Tape) : State := { s with cue := { s.cue with tape := tp } }

/-- The ratio is limited to 1 ± 200 ppm (R43). -/
def limitPpb (p : Int) : Int := max (-200000) (min 200000 p)

/-- Move the anchor to now without moving tracked time: the value is kept, and interpolation goes on from it. -/
def Tape.reanchor (tp : Tape) (now : Nat) : Tape :=
  let t := max tp.floor (tp.interp now)
  { tp with anchorTime := tp.interp now, anchorAt := now, floor := t, slew := 0 }

/-- Take `time` as the true tape time at local instant `at_` (R42, R44): tracked time never falls, and a lower time is held. -/
def Tape.takeTime (tp : Tape) (now time at_ : Nat) : Tape :=
  { tp with floor := max tp.floor (tp.interp now), anchorTime := time, anchorAt := at_, slew := 0 }

/-- The rate ratio from frame pairs at least 100 ms apart, while PpsLocked is 0 (R43). -/
def Tape.pairRate (tp : Tape) (isLocked : Bool) (time at_ : Nat) : Tape :=
  match tp.pairAt with
  | none => { tp with pairAt := some (time, at_) }
  | some (t0, a0) =>
    if at_ < a0 + 100 * ms then tp
    else
      let dl : Int := (at_ : Int) - a0
      let dt : Int := (time : Int) - t0
      { tp with pairAt := some (time, at_), ratePpb := if isLocked then tp.ratePpb else limitPpb ((dt - dl) * 1000000000 / dl) }

/-- PpsLocked (R43). -/
def State.ppsLocked (s : State) : Bool := s.cue.tape.tracked == some .ser && 1 ≤ s.cue.tape.ppsRun

/-- Apply a valid frame of the tracked source (R42, R44): position `pos`, tape time `time` at local instant `at_`. -/
def State.applyFrame (s : State) (pos time at_ : Nat) : State :=
  let tp := (s.cue.tape.takeTime s.now time at_).pairRate s.ppsLocked time at_
  if pos < s.cue.tape.pos then ((s.withTape tp).bump pgCue 0x074).sticky pgCue 0x044 0x40
  else s.withTape { tp with pos := pos }

/-- Track another source (R34). Pairs of frames are taken from one source. -/
def State.track (s : State) (src : TapeSource) (port : Nat) : State :=
  let tp := s.cue.tape
  s.withTape { tp with tracked := some src, port := port, pairAt := none,
                       ppsRun := if src = .ser && tp.tracked = some .ser then tp.ppsRun else 0 }

/-- Enter tape loss (R46): count it, send TapeLoss, run the House Clock from the last tracked value. -/
def State.enterLoss (s : State) : State :=
  let tp := s.cue.tape.reanchor s.now
  ((s.withTape { tp with tracked := none, anchorTime := tp.floor, ratePpb := 0, ppsRun := 0, pairAt := none }).bump
    pgCue 0x078).sendFault pgCue .tapeLoss

/-- When the tracked source is no longer healthy, move to the most trusted that is, or enter tape loss (R34, R46). -/
def State.reselect (s : State) : State :=
  match s.cue.tape.tracked with
  | none => s
  | some _ =>
    if s.trackedHealthy then s
    else match s.mostTrusted with
      | some (src, p) => s.track src p
      | none => s.enterLoss

/-- A valid frame of source `src` has been noted: track it where R34 says so, and apply it. -/
def State.frameTaken (s : State) (src : TapeSource) (port : Nat) (isHealthy : Bool) (streak pos time at_ : Nat) : State :=
  let s := s.reselect
  match s.cue.tape.tracked with
  | none => if isHealthy then (s.track src port).applyFrame pos time at_ else s
  | some cur =>
    if cur = src && (src != .beacon || s.bestBeacon == some port) then
      (if s.cue.tape.port = port then s else s.track src port).applyFrame pos time at_
    else if trustRank src < trustRank cur && isHealthy && 3 ≤ streak && (src != .beacon || s.bestBeacon == some port) then
      (s.track src port).applyFrame pos time at_
    else s

/-- A valid frame noted on a source's record (R33, R34). -/
def Src.noted (f : Src) (now grade : Nat) : Src := { lastValid := some now, streak := f.streak + 1, grade := grade }

/-- What a discarded frame does to a source's run of consecutive valid frames. -/
def Src.broken (f : Src) : Src := { f with streak := 0 }

/-! ### TAPE_SER (R36 to R38, R43) -/

/-- Whether a 32-byte TAPE_SER frame is well formed (R36). -/
def serFrameOk (raw : List Byte) : Bool :=
  raw.length == 32 && fieldAt raw 0 2 == 0x7A46 && fieldAt raw 2 1 / 16 == 1 && crc32 (raw.take 28) == fieldAt raw 28 4

/-- TAPE_SER_FRAME (R35 to R37, R44, R48; 24 R729). -/
def tapeSerFrame (raw : List Byte) (violation : Bool) (s : State) : State :=
  let tp := s.cue.tape
  if violation || !serFrameOk raw then (s.withTape { tp with ser := tp.ser.broken }).bump pgCue 0x080
  else if fieldAt raw 4 4 != s.reg pgCue 0x050 then (s.withTape { tp with ser := tp.ser.broken }).bump pgCue 0x084
  else
    let f := tp.ser.noted s.now 0
    let s := s.withTape { tp with ser := f }
    s.frameTaken .ser 0 s.serHealthy f.streak (fieldAt raw 8 8) (fieldAt raw 16 8) (s.now - s.reg pgCue 0x054)

def execTapeSerFrame (t : Nat) (raw : List Byte) (violation : Bool) (s : State) : Host.Outcome State Fault Refusal :=
  done ((s.at t).onlyIf s.live (tapeSerFrame raw violation))

/-- The whole second nearest a tape time (R38). -/
def nearestSecond (t : Nat) : Nat := (t + oneSec / 2) / oneSec * oneSec

/-- An accepted edge while CUE tracks TAPE_SER: the phase error is stepped or worked off (R38). -/
def Tape.ppsPhase (tp : Tape) (now : Nat) : Tape :=
  let t := max tp.floor (tp.interp now)
  let err : Int := (nearestSecond t : Int) - t
  if 1000 < err.natAbs then tp.takeTime now (nearestSecond t) now
  else { tp with floor := t, anchorTime := t, anchorAt := now, slew := err }

/-- An edge that CUE accepts (R38, R43; 24 R730). -/
def State.ppsAccept (s : State) : State :=
  let tp := s.cue.tape
  let run := match tp.lastPps with
    | none => 0
    | some p => if (oneSec : Int) - 200000 ≤ (s.now : Int) - p && (s.now : Int) - p ≤ oneSec + 200000 then tp.ppsRun + 1 else 0
  let gap : Int := match tp.lastPps with
    | none => oneSec
    | some p => (s.now : Int) - p
  let onSer := tp.tracked == some .ser
  let tp1 := { tp with lastPps := some s.now, ppsRun := if onSer then run else 0 }
  if onSer then
    let tp2 := tp1.ppsPhase s.now
    s.withTape (if 1 ≤ run then { tp2 with ratePpb := limitPpb (((oneSec : Int) - gap) * 1000000000 / gap) } else tp2)
  else s.withTape tp1

/-- TAPE_PPS_EDGE (R38, R43; 24 R730; 19 R612; 23 R716). Further edges within 500 ms of the last accepted one are ignored. -/
def tapePpsEdge (s : State) : State :=
  let fresh := match s.cue.tape.lastPps with
    | none => true
    | some p => 500 * ms ≤ s.now - p
  if fresh then
    let s := s.ppsAccept.setReg pgCue 0x018 (s.reg pgCue 0x018 ||| 0x10)
    if bitOf (s.reg pgCue 0x01C) 4 then s.edgeEvent (pgCue * 8 + 4) else s
  else s

def execTapePpsEdge (t : Nat) (s : State) : Host.Outcome State Fault Refusal :=
  done ((s.at t).onlyIf s.live tapePpsEdge)

/-- PPS_LAPSE (R33, R43): no edge within 1.1 s of the last accepted one. -/
def ppsLapse (s : State) : State :=
  if s.ppsFresh then s
  else (s.withTape { s.cue.tape with ppsRun := 0 }).reselect

def execPpsLapse (t : Nat) (s : State) : Host.Outcome State Fault Refusal :=
  done ((s.at t).onlyIf s.live ppsLapse)

/-! ### Beacons and host frames (R39 to R41) -/

/-- The link delay a port adds to beacons (17 R551). -/
def State.linkDelay (s : State) (port : Nat) : Int := (s.port port).delay + signedOf 32 (s.reg (pgFab port) 0x070)

/-- TAPE_BEACON_RECEIVE (R35, R39, R48; 17 R565). -/
def tapeBeaconReceive (port : Nat) (payload : List Byte) (s : State) : State :=
  let tp := s.cue.tape
  let f := tp.beacons.getD port {}
  let grade := fieldAt payload 20 1
  if fieldAt payload 16 4 != s.reg pgCue 0x050 then
    (s.withTape { tp with beacons := tp.beacons.set port f.broken }).bump pgCue 0x084
  else if 7 ≤ grade then s.withTape { tp with beacons := tp.beacons.set port f.broken }
  else
    let f := f.noted s.now grade
    let s := s.withTape { tp with beacons := tp.beacons.set port f }
    s.frameTaken .beacon port (s.beaconHealthy port) f.streak (fieldAt payload 0 8)
      ((fieldAt payload 8 8 : Int) + s.linkDelay port).toNat s.now

def execTapeBeaconReceive (t port : Nat) (payload : List Byte) (s : State) : Host.Outcome State Fault Refusal :=
  done ((s.at t).onlyIf (s.live && (s.port port).up) (tapeBeaconReceive port payload))

/-- The grade this node would send, if it may send beacons (R39, R40). -/
def State.beaconGrade (s : State) : Option Nat :=
  match s.cue.tape.tracked with
  | some .ser => some 0
  | some .beacon =>
    let g := (s.cue.tape.beacons.getD s.cue.tape.port {}).grade
    if g ≤ 6 then some (g + 1) else none
  | _ => none

/-- The beacon this node sends (17 R565). -/
def State.beacon (s : State) (grade : Nat) : Msg :=
  mkMsg 7 0 15 0 0xFFFF s.nodeId 0 0 0 0
    (natLE 8 s.tapePos ++ natLE 8 s.tapeTime ++ natLE 4 (s.reg pgCue 0x050) ++ natLE 1 grade ++ zeroBytes 3)

/-- TAPE_BEACON_TRANSMIT (R39, R40; 18 R597): on the enabled ports, every IntervalUs. -/
def tapeBeaconTransmit (s : State) : State :=
  match s.beaconGrade with
  | none => s
  | some g =>
    let ctrl := s.reg pgCue 0x058
    if cueCtrl s 5 && s.cue.tape.lastBeacon + max 10 (bitsOf ctrl 15 0) * us ≤ s.now then
      let m := s.beacon g
      ((List.range 4).filter fun p => bitOf ctrl (16 + p) && (s.port p).up).foldl (fun s p => (s.shpOffer p m).1)
        (s.withTape { s.cue.tape with lastBeacon := s.now })
    else s

def execTapeBeaconTransmit (t : Nat) (s : State) : Host.Outcome State Fault Refusal :=
  done ((s.at t).onlyIf s.live tapeBeaconTransmit)

/-- CUE_HOST_COMMIT (R41): the written frame is taken at the commit, by PF0 alone. -/
def cueHostCommit (s : State) : State :=
  let tp := s.cue.tape
  let f := tp.host.noted s.now 0
  let s := s.withTape { tp with host := f }
  s.frameTaken .host 0 s.hostHealthy f.streak (s.reg pgCue 0x090 + 2 ^ 32 * s.reg pgCue 0x094)
    (s.reg pgCue 0x098 + 2 ^ 32 * s.reg pgCue 0x09C) s.now

def execCueHostCommit (t fn : Nat) (val : Word) (s : State) : Host.Outcome State Fault Refusal :=
  done ((s.at t).onlyIf (s.live && fn == 0 && val == 1) cueHostCommit)

/-! ### Loss of a source (R33, R34, R46, R65) -/

/-- The run of consecutive valid frames of a source that has stopped being healthy starts again. -/
def Tape.forget (tp : Tape) : TapeSource → Nat → Tape
  | .ser, _ => { tp with ser := tp.ser.broken }
  | .beacon, p => { tp with beacons := tp.beacons.modify p Src.broken }
  | .host, _ => { tp with host := tp.host.broken }

def State.sourceHealthy (s : State) : TapeSource → Nat → Bool
  | .ser, _ => s.serHealthy
  | .beacon, p => s.beaconHealthy p
  | .host, _ => s.hostHealthy

/-- TAPE_SOURCE_LOSS (R33, R34, R46): the source's last valid frame is older than CUE_LOSS_NS. -/
def tapeSourceLoss (src : TapeSource) (port : Nat) (s : State) : State :=
  if s.sourceHealthy src port then s else (s.withTape (s.cue.tape.forget src port)).reselect

def execTapeSourceLoss (t : Nat) (src : TapeSource) (port : Nat) (s : State) : Host.Outcome State Fault Refusal :=
  done ((s.at t).onlyIf s.live (tapeSourceLoss src port))

/-- TAPE_SOURCE_DISABLE (R33, R46, R65): a write of CUE_CTRL that disables a source. -/
def execTapeSourceDisable (t fn : Nat) (val : Word) (s : State) : Host.Outcome State Fault Refusal :=
  done ((s.at t).onlyIf (s.live && fn == 0) fun s => (s.writeFields pgCue 0x040 val.toNat).reselect)

/-- CUE_ENABLE_SET (R61, R65): a write of CUE_CTRL that sets CueEnable; cues that fell due may now fire. -/
def execCueEnableSet (t fn : Nat) (val : Word) (s : State) : Host.Outcome State Fault Refusal :=
  done ((s.at t).onlyIf (s.live && fn == 0 && bitOf val.toNat 0) fun s => (s.writeFields pgCue 0x040 val.toNat).reselect)

/-- CUE_TP_LO_READ (R45): all four registers are captured at one instant, and the low half is returned. -/
def execCueTpLoRead (t : Nat) (s : State) : Host.Outcome State Fault Refusal :=
  done ((s.at t).onlyIf s.live fun s =>
    ({ s with cue := { s.cue with cap := { tpHi := s.tapePos / 2 ^ 32, ttLo := s.tapeTime % 2 ^ 32, ttHi := s.tapeTime / 2 ^ 32 } } }).emit
      (.readData (BitVec.ofNat 32 s.tapePos)))

end Sys2Proof.Machine
end

