-- ==== Sys2Proof/Machine/CallBoard.lean ====
section
/-!
DEFINITION. The Call Board: level sources and their service, software sources, moderation, held messages, edges latched
while clocks are stopped (19 R611 to R624).
-/

namespace Sys2Proof.Machine

/-- The route of an internal source (R616). -/
def State.route (s : State) (src : Nat) : Nat := s.regAt pgCbd 0x04C src

/-- Raise a level source's event at the host target, where its route names one and it is not InService there (R615, R616). -/
def State.raiseHost (s : State) (src : Nat) : State :=
  if bitOf (s.route src) 31 && !s.cbd.inHost.contains src then
    ({ s with cbd := { s.cbd with inHost := s.cbd.inHost ++ [src] } }).vecEvent 0 (bitsOf (s.route src) 10 0)
  else s

/-- Raise a level source's event at a Prompter (R615 to R617). -/
def State.raisePrompter (s : State) (src : Nat) : State :=
  if s.cbd.inPrm.has src then s
  else match s.prompterFor (s.prmMask src) with
    | none => s
    | some p => ({ s with cbd := { s.cbd with inPrm := s.cbd.inPrm.set src p } }).prompterEvent p src

/-- LEVEL_SOURCE_ASSERT (R615): a level source that has become asserted raises one event at each target. -/
def levelSourceAssert (src : Nat) (s : State) : State :=
  if s.asserted src && !isEdgeSource src && !s.cbd.known.contains src then
    (({ s with cbd := { s.cbd with known := src :: s.cbd.known } }).raiseHost src).raisePrompter src
  else s

def execLevelSourceAssert (t source : Nat) (s : State) : Host.Outcome State Fault Refusal :=
  done ((s.at t).onlyIf s.live (levelSourceAssert source))

/-- The end of service at host vector `v`: InService is cleared, and each source found asserted raises a new event (R615). -/
def cbdEoi (v : Nat) (s : State) : State :=
  let mine := s.cbd.inHost.filter fun src => bitsOf (s.route src) 10 0 == v
  let s := { s with cbd := { s.cbd with inHost := s.cbd.inHost.filter fun src => bitsOf (s.route src) 10 0 != v } }
  (mine.filter s.asserted).foldl (fun s src => s.raiseHost src) s

def execCbdEoi (t fn : Nat) (val : Word) (s : State) : Host.Outcome State Fault Refusal :=
  done ((s.at t).onlyIf (s.live && fn == 0) (cbdEoi (bitsOf val.toNat 10 0)))

/-- PROMPTER_HANDLER_END (R615, R617): the Prompter waits for an interrupt again, and sources found asserted raise events. -/
def prompterHandlerEnd (p : Nat) (s : State) : State :=
  let mine := (s.cbd.inPrm.filter fun e => e.2 == p).map fun e => e.1
  let s := { s with cbd := { s.cbd with inPrm := s.cbd.inPrm.filter fun e => e.2 != p },
                    prm := s.prm.set p { s.prm.getD p {} with waiting := true } }
  (mine.filter s.asserted).foldl (fun s src => s.raisePrompter src) s

def execPrompterHandlerEnd (t prompter : Nat) (s : State) : Host.Outcome State Fault Refusal :=
  done ((s.at t).onlyIf (s.live && decide (prompter < 8)) (prompterHandlerEnd prompter))

/-- Arm a host vector (R621). -/
def State.armVec (s : State) (key : Nat) : State := s.setVec key { s.vec key with armed := true }

/-- CBD_ARM (R621): arms the vector that CBD_VSEL selects. -/
def execCbdArm (t fn : Nat) (val : Word) (s : State) : Host.Outcome State Fault Refusal :=
  done ((s.at t).onlyIf (s.live && fn == 0 && val == 1) fun s => s.armVec (s.selIdx .vector))

/-- CBD_SW_SET (R618). -/
def execCbdSwSet (t fn : Nat) (val : Word) (s : State) : Host.Outcome State Fault Refusal :=
  done ((s.at t).onlyIf (s.live && fn == 0) fun s => { s with cbd := { s.cbd with sw := s.cbd.sw ||| val.toNat } })

/-- CBD_SW_CLR (R618). -/
def execCbdSwClr (t fn : Nat) (val : Word) (s : State) : Host.Outcome State Fault Refusal :=
  done ((s.at t).onlyIf (s.live && fn == 0) fun s =>
    { s with cbd := { s.cbd with sw := s.cbd.sw &&& (allBits - val.toNat) } })

/-- MODERATION_TIMER_EXPIRY (R620): the vector's timer has run for TimerUs. -/
def moderationTimerExpiry (key : Nat) (s : State) : State :=
  match (s.vec key).timer with
  | none => s
  | some t0 => if t0 + s.vecTimerUs key * us ≤ s.now then s.sendVec key else s

def execModerationTimerExpiry (t fn vector : Nat) (s : State) : Host.Outcome State Fault Refusal :=
  done ((s.at t).onlyIf s.live (moderationTimerExpiry (vecKey fn vector)))

/-- Every message held whose blocking condition has cleared is sent at once, without moderation (R622). -/
def State.releaseHeld (s : State) : State :=
  ((s.cbd.vecs.filter fun e => e.2.held).map fun e => e.1).foldl
    (fun s key => if s.vecBlocked key then s else s.sendVec key) s

/-- MSIX_MASK_CLEAR (R622): a vector's mask bit, or with `whole` the Function Mask in a write of the function's MSI-X
control that has MSI-X Enable set (log entry 8). -/
def msixMaskClear (fn vector : Nat) (whole : Bool) (s : State) : State :=
  let s :=
    if whole then { s with cbd := { s.cbd with fns := s.cbd.fns.set fn { enable := true, mask := false } } }
    else s.setVec (vecKey fn vector) { s.vec (vecKey fn vector) with masked := false }
  s.releaseHeld

def execMsixMaskClear (t fn vector : Nat) (whole : Bool) (s : State) : Host.Outcome State Fault Refusal :=
  done ((s.at t).onlyIf s.live (msixMaskClear fn vector whole))

/-- A vector with no pending state (R622, R623). -/
def Vec.idle (v : Vec) : Vec := { v with pending := 0, timer := none, held := false }

/-- MSIX_ENABLE_CLEAR (R622): the pending state of the function's vectors is cleared. -/
def execMsixEnableClear (t fn : Nat) (s : State) : Host.Outcome State Fault Refusal :=
  done ((s.at t).onlyIf s.live fun s =>
    { s with cbd := { s.cbd with fns := s.cbd.fns.set fn { s.cbd.fns.getD fn {} with enable := false },
                                 vecs := s.cbd.vecs.map fun e => if e.1 / 2048 = fn then (e.1, e.2.idle) else e } })

/-- CBD_HOST_ENABLE_SET (R622, R626): a write of CBD_CTRL that sets HostEnable; held messages go at once. -/
def execCbdHostEnableSet (t fn : Nat) (val : Word) (s : State) : Host.Outcome State Fault Refusal :=
  done ((s.at t).onlyIf (s.live && fn == 0 && bitOf val.toNat 0) fun s =>
    (s.writeFields pgCbd 0x040 val.toNat).releaseHeld)

/-- Hold an edge for a block whose clocks are stopped; a second edge before the first is handed on is merged (R619). -/
def State.latchEdge (s : State) (src : Nat) : State :=
  if s.cbd.latched.has src then (s.bump pgCbd 0x07C).sticky pgCbd 0x044 1
  else { s with cbd := { s.cbd with latched := s.cbd.latched.set src s.now } }

/-- A falling edge on an external fault input sets FLT's FaultIn bit and raises its event (R612; 23 R716). -/
def State.faultInEdge (s : State) : State :=
  let s := s.setReg pgFlt 0x018 (s.reg pgFlt 0x018 ||| 4)
  if bitOf (s.reg pgFlt 0x01C) 2 then s.edgeEvent (pgFlt * 8 + 2) else s

/-- EDGE_LATCH_HANDOFF (R619): the block's clocks run again, and the latched edge is handed on as one event; a TAPE_PPS edge
keeps the timestamp of its arrival at the latch. -/
def edgeLatchHandoff (src : Nat) (s : State) : State :=
  match s.cbd.latched.find? src with
  | none => s
  | some at_ =>
    let s := { s with cbd := { s.cbd with latched := s.cbd.latched.erase src } }
    if src = pgCue * 8 + 4 then { tapePpsEdge { s with now := at_ } with now := s.now }
    else if src = pgFlt * 8 + 2 then s.faultInEdge
    else s

def execEdgeLatchHandoff (t source : Nat) (s : State) : Host.Outcome State Fault Refusal :=
  done ((s.at t).onlyIf s.live (edgeLatchHandoff source))

end Sys2Proof.Machine
end

