-- ==== Sys2Proof/Machine/Image.lean ====
section
/-!
DEFINITION. The index image of a collection (03 R71): its bytes are not laid down, so the two readings of them have no body.
-/

namespace Sys2Proof.Config

/-- The bytes of a checkpoint's image, as WINGS_SHIP carries them (03 R71; 17 R573; entry 28). -/
opaque imageBytes : Machine.Checkpoint → List (BitVec 8)

/-- The checkpoint that image bytes hold; none where they are no image (entry 28). -/
opaque imageOf : List (BitVec 8) → Option Machine.Checkpoint

end Sys2Proof.Config
end

