-- ==== Sys2Proof/Machine/Digest.lean ====
section
/-!
DEFINITION. SHA-384, and the curve P-384 (21 R659 to R671): standard functions that the manual names.
-/

namespace Sys2Proof.Machine

/-- The largest `r` below 2^72 with `r^k ≤ n`. -/
def rootFloor (k n : Nat) : Nat :=
  (List.range 72).foldr (fun i r => if (r + 2 ^ i) ^ k ≤ n then r + 2 ^ i else r) 0

/-- The first primes: those below 410 are 80. -/
def smallPrimes : List Nat := (List.range 410).filter fun n => decide (1 < n) && (List.range n).all fun d => d < 2 || n % d != 0

/-- SHA-512's round constants: 64 fraction bits of the cube roots of the first 80 primes. -/
def shaK : List (BitVec 64) := smallPrimes.map fun p => BitVec.ofNat 64 (rootFloor 3 (p * 2 ^ 192))

/-- SHA-384's initial value: 64 fraction bits of the square roots of the ninth to sixteenth primes. -/
def shaInit : List (BitVec 64) := ((smallPrimes.drop 8).take 8).map fun p => BitVec.ofNat 64 (rootFloor 2 (p * 2 ^ 128))

/-- A message padded to whole 128-byte blocks. -/
def shaPad (m : List Byte) : List Byte :=
  m ++ 0x80#8 :: zeroBytes ((239 - m.length % 128) % 128) ++ (natLE 16 (8 * m.length)).reverse

/-- The 80 words of one block, latest first. -/
def shaWords (block : List Byte) : List (BitVec 64) :=
  let first := (List.range 16).map fun i => BitVec.ofNat 64 (leNat (bytesAt block (8 * i) 8).reverse)
  (List.range 64).foldl (fun ws _ =>
    let w (i : Nat) : BitVec 64 := ws.getD i 0
    let s0 := (w 14).rotateRight 1 ^^^ (w 14).rotateRight 8 ^^^ (w 14 >>> 7)
    let s1 := (w 1).rotateRight 19 ^^^ (w 1).rotateRight 61 ^^^ (w 1 >>> 6)
    (w 15 + s0 + w 6 + s1) :: ws) first.reverse

/-- One round. -/
def shaRound (h : List (BitVec 64)) (kw : BitVec 64 × BitVec 64) : List (BitVec 64) :=
  match h with
  | [a, b, c, d, e, f, g, x] =>
    let t1 := x + (e.rotateRight 14 ^^^ e.rotateRight 18 ^^^ e.rotateRight 41) + ((e &&& f) ^^^ (~~~ e &&& g)) + kw.1 + kw.2
    let t2 := (a.rotateRight 28 ^^^ a.rotateRight 34 ^^^ a.rotateRight 39) + ((a &&& b) ^^^ (a &&& c) ^^^ (b &&& c))
    [t1 + t2, a, b, c, d + t1, e, f, g]
  | h => h

def shaBlock (ks h : List (BitVec 64)) (block : List Byte) : List (BitVec 64) :=
  (h.zip ((ks.zip (shaWords block).reverse).foldl shaRound h)).map fun p => p.1 + p.2

/-- SHA-384: 48 bytes. -/
def sha384 (m : List Byte) : List Byte :=
  let p := shaPad m
  let h := (List.range (p.length / 128)).foldl (fun h i => shaBlock shaK h (bytesAt p (128 * i) 128)) shaInit
  (h.take 6).flatMap fun w => (natLE 8 w.toNat).reverse

/-! ### P-384 -/

def p384 : Nat := 2 ^ 384 - 2 ^ 128 - 2 ^ 96 + 2 ^ 32 - 1

def p384b : Nat := 0xB3312FA7E23EE7E4988E056BE3F82D19181D9C6EFE8141120314088F5013875AC656398D8A2ED19D2A85C8EDD3EC2AEF

/-- An uncompressed point of 97 bytes lies on P-384 (21 R659, R668). -/
def onP384 (pt : List Byte) : Bool :=
  let x := leNat (bytesAt pt 1 48).reverse
  let y := leNat (bytesAt pt 49 48).reverse
  pt.headD 0 == 4#8 && decide (x < p384) && decide (y < p384) && (y * y) % p384 == (x * x * x + (p384 - 3) * x + p384b) % p384

end Sys2Proof.Machine
end

