-- ==== Sys2Proof/Machine/Flash.lean ====
section
/-!
DEFINITION. The Base tier: blocks, stripes and streams, the unit map, reads and writes, garbage collection, retirement, spare
and stalls, persistent records (13 R420 to R459).
-/

namespace Sys2Proof.Machine

def State.withBft (s : State) (f : BftBlock → BftBlock) : State := { s with bft := f s.bft }

/-- The number of a unit of a volume (R423). -/
def unitKey (vol u : Nat) : Nat := vol * 2 ^ 32 + u

def pageBlock (page : Nat) : Nat := page / 4096
def blockChan (b : Nat) : Nat := b / 65536 / 16

/-- The page number that stands for no page yet. -/
def noPage : Nat := 2 ^ 60

def State.blk (s : State) (b : Nat) : FlashBlock := s.bft.blocks.getD b {}

def State.setBlk (s : State) (b : Nat) (v : FlashBlock) : State := s.withBft fun f => { f with blocks := f.blocks.set b v }

/-! ### Capacity (R444, R445) -/

/-- SpareBlocks in thousandths of its first value. -/
def BftBlock.sparePermille (f : BftBlock) : Nat :=
  let first := f.spareFirst.getD 0
  if first = 0 then 0 else f.spareBlocks * 1000 / first

/-- What follows a retirement (R445, R446). -/
def State.checkSpare (s : State) : State :=
  let f := s.bft
  let low := s.reg (pgBft) 0x058
  let s := if !f.spareLow && low != 0 && f.spareBlocks * 1000 < low * f.spareFirst.getD 0
    then (s.withBft fun f => { f with spareLow := true }).sendFault pgBft .baseSpareLow else s
  if !f.exhausted && f.spareBlocks = 0 then (s.withBft fun f => { f with exhausted := true }).sendFault pgBft .baseExhausted else s

/-! ### Free blocks and pages (R421, R434, R437) -/

/-- The least-worn free block of a LUN, with its erase count; the LUN's last block is BFT's own (R421, R437). -/
def BftBlock.lunFree (f : BftBlock) (lun : Nat) : Option (Nat × Nat) :=
  let listed := (f.blocks.filter fun e => e.1 / 65536 == lun && e.2.use == .free).map fun e => (e.2.erases, e.1)
  let fresh := ((f.blocks.lowestFree (lun * 65536) (lun * 65536 + f.blocksPerLun - 1)).map fun b => (0, b)).toList
  (fresh ++ listed).foldl (fun best x => match best with
    | none => some x
    | some b => if x.1 < b.1 || (x.1 == b.1 && x.2 < b.2) then some x else some b) none

/-- The block that R437 chooses on a channel. -/
def BftBlock.chanFree (f : BftBlock) (ch : Nat) : Option Nat :=
  ((f.luns.filter fun l => l / 16 == ch).filterMap f.lunFree).foldl (fun (best : Option (Nat × Nat)) x => match best with
    | none => some x
    | some b => if x.1 < b.1 || (x.1 == b.1 && x.2 < b.2) then some x else some b) none |>.map fun x => x.2

/-- Blocks that a stream may still take: host writes leave the reserve (R440). -/
def BftBlock.takable (f : BftBlock) (stream : Nat) : Nat := if stream = 2 then f.freeBlocks else f.freeBlocks - 64

/-- Open a stripe for a stream: a block on each of up to 31 channels, and a parity block on a further one (R434, R437). -/
def State.openStripe (s : State) (stream : Nat) : State :=
  let f := s.bft
  let bs := ((List.range 32).filterMap f.chanFree).take (min 32 (f.takable stream))
  if bs.length < 2 then s
  else
    let parity := bs.getLast?.getD 0
    let data := bs.dropLast
    let s := data.foldl (fun s b => s.setBlk b { s.blk b with use := .opened }) (s.setBlk parity { s.blk parity with use := .parity })
    s.withBft fun f => { f with streams := f.streams.set stream { data := data, parity := parity } }

/-- Pages that a stripe holds once it is closed (R434, R453). -/
def Stripe.total (st : Stripe) (pagesPerBlock : Nat) : Nat := st.limit.getD (st.data.length * pagesPerBlock)

/-- Allot the next page of a stream (R434); none where no block is to be had. -/
def State.allot (s : State) (stream : Nat) : State × Option Nat :=
  let s := if (s.bft.streams.find? stream).isNone then s.openStripe stream else s
  match s.bft.streams.find? stream with
  | none => (s, none)
  | some st =>
    let n := st.data.length
    let page := st.data.getD (st.next % n) 0 * 4096 + st.next / n
    let st := { st with next := st.next + 1 }
    if st.next < st.total s.bft.pagesPerBlock then
      (s.withBft fun f => { f with streams := f.streams.set stream st }, some page)
    else
      (s.withBft fun f => { f with streams := f.streams.erase stream, closing := f.closing.set f.closing.nextKey st }, some page)

/-- Start an operation on the devices. -/
def State.startOp (s : State) (task : FlashTask) (page : Nat) : State :=
  s.withBft fun f => { f with ops := f.ops.set f.ops.nextKey { task := task, page := page } }

def State.endOp (s : State) (op : Nat) : State := s.withBft fun f => { f with ops := f.ops.erase op }

/-! ### The map (R423, R424) -/

/-- A page no longer holds a valid unit. -/
def State.unmapPage (s : State) (page : Nat) : State :=
  if (s.bft.blocks.find? (pageBlock page)).isSome then
    s.setBlk (pageBlock page) { s.blk (pageBlock page) with valid := (s.blk (pageBlock page)).valid.erase (page % 4096) }
  else s

/-- Move a unit's entry to a programmed page (R423, R439). -/
def State.mapUnit (s : State) (key page : Nat) (u : FlashUnit) : State :=
  let s := match s.bft.units.find? key with
    | some old => s.unmapPage old.page
    | none => s
  let b := pageBlock page
  let s := s.setBlk b { s.blk b with valid := (s.blk b).valid.set (page % 4096) key }
  s.withBft fun f => { f with units := f.units.set key { u with page := page } }

/-- Bytes of a volume as a read finds them; never-written units read zeros, discarded parts old bytes or zeros (R424, R430). -/
def State.volByte (s : State) (vol a : Nat) : Byte :=
  match s.bft.units.find? (unitKey vol (a / 16384)) with
  | none => 0
  | some u =>
    if u.loose.contains (a % 16384 / 4096) && !Config.discardKeeps (s.freeCtr * 2 ^ 64 + a) then 0
    else Memory.read u.data (a % 16384)

def State.volBytes (s : State) (vol off n : Nat) : List Byte := (List.range n).map fun i => s.volByte vol (off + i)

/-! ### Retirement (R442, R443) -/

/-- Retire a block: it leaves the good blocks, and what it still holds is moved (R440, R442). -/
def State.retireBlock (s : State) (b : Nat) : State :=
  if (s.blk b).use = .retired then s
  else
    let s := s.setBlk b { s.blk b with use := .retired }
    let s := s.withBft fun f => { f with retired := f.retired + 1,
                                         victims := if (s.blk b).valid.isEmpty then f.victims else f.victims ++ [b] }
    ((s.sticky pgBft 0x044 2).sendFault pgBft .baseBlockRetired).checkSpare

/-! ### Garbage collection and refresh (R438 to R441) -/

/-- The victim of R438: the closed block with the fewest valid pages, then the one last programmed earlier. -/
def BftBlock.gcVictim (f : BftBlock) : Option Nat :=
  ((f.blocks.filter fun e => e.2.use == .closed && !f.victims.contains e.1).foldl (fun (best : Option (Nat × FlashBlock)) e =>
    match best with
    | none => some e
    | some b => if e.2.valid.length < b.2.valid.length || (e.2.valid.length == b.2.valid.length && e.2.seq < b.2.seq) then some e
                else some b) none).map fun e => e.1

/-- Whether an operation still reads or moves pages of a block. -/
def BftBlock.blockBusy (f : BftBlock) (b : Nat) : Bool :=
  f.ops.any fun e => match e.2.task with
    | .read _ _ | .merge _ _ _ _ _ => pageBlock e.2.page == b
    | .move _ src | .check _ src => pageBlock src == b
    | _ => false

/-- Program one moved page into the Relocation stream (R438, R440). -/
def State.startMove (s : State) (key src : Nat) : State :=
  match s.allot 2 with
  | (s, none) => s
  | (s, some page) => s.startOp (.move key src) page

/-- Garbage collection goes on: it takes a block to empty, moves its pages, then erases it (R438, R441). -/
def State.gcNext (s : State) : State :=
  let s := if s.bft.victim.isSome then s
    else match s.bft.victims with
      | b :: rest => s.withBft fun f => { f with victim := some b, victims := rest }
      | [] => if s.bft.freeBlocks < 128 then s.withBft fun f => { f with victim := f.gcVictim } else s
  match s.bft.victim with
  | none => s
  | some b =>
    if s.bft.ops.any (fun e => match e.2.task with | .move _ _ | .check _ _ => true | _ => false) then s
    else match (s.blk b).valid with
      | (p, key) :: _ => s.startMove key (b * 4096 + p)
      | [] =>
        if s.bft.blockBusy b then s
        else
          let s := s.withBft fun f => { f with victim := none }
          if (s.blk b).use = .retired then s else s.startOp .erase (b * 4096)

/-! ### Stripes closing (R436) -/

/-- Every page of a closing stripe has ended: its verification begins. -/
def State.verifyNext (s : State) (n : Nat) : State :=
  match s.bft.closing.find? n with
  | none => s
  | some st =>
    if st.ended < st.total s.bft.pagesPerBlock then s
    else if st.checked < st.total s.bft.pagesPerBlock then
      let w := st.data.length
      s.startOp (.verify n) (st.data.getD (st.checked % w) 0 * 4096 + st.checked / w)
    else
      let s := st.data.foldl (fun s b => if (s.blk b).use = .opened then s.setBlk b { s.blk b with use := .closed } else s) s
      (s.withBft fun f => { f with closing := f.closing.erase n }).startOp .erase (st.parity * 4096)

/-- The stripe, open or closing, that holds a block. -/
def BftBlock.stripeOf (f : BftBlock) (b : Nat) : Option (Bool × Nat × Stripe) :=
  match List.find? (fun e => e.2.data.contains b) f.streams with
  | some e => some (true, e.1, e.2)
  | none => (List.find? (fun e => e.2.data.contains b) f.closing).map fun e => (false, e.1, e.2)

/-- One page of a stripe has ended: its parity follows at the end of a row (R434, R455). -/
def State.pageEnded (s : State) (page : Nat) : State :=
  match s.bft.stripeOf (pageBlock page) with
  | none => s
  | some (isOpen, n, st) =>
    let st := { st with ended := st.ended + 1 }
    let bytes := 16384 * (if st.ended % st.data.length = 0 then 2 else 1)
    let s := s.withBft fun f => { f with nandWr := f.nandWr + bytes, seq := f.seq + 1 }
    let b := pageBlock page
    let s := s.setBlk b { s.blk b with seq := s.bft.seq }
    if isOpen then s.withBft fun f => { f with streams := f.streams.set n st }
    else (s.withBft fun f => { f with closing := f.closing.set n st }).verifyNext n

/-- A block of a stripe whose program failed is retired; the stripe goes on in the block that R437 gives next on its channel
(R440, R442). -/
def State.replaceBlock (s : State) (b : Nat) : State :=
  let s := match s.bft.stripeOf b with
    | none => s
    | some (isOpen, n, st) =>
      match s.bft.chanFree (blockChan b) with
      | none => s
      | some b' =>
        let st := { st with data := st.data.map fun x => if x = b then b' else x }
        let s := s.setBlk b' { s.blk b' with use := .opened }
        if isOpen then s.withBft fun f => { f with streams := f.streams.set n st }
        else s.withBft fun f => { f with closing := f.closing.set n st }
  s.retireBlock b

/-! ### Base commands (R426 to R431) -/

def baseVol (raw : List Byte) : Nat := fieldAt raw 8 4
def baseLen (raw : List Byte) : Nat := fieldAt raw 40 8
def baseOff (raw : List Byte) : Nat := fieldAt raw 48 8

/-- The range checks of R426. -/
def State.baseRefusal (s : State) (k : Cmd) (align : Nat) : Option Status :=
  let len := baseLen k.raw
  let off := baseOff k.raw
  match s.bft.volumes.find? (baseVol k.raw) with
  | none => some .notFound
  | some v =>
    if len = 0 || 16777216 < len || len % align != 0 || off % align != 0 || v.gib * 2 ^ 30 < off + len then some .malformed else none

/-- The 16-byte result area (R431). -/
def baseResult (done failed : Nat) (first : Option Nat) : List Byte :=
  natLE 4 done ++ natLE 4 failed ++ natLE 8 (first.getD 0xFFFFFFFFFFFFFFFF)

def FlashTask.cid? : FlashTask → Option Nat
  | .read c _ | .merge c _ _ _ _ | .prog c _ _ => some c
  | _ => none

/-- Complete a Base command that has no operation left (R431). `detail` of the command holds the failure: 1 UNCORRECTED,
2 MEDIA_ERROR. -/
def State.baseFinish (s : State) (cid : Nat) : State :=
  match s.cmd? cid with
  | none => s
  | some k =>
    if k.phase = .admitted || s.bft.ops.any (fun e => e.2.task.cid? == some cid) then s
    else
      let ptr := cmdPtrB k.raw
      if k.aborting then s.finish cid .aborted
      else
      let s := if ptr = 0 then s else s.cmdWrite cid ptr 0 (baseResult k.done k.failed k.firstFail)
      s.finish cid (if k.failed = 0 then .ok else if k.detail = 1 then .uncorrected else .mediaError) k.done

/-- Refuse a Base command with MEDIA_EXHAUSTED (R446, R447). -/
def State.exhaustCmd (s : State) (cid : Nat) : State := (s.finish cid .mediaExhausted).bump pgBft 0x090

/-- A write or discard that meets the Exhausted state, or a ReadOnly volume (R446). -/
def State.writeBarred (s : State) (vol : Nat) : Bool :=
  s.bft.exhausted || ((s.bft.volumes.find? vol).map fun v => v.readOnly).getD false

def State.barWrite (s : State) (cid vol : Nat) : State :=
  let s := if s.bft.exhausted then
      s.withBft fun f => { f with volumes := f.volumes.modify vol (fun v => { v with readOnly := true }), readOnlySeen := true }
    else s
  s.exhaustCmd cid

/-- An earlier write or discard of some unit of the range that has not ended (R428). -/
def State.baseBehind (s : State) (cid : Nat) (k : Cmd) : Bool :=
  s.qmg.cmds.any fun e => e.1 < cid && [0x19, 0x1A].contains (cmdOpcode e.2.raw) && baseVol e.2.raw == baseVol k.raw &&
    baseOff e.2.raw / 16384 * 16384 < baseOff k.raw + baseLen k.raw && baseOff k.raw / 16384 * 16384 < baseOff e.2.raw + baseLen e.2.raw

/-- BASE_READ (R424, R426, R428): never-written parts are at hand; the others are read from the devices. -/
def baseRead (cid : Nat) (k : Cmd) (s : State) : State :=
  match s.baseRefusal k 64 with
  | some st => s.finish cid st
  | none =>
    let vol := baseVol k.raw
    let off := baseOff k.raw
    let last := off + baseLen k.raw
    let parts := List.range' (off / 4096) (ceilDiv last 4096 - off / 4096)
    let s := s.setCmd cid { k with phase := .started }
    let s := parts.foldl (fun s p =>
      match s.bft.units.find? (unitKey vol (p / 4)) with
      | some u => s.startOp (.read cid p) u.page
      | none =>
        let a := max off (p * 4096)
        let n := min last (p * 4096 + 4096) - a
        match s.cmd? cid with
        | none => s
        | some k => (s.cmdWrite cid (cmdPtrA k.raw) (a - off) (zeroBytes n)).setCmd cid { k with done := k.done + 1 }) s
    s.baseFinish cid

def execBaseRead (t cid : Nat) (s : State) : Host.Outcome State Fault Refusal :=
  done ((s.at t).withCmd cid (fun k => k.isNew 0x18 && (s.at t).accepts pgBft) (baseRead cid))

/-- The stream that a temperature names; a volume's default is hot (R435; log entry 20). -/
def streamOf (temp : Nat) : Nat := if temp = 1 then 1 else 0

/-- Allot `n` pages, or none of them. -/
def State.allotMany (s : State) (stream : Nat) : Nat → Option (State × List Nat)
  | 0 => some (s, [])
  | n + 1 =>
    match s.allot stream with
    | (_, none) => none
    | (s, some p) => (State.allotMany s stream n).map fun x => (x.1, p :: x.2)

/-- One unit of a BASE_WRITE: a whole unit is programmed, a part is merged with the rest of its unit first (R427). -/
def State.writeUnit (s : State) (cid vol u page off len : Nat) (data : List Byte) : State :=
  let lo := max off (u * 16384)
  let bytes := bytesAt data (lo - off) (min (off + len) (u * 16384 + 16384) - lo)
  match s.bft.units.find? (unitKey vol u) with
  | some x =>
    if bytes.length = 16384 then s.startOp (.prog cid (unitKey vol u) (Memory.writeN [] 0 bytes)) page
    else s.startOp (.merge cid (unitKey vol u) page (lo % 16384) bytes) x.page
  | none => s.startOp (.prog cid (unitKey vol u) (Memory.writeN [] (lo % 16384) bytes)) page

/-- BASE_WRITE (R426 to R429, R435, R446, R447): a write that finds no page waits. -/
def baseWrite (cid : Nat) (k : Cmd) (s : State) : State :=
  let vol := baseVol k.raw
  let temp := fieldAt k.raw 56 1
  match s.baseRefusal k 4096 with
  | some st => s.finish cid st
  | none =>
    if 1 < temp && temp != 0xFF then s.finish cid .malformed
    else if s.writeBarred vol then s.barWrite cid vol
    else
      let off := baseOff k.raw
      let len := baseLen k.raw
      let first := off / 16384
      let units := List.range' first (ceilDiv (off + len) 16384 - first)
      match s.allotMany (streamOf temp) units.length with
      | none =>
        let s := if s.bft.stalled then s else s.bump pgBft 0x08C
        (s.withBft fun f => { f with stalled := true, waits := f.waits.set cid (f.waits.getD cid s.now) }).setCmd cid { k with phase := .waiting }
      | some (s, pages) =>
        let data := s.cmdRead k (cmdPtrA k.raw) len
        let s := s.withBft fun f => { f with waits := f.waits.erase cid, hostWr := f.hostWr + len }
        let s := s.setCmd cid { k with phase := .started }
        (units.zip pages).foldl (fun s e => s.writeUnit cid vol e.1 e.2 off len data) s

/-- When a BASE_WRITE step takes place: new, or waiting for a page, and no earlier write of its units is on its way. -/
def State.canBaseWrite (s : State) (cid : Nat) (k : Cmd) : Bool :=
  cmdOpcode k.raw == 0x19 && s.accepts pgBft && (k.phase == .admitted || (k.phase == .waiting && s.bft.waits.has cid)) && !s.baseBehind cid k

def execBaseWrite (t cid : Nat) (s : State) : Host.Outcome State Fault Refusal :=
  done ((s.at t).withCmd cid ((s.at t).canBaseWrite cid) (baseWrite cid))

/-- BASE_DISCARD (R430, R446). -/
def baseDiscard (cid : Nat) (k : Cmd) (s : State) : State :=
  let vol := baseVol k.raw
  match s.baseRefusal k 16384 with
  | some st => s.finish cid st
  | none =>
    if s.writeBarred vol then s.barWrite cid vol
    else
      let units := List.range' (baseOff k.raw / 16384) (baseLen k.raw / 16384)
      let s := s.withBft fun f => { f with units := units.foldl (fun us u => us.modify (unitKey vol u) fun x => { x with loose := [0, 1, 2, 3] }) f.units }
      let n := baseLen k.raw / 4096
      let s := if cmdPtrB k.raw = 0 then s else s.cmdWrite cid (cmdPtrB k.raw) 0 (baseResult n 0 none)
      s.finish cid .ok n

def execBaseDiscard (t cid : Nat) (s : State) : Host.Outcome State Fault Refusal :=
  done ((s.at t).withCmd cid (fun k => k.isNew 0x1A && (s.at t).accepts pgBft && !(s.at t).baseBehind cid k) (baseDiscard cid))

/-! ### Reads that end (R432, R433, R436, R441) -/

/-- Whether a read that ended so brought its data. -/
def readGood : FlashRead → Bool
  | .uncorrectable | .deviceFailed => false
  | _ => true

/-- What is counted of a codeword read (R432; R458). -/
def State.countRead (s : State) (page : Nat) (r : FlashRead) : State :=
  let s := s.bump (pgFch (blockChan (pageBlock page))) 0x04C
  match r with
  | .clean => s
  | .hard => s.withBft fun f => { f with hard := f.hard + 1 }
  | .retry n => (s.bump (pgFch (blockChan (pageBlock page))) 0x058 n).withBft fun f => { f with retry := f.retry + 1 }
  | .soft => (s.bump pgBft 0x084).withBft fun f => { f with soft := f.soft + 1 }
  | .rebuilt => ((s.bump pgBft 0x088).sticky pgBft 0x044 1).withBft fun f => { f with rebuilds := f.rebuilds + 1 }
  | .uncorrectable => ((s.bump pgBft 0x080).sticky pgBft 0x044 4).withBft fun f => { f with uncorr := f.uncorr + 1 }
  | .deviceFailed => s

/-- A failed read of a volume is reported (R433). -/
def State.baseBad (s : State) (vol off : Nat) : State := s.sendFault pgBft .baseUncorrectable vol off

/-- A part of a Base command failed (R431). -/
def Cmd.partFailed (k : Cmd) (at_ : Nat) (media : Bool) (n : Nat) : Cmd :=
  let first := match k.firstFail with
    | none => true
    | some o => decide (at_ < o)
  { k with failed := k.failed + n, firstFail := if first then some at_ else k.firstFail,
           detail := if first then (if media then 2 else 1) else k.detail }

/-- What a read of part `p` of a unit meets, given how the devices did: a lost unit fails, a codeword that reads uncorrectable
stays so, and only an open block is rebuilt from parity (R432, R433, R443). -/
def State.readOutcome (s : State) (key part page : Nat) (r : FlashRead) : FlashRead :=
  match s.bft.units.find? key with
  | none => r
  | some u =>
    if u.lost then .deviceFailed
    else if u.bad.contains part then .uncorrectable
    else if r = .rebuilt && (s.blk (pageBlock page)).use != .opened then .uncorrectable
    else r

/-- A codeword of a unit reads uncorrectable from now on (R433). -/
def State.markBad (s : State) (key part : Nat) : State :=
  s.withBft fun f => { f with units := f.units.modify key fun u => { u with bad := if u.bad.contains part then u.bad else u.bad ++ [part] } }

/-- Stage 3 on a closed block asks for its refresh (R441). -/
def State.noteStage3 (s : State) (b : Nat) (r : FlashRead) : State :=
  if r = .soft && (s.blk b).use = .closed && bitOf (s.reg pgBft 0x040) 2 && !s.bft.victims.contains b && s.bft.victim != some b then
    (s.withBft fun f => { f with victims := f.victims ++ [b], refreshes := f.refreshes + 1 }).gcNext
  else s

/-- One part of a BASE_READ has ended (R431, R433). -/
def State.readPartDone (s : State) (cid p page : Nat) (r : FlashRead) : State :=
  match s.cmd? cid with
  | none => s
  | some k =>
    let vol := baseVol k.raw
    let off := baseOff k.raw
    let r := s.readOutcome (unitKey vol (p / 4)) (p % 4) page r
    let a := max off (p * 4096)
    let n := min (off + baseLen k.raw) (p * 4096 + 4096) - a
    let s := s.countRead page r
    let s := if readGood r then (s.cmdWrite cid (cmdPtrA k.raw) (a - off) (s.volBytes vol a n)).setCmd cid { k with done := k.done + 1 }
      else
        let s := if r = .uncorrectable then s.markBad (unitKey vol (p / 4)) (p % 4) else s
        ((s.cmdWrite cid (cmdPtrA k.raw) (a - off) (List.replicate n 0xFF#8)).setCmd cid
          (k.partFailed (p * 4096) (r == FlashRead.deviceFailed) 1)).baseBad vol (p * 4096)
    (s.noteStage3 (pageBlock page) r).baseFinish cid

/-- The rest of a partly written unit has been read (R427). -/
def State.mergeDone (s : State) (cid key target off : Nat) (data : List Byte) (page : Nat) (r : FlashRead) : State :=
  match s.cmd? cid, s.bft.units.find? key with
  | some k, some u =>
    let covered := List.range' (off / 4096) (data.length / 4096)
    let bad := u.bad.filter fun p => !covered.contains p
    let r := if u.lost then .deviceFailed else if !bad.isEmpty then .uncorrectable else r
    let s := s.countRead page r
    if readGood r then s.startOp (.prog cid key (Memory.writeN u.data off data)) target
    else
      let at_ := key % 2 ^ 32 * 16384
      ((s.setCmd cid (k.partFailed at_ (r == FlashRead.deviceFailed) (data.length / 4096))).baseBad (key / 2 ^ 32) at_).pageEnded target |>.baseFinish cid
  | _, _ => s

/-- One page of a closing stripe has been read back (R436): a codeword that fails, or that reaches stage 3, is rebuilt from
parity, its unit moves, and its block is retired. -/
def State.verifyDone (s : State) (n page : Nat) (r : FlashRead) : State :=
  let b := pageBlock page
  let bad := !readGood r || r == .soft
  let s := s.countRead page (if readGood r then r else .rebuilt)
  let s := match (s.blk b).valid.find? (page % 4096) with
    | some key => if bad then s.startMove key page else s
    | none => s
  let s := if bad then s.retireBlock b else s
  (s.withBft fun f => { f with closing := f.closing.modify n fun st => { st with checked := st.checked + 1 } }).verifyNext n

/-- FLASH_READ_COMPLETE (R427, R432, R433, R436). A LUN that answers starts its run of failures again (R443). -/
def flashReadComplete (op : Nat) (r : FlashRead) (s : State) : State :=
  match s.bft.ops.find? op with
  | none => s
  | some o =>
    if !s.busOpen (blockChan (pageBlock o.page)) then s
    else
    let clear (s : State) : State := (s.endOp op).withBft fun f => { f with lunFails := f.lunFails.erase (pageBlock o.page / 65536) }
    match o.task with
    | .read cid p => ((clear s).readPartDone cid p o.page r).gcNext
    | .merge cid key target off data => ((clear s).mergeDone cid key target off data o.page r).gcNext
    | .verify n => ((clear s).verifyDone n o.page r).gcNext
    | _ => s

def execFlashReadComplete (t op : Nat) (r : FlashRead) (s : State) : Host.Outcome State Fault Refusal :=
  done ((s.at t).onlyIf s.live (flashReadComplete op r))

/-! ### Programs, copies and erases that end (R429, R436 to R442, R447) -/

/-- Give a page to a program that waits for one. -/
def State.placeProgram (s : State) (task : FlashTask) (stream : Nat) : State :=
  match s.allot stream with
  | (s, some page) => s.startOp task page
  | (s, none) => (s.withBft fun f => { f with stalled := true }).startOp task noPage

/-- A page's program has ended well (R423, R429, R439). -/
def State.programmed (s : State) (o : FlashOp) : State :=
  let s := s.bump (pgFch (blockChan (pageBlock o.page))) 0x050
  match o.task with
  | .prog cid key data =>
    let s := (s.mapUnit key o.page { page := o.page, data := data }).pageEnded o.page
    let s := match s.cmd? cid with
      | none => s
      | some k =>
        let lo := max (baseOff k.raw) (key % 2 ^ 32 * 16384)
        let hi := min (baseOff k.raw + baseLen k.raw) (key % 2 ^ 32 * 16384 + 16384)
        s.setCmd cid { k with done := k.done + (hi - lo) / 4096 }
    s.baseFinish cid
  | .move key src => (s.pageEnded o.page).startOp (.check key src) o.page
  | _ => s

/-- A page's program has failed (R440, R442): its block is retired and the program tried again elsewhere. -/
def State.programFailed (s : State) (o : FlashOp) : State :=
  let s := (s.withBft fun f => { f with progFail := f.progFail + 1 }).pageEnded o.page |>.replaceBlock (pageBlock o.page)
  match o.task with
  | .prog cid _ _ =>
    let temp := ((s.cmd? cid).map fun k => fieldAt k.raw 56 1).getD 0
    s.placeProgram o.task (streamOf temp)
  | .move _ _ => (s.bump pgBft 0x094).placeProgram o.task 2
  | _ => s

/-- FLASH_PROGRAM_COMPLETE (R429, R434, R436, R440): the end of one page's program, its parity with it (log entry 21). -/
def flashProgramComplete (op : Nat) (ok : Bool) (s : State) : State :=
  match s.bft.ops.find? op with
  | none => s
  | some o =>
    let mine := match o.task with
      | .prog _ _ _ | .move _ _ => true
      | _ => false
    if !mine || o.page = noPage then s
    else
      let s := (s.endOp op).withBft fun f => { f with lunFails := f.lunFails.erase (pageBlock o.page / 65536) }
      (if ok then s.programmed o else s.programFailed o).gcNext

def execFlashProgramComplete (t op : Nat) (ok : Bool) (s : State) : Host.Outcome State Fault Refusal :=
  done ((s.at t).onlyIf s.live (flashProgramComplete op ok))

/-- GC_COPY_COMPLETE (R439, R440): the entry moves when the read-back decoded and the entry still names the source. -/
def gcCopyComplete (op : Nat) (verified : Bool) (s : State) : State :=
  match s.bft.ops.find? op with
  | none => s
  | some o =>
    match o.task with
    | .check key src =>
      let s := s.endOp op
      match s.bft.units.find? key with
      | none => s.gcNext
      | some u =>
        if u.page != src then s.gcNext
        else if verified then (s.mapUnit key o.page u).gcNext
        else ((s.bump pgBft 0x094).placeProgram (.move key src) 2)
    | _ => s

def execGcCopyComplete (t op : Nat) (verified : Bool) (s : State) : Host.Outcome State Fault Refusal :=
  done ((s.at t).onlyIf s.live (gcCopyComplete op verified))

/-- Pages for the programs that wait, and the end of a stall (R447). -/
def State.unstall (s : State) : State :=
  let stuck := s.bft.ops.filter fun e => e.2.page == noPage
  let s := if s.bft.takable 0 = 0 then s else s.withBft fun f => { f with stalled := false }
  stuck.foldl (fun s e =>
    let stream := match e.2.task with
      | .prog cid _ _ => streamOf (((s.cmd? cid).map fun k => fieldAt k.raw 56 1).getD 0)
      | _ => 2
    (s.endOp e.1).placeProgram e.2.task stream) s

/-- FLASH_ERASE_COMPLETE (R438, R442, R447). -/
def flashEraseComplete (op : Nat) (ok : Bool) (s : State) : State :=
  match s.bft.ops.find? op with
  | none => s
  | some o =>
    if o.task != .erase then s
    else
      let b := pageBlock o.page
      let s := (s.endOp op).bump (pgFch (blockChan b)) 0x054
      let s := s.withBft fun f => { f with lunFails := f.lunFails.erase (b / 65536) }
      let s := if ok then
          let n := (s.blk b).erases + 1
          let s := s.setBlk b { s.blk b with use := .free, erases := n, valid := [] }
          if s.bft.ratedPE ≤ n then s.retireBlock b else s
        else (s.withBft fun f => { f with eraseFail := f.eraseFail + 1 }).retireBlock b
      s.unstall.gcNext

def execFlashEraseComplete (t op : Nat) (ok : Bool) (s : State) : Host.Outcome State Fault Refusal :=
  done ((s.at t).onlyIf s.live (flashEraseComplete op ok))

/-! ### Devices that do not answer (R433, R443) -/

/-- A LUN goes offline (R443): its blocks are retired, units of open blocks are rebuilt and moved, others are lost. -/
def State.lunOffline (s : State) (lun : Nat) : State :=
  let s := (s.withBft fun f => { f with luns := f.luns.erase lun, lunFailures := f.lunFailures + 1 }).sendFault pgBft .baseLunFailed
  let mine := s.bft.blocks.filter fun e => e.1 / 65536 == lun
  let isOpen := (mine.filter fun e => e.2.use == .opened).map fun e => e.1
  let already := (mine.filter fun e => e.2.use == .retired).length
  let s := s.withBft fun f =>
    { f with units := f.units.mapVal fun u => if pageBlock u.page / 65536 = lun && !isOpen.contains (pageBlock u.page) then { u with lost := true } else u,
             blocks := f.blocks.map fun e => if e.1 / 65536 = lun then (e.1, { e.2 with use := .retired }) else e,
             retired := f.retired + (f.blocksPerLun - 1 - already),
             victims := f.victims ++ isOpen }
  (((s.sticky pgBft 0x044 2).sendFault pgBft .baseBlockRetired).checkSpare).gcNext

/-- LUN_TIMEOUT (R433, R443): an operation has not been answered within 10 ms. -/
def lunTimeout (op : Nat) (s : State) : State :=
  match s.bft.ops.find? op with
  | none => s
  | some o =>
    if o.page = noPage then s
    else
      let lun := pageBlock o.page / 65536
      let n := s.bft.lunFails.getD lun 0 + 1
      let s := ((s.endOp op).bump (pgFch (lun / 16)) 0x05C).withBft fun f => { f with lunFails := f.lunFails.set lun n }
      let s := match o.task with
        | .read cid p => s.readPartDone cid p o.page .deviceFailed
        | .merge cid key target off data => s.mergeDone cid key target off data o.page .deviceFailed
        | .verify st => s.verifyDone st o.page .deviceFailed
        | .erase => (s.withBft fun f => { f with eraseFail := f.eraseFail + 1 }).retireBlock (pageBlock o.page)
        | .check key src => s.placeProgram (.move key src) 2
        | _ => s.programFailed o
      (if 3 ≤ n then s.lunOffline lun else s).gcNext

def execLunTimeout (t op : Nat) (s : State) : Host.Outcome State Fault Refusal :=
  done ((s.at t).onlyIf s.live (lunTimeout op))

/-- BASE_PATROL (R441): a closed block has been read; `weak` of its codewords needed stage 2. -/
def basePatrol (b weak : Nat) (stage3 : Bool) (s : State) : State :=
  if !bitOf (s.reg pgBft 0x040) 3 || (s.blk b).use != .closed then s
  else
    let s := s.bump (pgFch (blockChan b)) 0x04C s.bft.pagesPerBlock
    if bitOf (s.reg pgBft 0x040) 2 && (stage3 || s.bft.pagesPerBlock * 4 < weak * 8) && !s.bft.victims.contains b && s.bft.victim != some b then
      (s.withBft fun f => { f with victims := f.victims ++ [b], refreshes := f.refreshes + 1 }).gcNext
    else s

def execBasePatrol (t block weak : Nat) (stage3 : Bool) (s : State) : Host.Outcome State Fault Refusal :=
  done ((s.at t).onlyIf s.live (basePatrol block weak stage3))

/-- WRITE_STALL_EXPIRY (R447): a write has waited longer than BFT_STALL_MS. -/
def writeStallExpiry (cid : Nat) (s : State) : State :=
  match s.bft.waits.find? cid with
  | none => s
  | some since =>
    if since + s.reg pgBft 0x050 * ms < s.now then
      (s.withBft fun f => { f with waits := f.waits.erase cid }).exhaustCmd cid
    else s

def execWriteStallExpiry (t cid : Nat) (s : State) : Host.Outcome State Fault Refusal :=
  done ((s.at t).onlyIf s.live (writeStallExpiry cid))

/-- FTL_CHECKPOINT (R449): every BFT_CKPT_S seconds, into the two halves in turn. -/
def ftlCheckpoint (s : State) : State :=
  if bitOf (s.reg pgBft 0x040) 0 && s.bft.ftlAt + s.reg pgBft 0x04C * oneSec ≤ s.now then
    s.withBft fun f => { f with ftlAt := s.now, ftlHalf := 1 - f.ftlHalf, ftlSeq := f.ftlSeq.set f.ftlHalf (some f.seq) }
  else s

def execFtlCheckpoint (t : Nat) (s : State) : Host.Outcome State Fault Refusal :=
  done ((s.at t).onlyIf s.live ftlCheckpoint)

/-! ### Device temperatures and the health page (R455) -/

def hotter (a b : Option Int) : Option Int :=
  match a, b with
  | none, x => x
  | x, none => x
  | some x, some y => some (max x y)

/-- Push a sample into maxima whose leading entry covers the running period. -/
def pushMax (xs : List (Option Int)) (keep : Nat) (newPeriod : Bool) (x : Option Int) : List (Option Int) :=
  match xs with
  | [] => [x]
  | y :: rest => if newPeriod then (x :: y :: rest).take keep else hotter y x :: rest

/-- DEVICE_TEMP_POLL (R455): every 60 s. -/
def deviceTempPoll (temps : List Int) (s : State) : State :=
  if bitOf (s.reg pgBft 0x040) 1 && s.bft.tempAt + 60 * oneSec ≤ s.now then
    let now := temps.foldl (fun m x => hotter m (some x)) none
    let hot : Bool := match s.bft.tempNow with
      | some x => decide (85 < x)
      | none => false
    s.withBft fun f =>
      { f with tempNow := now, tempMax := hotter f.tempMax now, tempAt := s.now,
               above85 := f.above85 + (if hot then s.now - f.tempAt else 0),
               hours := pushMax f.hours 24 (f.tempAt / (3600 * oneSec) != s.now / (3600 * oneSec)) now,
               days := pushMax f.days 30 (f.tempAt / (86400 * oneSec) != s.now / (86400 * oneSec)) now }
  else s

def execDeviceTempPoll (t : Nat) (temps : List Int) (s : State) : Host.Outcome State Fault Refusal :=
  done ((s.at t).onlyIf s.live (deviceTempPoll temps))

/-- A temperature byte; 0x80 when no device reports (R455). -/
def tempByte (x : Option Int) : List Byte := natLE 1 (match x with
  | none => 0x80
  | some v => toTwos 8 v)

def tempBytes (xs : List (Option Int)) (n : Nat) : List Byte := (List.range n).flatMap fun i => tempByte ((xs.getD i none))

/-- The health page (R455). -/
def BftBlock.health (f : BftBlock) : List Byte :=
  let good := f.blocks.filter fun e => e.2.use != .retired
  let sum := (good.map fun e => e.2.erases).sum
  let avg := if f.goodBlocks = 0 then 0 else sum / f.goodBlocks
  natLE 1 0x10 ++ natLE 1 (boolNat f.exhausted + 2 * boolNat f.spareLow + 4 * boolNat f.readOnlySeen) ++
  natLE 2 ((List.range 32).filter fun c => f.luns.any fun l => l / 16 == c).length ++ natLE 2 f.luns.length ++ zeroBytes 2 ++
  natLE 4 f.sparePermille ++ natLE 4 f.spareBlocks ++ natLE 4 f.retired ++ natLE 4 f.ratedPE ++ natLE 4 avg ++
  natLE 4 ((good.map fun e => e.2.erases).foldl max 0) ++ natLE 4 (if f.ratedPE = 0 then 0 else avg * 1000 / f.ratedPE) ++ zeroBytes 4 ++
  natLE 8 f.hostWr ++ natLE 8 f.nandWr ++ natLE 8 f.hard ++ natLE 8 f.retry ++ natLE 8 f.soft ++ natLE 8 f.uncorr ++
  natLE 4 f.progFail ++ natLE 4 f.eraseFail ++ natLE 4 f.rebuilds ++ natLE 4 f.lunFailures ++ natLE 4 f.refreshes ++ zeroBytes 4 ++
  tempByte f.tempNow ++ tempByte f.tempMax ++ zeroBytes 2 ++ natLE 4 (f.above85 / (60 * oneSec)) ++ tempBytes f.hours 24 ++ tempBytes f.days 30 ++
  zeroBytes 82

/-- HEALTH_READ (R455). -/
def healthRead (cid : Nat) (k : Cmd) (s : State) : State := (s.cmdWrite cid (cmdPtrA k.raw) 0 s.bft.health).finish cid .ok

def execHealthRead (t cid : Nat) (s : State) : Host.Outcome State Fault Refusal :=
  done ((s.at t).withCmd cid (·.isAdmin 0x44) (healthRead cid))

/-! ### Volumes (R422, R446) -/

/-- VOLUME_CREATE (R422; 16 R528). -/
def volumeCreate (cid : Nat) (k : Cmd) (s : State) : State :=
  let d := fieldAt k.raw 8 2
  let n := fieldAt k.raw 12 4
  let gib := fieldAt k.raw 52 4
  if 16384 ≤ n || s.dom.fuses.maxDomains ≤ d || gib = 0 then s.finish cid .malformed
  else if s.bft.volumes.has n then s.finish cid .busy
  else if (s.domain d).state != .active then s.finish cid .notFound
  else match s.takeBase d gib with
    | (s, false) => s.finish cid .quota
    | (s, true) => (s.withBft fun f => { f with volumes := f.volumes.set n { owner := d, gib := gib } }).finish cid .ok

def execVolumeCreate (t cid : Nat) (s : State) : Host.Outcome State Fault Refusal :=
  done ((s.at t).withCmd cid (·.isAdmin 0x40) (volumeCreate cid))

/-- A volume that commands can name (R422). -/
def State.openVolume? (s : State) (n : Nat) : Option Volume :=
  match s.bft.volumes.find? n with
  | some v => if v.isClosed.isNone then some v else none
  | none => none

/-- VOLUME_DESTROY (R422): the volume closes at once. -/
def volumeDestroy (cid : Nat) (k : Cmd) (s : State) : State :=
  let n := fieldAt k.raw 12 4
  match s.openVolume? n with
  | none => s.finish cid .notFound
  | some v => (s.withBft fun f => { f with volumes := f.volumes.set n { v with isClosed := some cid } }).setCmd cid { k with phase := .waiting }

def execVolumeDestroy (t cid : Nat) (s : State) : Host.Outcome State Fault Refusal :=
  done ((s.at t).withCmd cid (·.isAdmin 0x41) (volumeDestroy cid))

/-- Whether a command names a volume (13 R426, R450; 03 R107; 11 R376; 15 R505). -/
def Cmd.namesVolume (k : Cmd) (n : Nat) : Bool :=
  ([0x18, 0x19, 0x1A].contains (cmdOpcode k.raw) && baseVol k.raw == n) ||
  (cmdOpcode k.raw == 0x38 && [0x30, 0x42, 0x43, 0x55].contains (cmdAdminOp k.raw) && fieldAt k.raw 12 4 == n)

/-- The last admitted command that names a closed volume has completed (R422). -/
def State.drainVolume (s : State) (n : Nat) : State :=
  match s.bft.volumes.find? n with
  | none => s
  | some v =>
    match v.isClosed with
    | none => s
    | some cid =>
      if s.qmg.cmds.any (fun e => e.2.namesVolume n) then s
      else
        let d := s.domain v.owner
        let s := if v.charged then s.setDomain v.owner { d with usedBase := d.usedBase - v.gib } else s
        let gone := s.bft.units.filter fun e => e.1 / 2 ^ 32 == n
        let s := gone.foldl (fun s e => s.unmapPage e.2.page) s
        (s.withBft fun f => { f with volumes := f.volumes.erase n, units := f.units.filter (fun e => e.1 / 2 ^ 32 != n),
                                     ckpts := f.ckpts.filter fun e => e.1 / 65536 != n }).finish cid .ok

/-- VOLUME_RW (R446). -/
def volumeRw (cid : Nat) (k : Cmd) (s : State) : State :=
  let n := fieldAt k.raw 12 4
  match s.openVolume? n with
  | none => s.finish cid .notFound
  | some v =>
    if s.bft.spareBlocks = 0 then s.exhaustCmd cid
    else (s.withBft fun f => { f with volumes := f.volumes.set n { v with readOnly := false } }).finish cid .ok

def execVolumeRw (t cid : Nat) (s : State) : Host.Outcome State Fault Refusal :=
  done ((s.at t).withCmd cid (·.isAdmin 0x42) (volumeRw cid))

/-! ### Index checkpoints (R448, R450; 03 R71, R107) -/

/-- COLLECTION_CHECKPOINT (R450). With `fails`, BFT cannot program the record: MEDIA_ERROR, and the previous record stays
(log entry 22). -/
def collectionCheckpoint (cid : Nat) (k : Cmd) (fails : Bool) (s : State) : State :=
  let c := fieldAt k.raw 8 4
  let n := fieldAt k.raw 12 4
  match s.openColl? c, s.openVolume? n with
  | some coll, some v =>
    if v.owner != coll.owner then s.finish cid .denied
    else if s.writeBarred n then s.barWrite cid n
    else if fails then s.finish cid .mediaError
    else
      let floors := s.wlk.sources.map fun e => (e.1, e.2.w, e.2.next)
      let ck : Checkpoint := { coll := coll, floors := floors, seq := s.bft.seq + 1 }
      (s.withBft fun f => { f with seq := f.seq + 1, ckpts := f.ckpts.set (n * 65536 + c) ck }).finish cid .ok
  | _, _ => s.finish cid .notFound

def execCollectionCheckpoint (t cid : Nat) (fails : Bool) (s : State) : Host.Outcome State Fault Refusal :=
  done ((s.at t).withCmd cid (fun k => k.isAdmin 0x43 && (s.at t).accepts pgBft) fun k s => collectionCheckpoint cid k fails s)

/-- The collection as a restore installs it: what the checkpoint records, with no work in progress (03 R106, R107). -/
def Coll.restored (c : Coll) (floors : List (Nat × Nat × Nat)) : Coll :=
  { c with isClosed := none, entering := none, merging := none, binding := none, limbo := [], dead := [], extents := 0,
           segs := Table.mapVal (c.segs.filter fun e => e.2.state != .retired) fun g =>
             if g.state = .compacting || g.state = .entering then { g with state := .sealed } else g,
           floors := floors.foldl (fun (t : Table ReplayFloor) e => t.set e.1 { w := e.2.1, n := e.2.2 }) [] }

/-- A restore has set a replay floor for a source (03 R107). -/
def State.floorSet (s : State) (e : Nat × Nat × Nat) : State :=
  let least := match s.wlk.leastFloor.find? e.1 with
    | none => e.2.1
    | some x => min x e.2.1
  let s := { s with wlk := { s.wlk with leastFloor := s.wlk.leastFloor.set e.1 least,
                                        restoredW := some (match s.wlk.restoredW with
                                          | none => least
                                          | some w => min w least) } }
  match s.source? e.1 with
  | some src => if src.stamped then s else s.setSource e.1 { src with w := least, restored := some least }
  | none => s

/-- Install the collection of a checkpoint under number `n` (03 R107; 17 R573). -/
def State.installColl (s : State) (n : Nat) (ck : Checkpoint) : State × Status :=
  let c := ck.coll.restored ck.floors
  if (s.coll? n).isSome then (s, .busy)
  else if ck.major != 1 then (s, .version)
  else match s.growColl c c.slots.length with
    | (s, _, false) => (s, .quota)
    | (s, c, true) => (ck.floors.foldl State.floorSet (s.setColl n c), .ok)

/-- COLLECTION_RESTORE (03 R107). -/
def collectionRestore (cid : Nat) (k : Cmd) (s : State) : State :=
  let n := fieldAt k.raw 8 4
  let vol := fieldAt k.raw 12 4
  match s.bft.ckpts.find? (vol * 65536 + n), s.openVolume? vol with
  | some ck, some v =>
    if 65536 ≤ n || (s.domain ck.coll.owner).state != .active then s.finish cid .notFound
    else if v.owner != ck.coll.owner then s.finish cid .denied
    else
      let (s, st) := s.installColl n ck
      s.finish cid st
  | _, _ => s.finish cid .notFound

def execCollectionRestore (t cid : Nat) (s : State) : Host.Outcome State Fault Refusal :=
  done ((s.at t).withCmd cid (·.isAdmin 0x55) (collectionRestore cid))

end Sys2Proof.Machine
end

