-- ==== Sys2Proof/Machine/Watch.lean ====
section
/-!
DEFINITION. Searches from the end of their walk to their completion: casts, the exact sample, re-score, shard replies,
precedent searches and watch rules, the result area (04 R137 to R146, R152, R154; 05 R175 to R189; 07 R245; 17 R568).
-/

namespace Sys2Proof.Machine

/-! ### The walk summary and the completion (04 R146; 05 R175 to R179) -/

/-- The shards that answered a scattered search. -/
def Search.answers (q : Search) : List ShardAsk := q.shards.filter fun (a : ShardAsk) => a.answered

/-- A field of the walk summary summed over the answering shards (05 R179). -/
def Search.shardSum (q : Search) (off n : Nat) : Nat := (q.answers.map fun (a : ShardAsk) => fieldAt a.summary off n).sum

/-- A flag that any answering shard set. -/
def Search.shardFlag (q : Search) (bit : Nat) : Bool := q.answers.any fun (a : ShardAsk) => bitOf (fieldAt a.summary 1 1) bit

def Search.isShort (q : Search) : Bool :=
  q.localList.length < q.desc.k || q.answers.length < q.shards.length

/-- CorpusExhausted (05 R176). -/
def Search.corpusExhausted (q : Search) : Bool :=
  q.localList.length < q.desc.k && q.exhausted && q.shards.all fun (a : ShardAsk) => a.answered && bitOf (fieldAt a.summary 1 1) 3

/-- Visited slots: Distances plus FlatScanned (04 R146), over every answering shard. -/
def Search.visitedCount (q : Search) : Nat := q.dists + q.flatScanned + q.shardSum 28 4

def Search.admittedCount (q : Search) : Nat := q.admitted + q.shardSum 32 4

/-- The 64-byte walk summary (04 R146; 05 R179). -/
def Search.summary (q : Search) : List Byte :=
  let flags := boolNat (q.hitHops || q.shardFlag 0) + 2 * boolNat (q.hitDist || q.shardFlag 1) +
    4 * boolNat (q.hitCyc || q.shardFlag 2) + 8 * boolNat q.corpusExhausted + 16 * boolNat (q.rescoreIncomplete || q.shardFlag 4) +
    32 * boolNat (q.exactSampled || q.shardFlag 5) + 64 * boolNat (q.rescoreSkipped || q.shardFlag 6)
  natLE 1 0x10 ++ natLE 1 flags ++
  natLE 1 ((q.answers.map fun (a : ShardAsk) => fieldAt a.summary 2 1).foldl max q.rounds) ++ natLE 1 0 ++
  natLE 2 q.segsWalked ++ natLE 2 q.segsSkip.length ++ natLE 8 q.entryKey ++ natLE 4 (q.hops + q.shardSum 16 4) ++
  natLE 4 (q.dists + q.shardSum 20 4) ++ natLE 4 (q.flatScanned + q.shardSum 24 4) ++ natLE 4 q.visitedCount ++
  natLE 4 q.admittedCount ++ natLE 4 (q.convoys + q.shardSum 36 4) ++ natLE 4 (q.bloomOnly + q.shardSum 40 4) ++
  natLE 2 (q.nans + q.shardSum 44 2) ++ natLE 2 (q.rescoreDone + q.shardSum 46 2) ++ natLE 2 (q.rescoreFail + q.shardSum 48 2) ++
  natLE 2 (1 + q.shards.length) ++ natLE 2 (1 + q.answers.length) ++ natLE 2 (q.dups + q.shardSum 54 2) ++
  natLE 2 q.recallHits ++ natLE 2 q.recallDenom ++ natLE 4 (q.cyclesUsed + q.shardSum 60 4)

/-- One 16-byte entry of the result area (04 R146). -/
def Entry.bytes (e : Entry) : List Byte :=
  natLE 8 e.key ++ natLE 4 e.score.toNat ++ natLE 1 (boolNat e.full + 2 * e.origin) ++ natLE 1 0 ++ natLE 2 e.shard

/-- MatchRatio (05 R177). -/
def Search.matchRatio (q : Search) : Nat :=
  if q.visitedCount = 0 then 0 else 65535 * q.admittedCount / q.visitedCount

/-- The status of a search that returns results (05 R175, R178). -/
def Search.status (q : Search) : Status :=
  if q.timedOut then .watermarkTimeout else if q.isShort then .short else .ok

/-- The completion of a search that returns results (15 R506, R507). -/
def Search.comp (q : Search) (sillage : Nat) (alarm : Bool) : Comp :=
  { status := q.status, search := true, count := q.localList.length, ratio := q.matchRatio, asked := 1 + q.shards.length,
    answered := 1 + q.answers.length, watermark := some q.asOf, sillage := sillage,
    insertOutcome := q.encoded.bind fun e => e.insertOutcome, alarm := alarm }

/-- What follows the completion in a shard's reply (17 R568). -/
def Search.replyRest (q : Search) : List Byte :=
  q.summary ++ natLE 8 q.report.leftOutMass.toNat ++ zeroBytes 8 ++ q.localList.flatMap fun e => e.bytes ++ natLE 8 e.stamp

/-- Post a search's results: the result area, then the completion (01 R31; 04 R146, R154). -/
def State.postSearch (s : State) (n sillage : Nat) (alarm : Bool) : State :=
  match s.search? n, s.cmd? n with
  | some q, some k =>
    let s := match k.origin with
      | .scatterSearch _ _ _ _ _ => s
      | _ => s.cmdWrite n (cmdPtrC k.raw) 0 (q.summary ++ q.localList.flatMap Entry.bytes)
    let s := (s.stageEnd n 6).histAdd 7 (s.now - q.startAt)
    let s := { s with wlk := { s.wlk with slow := if s.reg pgWlk 0x08C = 0 then s.wlk.slow else s.wlk.slow ++ [s.now - q.startAt] } }
    ((s.bump64 pgWlk 0x0A8).post n (q.comp sillage alarm) q.replyRest).dropSearch n
  | _, _ => s

/-! ### Precedent searches (05 R184) -/

/-- The sum of the eight products of one group of dimensions (11 R374). -/
def groupTerms (metric navFormat : Nat) (q v : List Nat) (g : Nat) : List Fl :=
  let fp := navFormat == 0
  (((q.zip v).drop (8 * g)).take 8).map fun p => macTerm (metric == 2) (elem16 fp p.1) (elem16 fp p.2)

/-- The eight groups of largest magnitude, and the sum of the others (11 R374, R375). -/
def evidencePass (metric navFormat : Nat) (q v : List Nat) : List (Nat × Word) × Word :=
  let gs := (List.range (v.length / 8)).map fun g => (g, toF32 (Fl.sum (groupTerms metric navFormat q v g)))
  let mag (w : Word) : Nat := w.toNat % 2 ^ 31
  let sorted := sortBy (fun (a b : Nat × Word) => decide (mag b.2 < mag a.2) || (mag a.2 == mag b.2 && decide (a.1 ≤ b.1))) gs
  (sorted.take 8, toF32 (Fl.sum (((sorted.drop 8).map fun g => groupTerms metric navFormat q v g.1).flatten)))

/-- A precedent as a record may list it: what its slot holds, and its evidence pass (11 R373 to R377). -/
def Coll.precedent (c : Coll) (evidence : Bool) (nav : List Nat) (labelField : Nat) (e : Entry) : Precedent :=
  let x := (c.slots.find? e.slot).getD { key := e.key, ins := e.stamp }
  let (_, lo, lw) := schemaField c.schema labelField
  let at_ := match c.binding with
    | none => 0
    | some b => let (_, o, w) := schemaField c.schema b.locator; fieldAt x.attrs o w
  let (gs, other) := if evidence then evidencePass c.metric c.navFormat nav x.nav else ([], 0)
  { key := e.key, score := e.score, label := fieldAt x.attrs lo lw, stamp := x.ins, groups := gs, other := other, offset := at_ }

/-- The descriptor of a precedent search (05 R184): default budgets, EncoreMax 0, no re-score. -/
def State.precedentDesc (s : State) (k breadth : Nat) (nav program : List Byte) : Desc :=
  { k := k, breadth := breadth, encoreMax := 0, segBreadth := s.reg pgWlk 0x05C, maxHops := s.reg pgWlk 0x050,
    maxDist := s.reg pgWlk 0x054, maxCycles := s.reg pgWlk 0x058, nav := elems16 nav, predicate := program }

/-- The walk of a precedent search, run at once (log entry 14). -/
def State.precedentWalk (s : State) (c : Coll) (d : Desc) (coll asOf : Nat) : Search :=
  let segs := (c.segs.filter fun e => e.2.state == .sealed || e.2.state == .compacting || e.2.state == .entering).map fun e => e.1
  let q : Search :=
    { coll := coll, asOf := asOf, asked := asOf, desc := d, stage := .walking, segsTaken := segs,
      buildTaken := (c.segs.filter fun e => e.2.state == .building).map fun e => e.1, tailFrom := c.nextSeal,
      entrySet := c.mainGraph.entries, breadth := d.breadth, poolFrom := s.now, walks := [{ breadth := d.breadth }],
      segsLeft := c.newestFirst segs }
  let env := s.walkEnv c d.nav
  let flat := q.flatSlots c
  let q := flat.foldl (fun (q : Search) slot => q.takeScore c slot (env.score slot) true true) { q with flat := flat }
  q.walkNow env 0 (c.slots.length + driveFuel)

/-- One precedent search (05 R184, R188; 11 R372). -/
def State.precedentSearch (s : State) (asOf : Nat) (nav : List Nat) (group : List (List Byte)) : State × PrecedentSet :=
  let r := group.headD []
  let set : PrecedentSet := { collection := rulePrecedent r, labelField := ruleLabelField r, labelMask := ruleLabelMask r }
  match s.coll? set.collection with
  | none => (s, { set with failed := true })
  | some c =>
    if asOf < c.horizon then (s, { set with failed := true })
    else
      let d := s.precedentDesc ((group.map ruleK).foldl max 0) ((group.map ruleBreadth).foldl max 0) (nav.flatMap (natLE 2))
        (labelProgram set.labelField set.labelMask)
      let q := s.precedentWalk c d set.collection asOf
      let s := s.walkCounts { q with nans := 0, bloomOnly := 0 } q
      let (s, cast) := s.cast d.k (higherBetter c.metric) true [{ entries := q.results }] []
      let keep := cast.chosen.take (bitsOf (s.reg pgQmg 0x400) 12 8)
      (s, { set with metric := c.metric, entries := cast.chosen, report := cast.report, binding := c.binding,
                     listed := keep.map (c.precedent (bitOf (s.reg pgQmg 0x400) 0) nav set.labelField) })

/-- The triple that rules share (05 R184). -/
def ruleTriple (r : List Byte) : Nat × Nat × Nat := (rulePrecedent r, ruleLabelField r, ruleLabelMask r)

/-- One precedent search for each distinct triple, in ascending order of the lowest RuleId (05 R184). -/
def State.precedents (s : State) (asOf : Nat) (nav : List Nat) (rules : List (List Byte)) : State × List PrecedentSet :=
  ((rules.map ruleTriple).eraseDups).foldl (fun a t =>
    let (s, set) := a.1.precedentSearch asOf nav (rules.filter fun r => ruleTriple r == t)
    (s, a.2 ++ [set])) (s, [])

/-! ### Watch rules (05 R183 to R189) -/

/-- The distance test. -/
def distanceTest (r : List Byte) (p : PrecedentSet) : Bool :=
  fieldAt r 28 2 ≤ ((p.entries.take (ruleK r)).filter fun e => atLeastAsGood (higherBetter p.metric) e.score (ruleWord r 24)).length

/-- Entries of the final result that meet the count test. -/
def countHits (r : List Byte) (higher : Bool) (asOf : Nat) (es : List Entry) : Nat :=
  (es.filter fun e => asOf - fieldAt r 32 8 ≤ e.stamp && e.stamp ≤ asOf && atLeastAsGood higher e.score (ruleWord r 40)).length

/-- The mass test. SelectedMass / (SelectedMass + LeftOutMass) is compared without dividing. -/
def massTest (r : List Byte) (p : PrecedentSet) : Bool :=
  let a := Fl.ofBits fp64 p.report.selectedMass.toNat
  let d := a.add (Fl.ofBits fp64 p.report.leftOutMass.toNat)
  let m := f32 (ruleWord r 44)
  let zeroD := Fl.le d Fl.zero && Fl.le Fl.zero d
  let (x, y) := if zeroD then (Fl.zero, m) else if Fl.lt d Fl.zero then (m.mul d, a) else (a, m.mul d)
  if bitOf (fieldAt r 1 1) 5 then Fl.le x y else Fl.le y x

/-- Evaluate one rule (05 R185, R186): the tripped rule, if it trips. -/
def evalRule (q : Search) (higher : Bool) (r : List Byte) : Option Tripped :=
  match q.sets.zipIdx.find? fun x => (x.1.collection, x.1.labelField, x.1.labelMask) == ruleTriple r with
  | none => none
  | some (p, i) =>
    let fl := fieldAt r 1 1
    let hits := countHits r higher q.asOf q.localList
    let d := distanceTest r p
    let n := fieldAt r 30 2 ≤ hits
    let m := massTest r p
    let held := [(bitOf fl 1, d), (bitOf fl 2, decide n), (bitOf fl 3, m)].filter fun x => x.1
    let trips := if bitOf fl 4 then held.any fun x => x.2 else held.all fun x => x.2
    if p.failed || !trips then none
    else some { ruleId := fieldAt r 2 2, alarm := fieldAt r 48 2,
                tests := boolNat (bitOf fl 1 && d) + 2 * boolNat (bitOf fl 2 && decide n) + 4 * boolNat (bitOf fl 3 && m),
                hits := if bitOf fl 2 then hits else 0, set := some i }

/-- WatchRule faults: one for each precedent search that failed, naming the first rule that depends on it (05 R188). -/
def State.watchFaults (s : State) (sets : List PrecedentSet) (rules : List (List Byte)) : State :=
  (sets.filter fun p => p.failed).foldl (fun s p =>
    match rules.find? fun r => ruleTriple r == (p.collection, p.labelField, p.labelMask) with
    | none => s
    | some r => s.sendFault pgWlk .watchRule (fieldAt r 2 2)) s

/-- The final result stands: evaluate the rules, then post, or hold the alarm until its evidence is there (05 R183 to R187). -/
def State.conclude (s : State) (n : Nat) : State :=
  match s.search? n with
  | none => s
  | some q =>
    let higher := ((s.coll? q.coll).map fun c => higherBetter c.metric).getD true
    let (s, sets) := s.precedents q.asOf q.desc.nav q.rules
    let s := s.watchFaults sets q.rules
    let q := { q with sets := sets }
    let tripped := q.rules.filterMap (evalRule q higher)
    if tripped.isEmpty then (s.setSearch n q).postSearch n 0 false
    else s.setSearch n { q with tripped := tripped, stage := .evidence }

/-! ### Shards (01 R26, R28; 04 R138, R139; 07 R245) -/

/-- Merge the local list with the shard lists and cast the final K. -/
def State.mergeShards (s : State) (n : Nat) : State :=
  match s.search? n with
  | none => s
  | some q =>
    let higher := ((s.coll? q.coll).map fun c => higherBetter c.metric).getD true
    let lists := { entries := q.localList, carried := some q.report.leftOutMass : CastList } ::
      q.answers.map fun (a : ShardAsk) => { entries := a.entries, carried := some a.leftOut }
    let (s, r) := s.cast q.desc.k higher true lists []
    let q := { q with localList := r.chosen, report := r.report, dups := q.dups + r.report.duplicates }
    ((s.setSearch n q).stageEnd n 5).conclude n

def ShardAsk.settled (a : ShardAsk) : Bool := a.answered || a.missing

/-- The final local list stands: wait for the shards, or conclude (04 R138). -/
def State.localDone (s : State) (n : Nat) : State :=
  match s.search? n with
  | none => s
  | some q =>
    if !q.desc.scatter || q.shards.isEmpty then s.conclude n
    else
      let s := s.setSearch n { q with stage := .gathering }
      if q.shards.all ShardAsk.settled then s.mergeShards n else s

/-- The entries of a shard's reply (17 R568). -/
def shardEntries (payload : List Byte) : List Entry :=
  (List.range (fieldAt payload 8 2)).map fun i =>
    let o := 112 + 24 * i
    let fl := fieldAt payload (o + 12) 1
    { key := fieldAt payload o 8, score := BitVec.ofNat 32 (fieldAt payload (o + 8) 4), full := bitOf fl 0, origin := bitsOf fl 2 1,
      shard := fieldAt payload (o + 14) 2, stamp := fieldAt payload (o + 16) 8 }

/-- Change what a search holds of one shard. -/
def Search.setAsk (q : Search) (i : Nat) (f : ShardAsk → ShardAsk) : Search :=
  { q with shards := q.shards.map fun (a : ShardAsk) => if a.index = i then f a else a }

/-- The home node's search budget and watermark timeout have both expired (01 R28). -/
def State.shardWaitOver (s : State) (q : Search) : Bool :=
  q.desc.maxCycles ≤ q.cycles s.now && decide (q.queuedAt + q.desc.waitUs * us ≤ s.tapeTime)

/-- The replica of a shard that was not asked (04 R139). -/
def State.otherReplica (s : State) (coll i asked : Nat) : Nat :=
  match (s.fab.shardMaps.find? coll).bind fun m => m[i]? with
  | none => asked
  | some e => if e.1 = asked then e.2.1 else e.1

/-- A shard's reply to a scattered search (01 R26; 04 R139, R148; 17 R568). A reply without results counts as missing. -/
def State.shardReply (s : State) (n i : Nat) (payload : List Byte) : State :=
  match s.search? n with
  | none => s
  | some q =>
    if q.aborting then s
    else match List.find? (fun (a : ShardAsk) => a.index == i) q.shards with
      | none => s
      | some a =>
        let st := fieldAt payload 4 2
        if st = 0x12 && !a.busyOnce && !s.shardWaitOver q then s.askShard n i (s.otherReplica q.coll i a.node) a.summary
        else
          let q := q.setAsk i fun (a : ShardAsk) =>
            if st < 0x10 then { a with answered := true, entries := shardEntries payload, summary := bytesAt payload 32 64,
                                       leftOut := BitVec.ofNat 64 (fieldAt payload 96 8) }
            else { a with missing := true }
          let s := s.setSearch n q
          if q.stage = .gathering && q.shards.all ShardAsk.settled then s.mergeShards n else s

/-- SHARD_WAIT_EXPIRY (01 R28): shards that have not answered count as missing. -/
def shardWaitExpiry (n : Nat) (s : State) : State :=
  match s.search? n with
  | none => s
  | some q =>
    if q.stage = .gathering && s.shardWaitOver q then
      (s.setSearch n { q with shards := q.shards.map fun (a : ShardAsk) => if a.settled then a else { a with missing := true } }).mergeShards n
    else s

def execShardWaitExpiry (t cid : Nat) (s : State) : Host.Outcome State Fault Refusal :=
  done ((s.at t).onlyIf s.live (shardWaitExpiry cid))

/-! ### The local cast (04 R137, R152; 05 R189) -/

/-- The slots of an exact sample (04 R152). -/
def Search.sampleSlots (c : Coll) (q : Search) (tag : Nat) : List Nat :=
  let pool := c.mainSlots ++ (q.segsTaken.map c.segSlots).flatten
  let regions := max 1 (ceilDiv pool.length 65536)
  let drawn := (List.range q.desc.regions).map fun i => Config.sampleRegion tag i % regions
  (q.flatSlots c ++ (drawn.eraseDups.map fun g => (pool.drop (g * 65536)).take 65536).flatten).eraseDups

/-- The exact answer over the sample: its best K admitted entries (04 R152). -/
def Search.exactAnswer (env : WalkEnv) (q : Search) (tag : Nat) : List Entry :=
  let es := (q.sampleSlots env.coll tag).filterMap fun slot =>
    match env.coll.slots.find? slot with
    | none => none
    | some x =>
      let w := env.score slot
      if !isNaN32 w && q.letIn env.coll x true then some { key := x.key, score := w, stamp := x.ins, slot := slot : Entry } else none
  (sortBest (higherBetter env.coll.metric) es).take q.desc.k

/-- RecallDenom and RecallHits (04 R152). -/
def State.exactSample (s : State) (c : Coll) (q : Search) (tag : Nat) (local_ : List Entry) : Search :=
  if !s.runsExact q then q
  else
    let best := q.exactAnswer (s.walkEnv c q.desc.nav) tag
    { q with exactSampled := true, recallDenom := best.length,
             recallHits := (best.filter fun e => local_.any fun x => x.key == e.key).length }

/-- The best local score lies within RescoreMargin of a rule's threshold (04 R117; 05 R189). -/
def Search.isNear (q : Search) (best : List Entry) : Bool :=
  match best.head? with
  | none => false
  | some e => q.near.any fun w => Fl.le ((f32 e.score).sub (f32 w)).abs (f32 q.desc.margin)

/-- SELECTION: the local cast (04 R117, R137; 07 R245, R247). `lostBlocks` are the blocks of 32 input entries that Top could not
give, the first of them at window offset `topOffset` of Top. -/
def selection (n : Nat) (lostBlocks : List Nat) (topOffset : Nat) (s : State) : State :=
  match s.search? n with
  | none => s
  | some q =>
    if q.stage != .walked then s
    else match s.coll? q.coll with
      | none => s
      | some c =>
        let tag := ((s.cmd? n).map fun k => cmdTag k.raw).getD 0
        let higher := higherBetter c.metric
        let s := if lostBlocks.isEmpty then s else s.topBad topOffset
        let lists : List CastList := [{ entries := q.results }]
        let (s, r) := s.cast (max q.desc.k q.desc.rescore) higher true lists lostBlocks
        let q := s.exactSample c q tag r.chosen
        let goes := q.desc.rescore != 0 && (!q.desc.rescoreOnNear || q.isNear r.chosen)
        let r := if goes then r else castOf q.desc.k higher true lists lostBlocks
        let shard := ((s.fab.shardMaps.find? q.coll).bind fun m => m.findIdx? fun e => e.1 == s.nodeId || e.2.1 == s.nodeId).getD 0
        let mine := match (s.cmd? n).map fun k => k.origin with
          | some (.scatterSearch _ _ _ i _) => i
          | _ => if q.desc.scatter then shard else 0
        let q := { q with localList := r.chosen.map fun e => { e with shard := mine }, report := r.report, dups := r.report.duplicates,
                          rescoreSkipped := q.desc.rescore != 0 && !goes, stage := if goes then .rescoring else q.stage }
        let s := (s.setSearch n q).stageEnd n 3
        if goes then s else s.localDone n

def execSelection (t cid : Nat) (lostBlocks : List Nat) (topOffset : Nat) (s : State) : Host.Outcome State Fault Refusal :=
  done ((s.at t).onlyIf (s.live && s.accepts pgCst) (selection cid lostBlocks topOffset))

/-! ### Re-score (04 R141 to R145; 07 R245) -/

/-- Look a full vector up in the cache, and keep it as the most recent one (04 R144; log entry 17). -/
def State.fvcLook (s : State) (coll slot size : Nat) (readOk : Bool) : State :=
  if s.wlk.fvc.contains (coll, slot) then
    ({ s with wlk := { s.wlk with fvc := s.wlk.fvc.erase (coll, slot) ++ [(coll, slot)] } }).bump64 pgWlk 0x070
  else
    let s := s.bump64 pgWlk 0x078
    if readOk && 0 < s.fvcRoom size then
      let s := { s with wlk := { s.wlk with fvc := s.wlk.fvc ++ [(coll, slot)] } }
      s.fvcShrink s.wlk.fvc.length
    else s

/-- Re-score one entry (04 R142, R145). -/
def State.rescoreOne (s : State) (n : Nat) (c : Coll) (failed : List Nat) (e : Entry) : State × Entry :=
  match s.search? n with
  | none => (s, e)
  | some q =>
    let s := s.fvcLook q.coll e.slot (fullBytes c.fullFormat c.fullDim) (!failed.contains e.slot)
    if failed.contains e.slot then
      ((s.setSearch n { q with rescoreFail := q.rescoreFail + 1, rescoreIncomplete := true }).bump pgWlk 0x088, e)
    else
      let w := fullScore c.metric c.fullFormat c.fullDim q.desc.fullQ (((c.slots.find? e.slot).map fun x => x.full).getD [])
      let s := s.when (isNaN32 w) (·.bump pgWlk 0x084)
      (s.setSearch n { q with rescoreDone := q.rescoreDone + 1, nans := q.nans + boolNat (isNaN32 w) }, { e with full := true, score := w })

/-- RESCORE_READ_COMPLETE: the full vectors of the best D entries have been read, but for those of the `failed` slots. -/
def rescoreReadComplete (n : Nat) (failed : List Nat) (s : State) : State :=
  match s.search? n with
  | none => s
  | some q =>
    if q.stage != .rescoring || q.aborting then s
    else match s.coll? q.coll with
      | none => s
      | some c =>
        let d := q.desc.rescore
        let (s, es) := (q.localList.take d).foldl (fun a e =>
          let (s, e) := State.rescoreOne a.1 n c failed e
          (s, a.2 ++ [e])) (s, [])
        let (s, r) := s.cast q.desc.k (higherBetter c.metric) true
          [{ entries := es ++ q.localList.drop d, carried := some q.report.leftOutMass }] []
        match s.search? n with
        | none => s
        | some q =>
          let q := { q with localList := r.chosen, report := r.report, dups := q.dups + r.report.duplicates }
          ((s.setSearch n q).stageEnd n 4).localDone n

def execRescoreReadComplete (t cid : Nat) (failed : List Nat) (s : State) : Host.Outcome State Fault Refusal :=
  done ((s.at t).onlyIf s.live (rescoreReadComplete cid failed))

end Sys2Proof.Machine
end

