-- ==== Sys2Proof/Machine/Sillage.lean ====
section
/-!
DEFINITION. Sillage records: rings, evidence bindings, the record and its way into the ring (11 R360 to R384).
-/

namespace Sys2Proof.Machine

def State.ring? (s : State) (d : Nat) : Option Ring := s.qmg.rings.find? d

def State.setRing (s : State) (d : Nat) (r : Ring) : State := { s with qmg := { s.qmg with rings := s.qmg.rings.set d r } }

def isPow2 (n : Nat) : Bool := n != 0 && 2 ^ Nat.log2 n == n

/-- SILLAGE_RING (R361). Records that wait for room have not been begun, and go to the new ring. -/
def sillageRing (cid : Nat) (k : Cmd) (s : State) : State :=
  let d := fieldAt k.raw 8 2
  let base := cmdPtrA k.raw
  let len := cmdPtrC k.raw
  let wait := fieldAt k.raw 52 4
  if s.dom.fuses.maxDomains ≤ d then s.finish cid .malformed
  else if base = 0 then ({ s with qmg := { s.qmg with rings := s.qmg.rings.erase d } }).finish cid .ok
  else if base % 4096 != 0 || cmdPtrB k.raw % 8 != 0 || !isPow2 len || len < 65536 || 4294967296 < len || 100000 < wait then s.finish cid .malformed
  else if (s.domain d).state != .active then s.finish cid .notFound
  else (s.setRing d { base := base, tail := cmdPtrB k.raw, length := len, waitUs := wait }).finish cid .ok

def execSillageRing (t cid : Nat) (s : State) : Host.Outcome State Fault Refusal :=
  done ((s.at t).withCmd cid (·.isAdmin 0x31) (sillageRing cid))

/-- EVIDENCE_BIND (R376). -/
def evidenceBind (cid : Nat) (k : Cmd) (s : State) : State :=
  let n := fieldAt k.raw 8 4
  let vol := fieldAt k.raw 12 4
  let f := fieldAt k.raw 49 1
  let bytes := fieldAt k.raw 52 4
  match s.openColl? n with
  | none => s.finish cid .notFound
  | some c =>
    if vol = 0xFFFFFFFF then (s.setColl n { c with binding := none }).finish cid .ok
    else match s.openVolume? vol with
      | none => s.finish cid .notFound
      | some v =>
        let (ty, _, w) := schemaField c.schema f
        if v.owner != c.owner then s.finish cid .denied
        else if 8 ≤ f || ty != 1 || w != 8 || bytes < 64 || 4096 < bytes || bytes % 64 != 0 then s.finish cid .malformed
        else (s.setColl n { c with binding := some { volume := vol, locator := f, bytes := bytes } }).finish cid .ok

def execEvidenceBind (t cid : Nat) (s : State) : Host.Outcome State Fault Refusal :=
  done ((s.at t).withCmd cid (·.isAdmin 0x30) (evidenceBind cid))

/-! ### The record (R364 to R378) -/

/-- How the event of a listed precedent was fetched (R377, R378). -/
inductive Fetch where
  | off | present | noBinding | outOfRange | readError
  deriving DecidableEq, Repr

/-- A listed precedent with its set, its binding and its event. -/
structure ListedPrec where
  set     : Nat
  p       : Precedent
  binding : Option Binding
  fetch   : Fetch
  deriving DecidableEq, Repr

/-- The sets that a record lists: those of the tripped rules, by the lowest RuleId that tripped on each, at most 8 (R372). -/
def Search.listedSets (q : Search) : List Nat := ((q.tripped.filterMap fun (r : Tripped) => r.set).eraseDups).take 8

/-- Whether a precedent's event can be read (R377, R378; 13 R433, R443): `errors` are the precedents whose reads fail. -/
def State.fetchEvent (s : State) (errors : List Nat) (i : Nat) (b : Option Binding) (off : Nat) : Fetch :=
  if !bitOf (s.reg pgQmg 0x400) 1 then .off
  else match b with
    | none => .noBinding
    | some b =>
      let size := ((s.bft.volumes.find? b.volume).map fun v => v.gib * 2 ^ 30).getD 0
      if off % 64 != 0 || size < off + b.bytes then .outOfRange
      else
        let parts := List.range' (off / 4096) (ceilDiv (off + b.bytes) 4096 - off / 4096)
        let bad := parts.any fun p => match s.bft.units.find? (unitKey b.volume (p / 4)) with
          | none => false
          | some u => u.lost || u.bad.contains (p % 4)
        if bad || errors.contains i then .readError else .present

/-- The precedents section's entries in record order (R373, R377). -/
def State.listedPrecs (s : State) (q : Search) (errors : List Nat) : List ListedPrec :=
  let raw := (q.listedSets.zipIdx.map fun e =>
    match q.sets[e.1]? with
    | none => []
    | some p => p.listed.map fun x => (e.2, x, p.binding)).flatten
  raw.zipIdx.map fun e => { set := e.1.1, p := e.1.2.1, binding := e.1.2.2, fetch := s.fetchEvent errors e.2 e.1.2.2 e.1.2.1.offset }

/-- The distinct fetched events in order of first reference: volume, offset, bytes (R377). -/
def distinctEvents (ps : List ListedPrec) : List (Nat × Nat × Nat) :=
  (ps.filterMap fun (x : ListedPrec) => match x.fetch, x.binding with
    | .present, some b => some (b.volume, x.p.offset, b.bytes)
    | _, _ => none).eraseDups

/-- Offset of an event within the events section. -/
def eventAt (evs : List (Nat × Nat × Nat)) (e : Nat × Nat × Nat) : Nat :=
  ((evs.takeWhile fun x => x != e).map fun x => roundUp x.2.2 64).sum

/-- A 96-byte entry of the precedents section (R373). -/
def ListedPrec.bytes (evs : List (Nat × Nat × Nat)) (evOff : Nat) (x : ListedPrec) : List Byte :=
  let flags := match x.fetch with
    | .off => 0 | .present => 1 | .noBinding => 2 | .outOfRange => 4 | .readError => 8
  let (vol, bytes) := match x.binding with
    | none => (0, 0)
    | some b => (b.volume, b.bytes)
  let at_ := if x.fetch = .present then evOff + eventAt evs (vol, x.p.offset, bytes) else 0
  natLE 8 x.p.key ++ natLE 4 x.p.score.toNat ++ natLE 1 x.set ++ natLE 1 x.p.label ++ natLE 1 flags ++ natLE 1 x.p.groups.length ++
  padTo 8 (x.p.groups.flatMap fun g => natLE 1 g.1) ++ zeroBytes (if x.p.groups.isEmpty then 8 else 0) ++
  (x.p.groups.flatMap fun g => natLE 4 g.2.toNat) ++ zeroBytes (32 - 4 * x.p.groups.length) ++
  natLE 4 x.p.other.toNat ++ natLE 4 bytes ++ natLE 4 vol ++ zeroBytes 4 ++ natLE 8 x.p.offset ++ natLE 4 at_ ++
  natLE 8 x.p.stamp ++ zeroBytes 4

/-- A 32-byte entry of the sets section (R372). -/
def PrecedentSet.bytes (p : PrecedentSet) : List Byte :=
  natLE 4 p.collection ++ natLE 1 p.labelField ++ natLE 1 p.listed.length ++ zeroBytes 2 ++ natLE 8 p.labelMask ++
  natLE 8 p.report.selectedMass.toNat ++ natLE 8 p.report.leftOutMass.toNat

/-- An 8-byte entry of the rules section (R371). -/
def Tripped.bytes (listed : List Nat) (r : Tripped) : List Byte :=
  let i := match r.set with
    | none => 0xFF
    | some x => (listed.findIdx? fun y => y == x).getD 0xFF
  natLE 2 r.ruleId ++ natLE 2 r.alarm ++ natLE 1 r.tests ++ natLE 1 i ++ natLE 2 r.hits

/-- Offset 0 stands for an empty section (R364). -/
def sectionAt (bs : List Byte) (off : Nat) : Nat := if bs.isEmpty then 0 else off

def saturate16 (n : Nat) : Nat := min 0xFFFF n

/-- A record omits precedents or tables (R370, R372). -/
def Search.omits (q : Search) : Bool :=
  8 < ((q.tripped.filterMap fun (r : Tripped) => r.set).eraseDups).length || 64 < ((q.encoded.map fun e => e.tables.length).getD 0)

/-- The Sillage record (R364 to R378). `evidence` are the bytes of the distinct events. -/
def sillageRecord (q : Search) (k : Cmd) (ps : List ListedPrec) (evidence : List Byte) : List Byte :=
  let listed := q.listedSets
  let sets := listed.filterMap fun i => q.sets[i]?
  let enc := q.encoded.getD {}
  let tables := enc.tables.take 64
  let evs := distinctEvents ps
  let rulesB := q.tripped.flatMap (Tripped.bytes listed)
  let tablesB := tables.flatMap fun e => natLE 4 e.1 ++ natLE 4 e.2
  let setsB := sets.flatMap PrecedentSet.bytes
  let o1 := 320
  let o2 := o1 + roundUp rulesB.length 64
  let o3 := o2 + roundUp tablesB.length 64
  let o4 := o3 + roundUp setsB.length 64
  let o5 := o4 + roundUp (96 * ps.length) 64
  let precsB := ps.flatMap (ListedPrec.bytes evs o5)
  let total := o5 + roundUp evidence.length 64
  let asked := cmdPos k.raw
  let missing := ps.any fun x => x.fetch == .noBinding || x.fetch == .outOfRange || x.fetch == .readError
  let flags := boolNat q.encoded.isSome + 2 * boolNat (8 < ((q.tripped.filterMap fun (r : Tripped) => r.set).eraseDups).length) +
    4 * boolNat (64 < enc.tables.length) + 8 * boolNat missing + 16 * boolNat (q.status == .watermarkTimeout) +
    32 * boolNat (q.status == .short) + 64 * boolNat (q.answers.length < q.shards.length)
  let counts := (List.range 5).flatMap fun i => natLE 2 (saturate16 (enc.counts.getD i 0))
  let chunks := enc.chunks.take 8
  natLE 1 0x10 ++ natLE 1 flags ++ natLE 2 q.tripped.length ++ natLE 4 total ++ natLE 4 (cmdTag k.raw) ++ natLE 4 q.coll ++
  natLE 8 (if q.encoded.isSome then enc.itemKey else 0xFFFFFFFFFFFFFFFF) ++ natLE 8 enc.seqKey ++
  natLE 8 (if q.encoded.isSome then enc.evPos else asked) ++ natLE 8 asked ++ natLE 8 q.asOf ++ natLE 8 q.wmAtStart ++
  q.summary ++ q.report.bytes ++ natLE 8 enc.scoreId ++ natLE 4 enc.scoreVer ++ natLE 2 enc.handle ++ natLE 2 k.domain ++
  natLE 4 (enc.index % 2 ^ 24) ++ counts ++ natLE 1 chunks.length ++ natLE 1 tables.length ++ natLE 1 sets.length ++
  natLE 1 ps.length ++ zeroBytes 2 ++ natLE 4 (sectionAt rulesB o1) ++ natLE 4 (sectionAt tablesB o2) ++ natLE 4 (sectionAt setsB o3) ++
  natLE 4 (sectionAt precsB o4) ++ natLE 4 (sectionAt evidence o5) ++ natLE 4 evidence.length ++ zeroBytes 4 ++
  (chunks.flatMap fun e => natLE 4 e.1 ++ natLE 4 e.2.toNat) ++ zeroBytes (64 - 8 * chunks.length) ++
  padTo 64 rulesB ++ padTo 64 tablesB ++ padTo 64 setsB ++ padTo 64 precsB ++ padTo 64 evidence

/-! ### Into the ring (R360, R362, R363) -/

/-- Pad bytes before a record of `n` bytes, and the head after it (R362). -/
def Ring.place (r : Ring) (n : Nat) : Nat × Nat :=
  let pad := if r.length < r.head + n then r.length - r.head else 0
  (pad, (r.head + pad + n) % r.length)

/-- Whether a record with its pad fits without reaching the tail (R363). -/
def Ring.fits (r : Ring) (tail n : Nat) : Bool :=
  let room := (tail % r.length + r.length - r.head) % r.length
  (r.place n).1 + n < (if room = 0 then r.length else room)

/-- Drop a record and post the completion (R363). -/
def State.dropRecord (s : State) (n : Nat) : State :=
  let d := s.searchDomain n
  (((s.bump pgQmg 0x410).sticky pgQmg 0x404 1).sendFault pgQmg .sillageDropped d).postSearch n 0 true

/-- Write the record of a search, where its ring has room, and post the completion (R360, R362, R363). -/
def State.tryRing (s : State) (n : Nat) : State :=
  match s.search? n with
  | none => s
  | some q =>
    match s.ring? (s.searchDomain n) with
    | none => s.dropRecord n
    | some r =>
      let len := q.record.length
      if r.length - 64 < len then s.dropRecord n
      else if r.fits (leNat (s.readBytes s.view r.tail 8)) len then
        let (pad, head) := r.place len
        let s := if pad = 0 then s
          else (s.writeBytes s.view (r.base + r.head) (natLE 1 0)).writeBytes s.view (r.base + r.head + 4) (natLE 4 pad)
        let at_ := r.base + (r.head + pad) % r.length
        let s := (s.writeBytes s.view at_ q.record).setRing (s.searchDomain n) { r with head := head }
        let s := (s.bump64 pgQmg 0x408).when q.omits (·.bump pgQmg 0x41C)
        s.postSearch n at_ true
      else if q.stage = .ringWait then (if q.ringUntil ≤ s.tapeTime then s.dropRecord n else s)
      else s.setSearch n { q with stage := .ringWait, ringUntil := s.tapeTime + r.waitUs * us }

/-- The bytes of the fetched events, each rounded up to 64 (R377). -/
def State.eventBytes (s : State) (evs : List (Nat × Nat × Nat)) : List Byte :=
  evs.flatMap fun e => padTo 64 (s.volBytes e.1 e.2.1 e.2.2)

/-- EVIDENCE_FETCH_COMPLETE: the events of an alarm's precedents are at hand, but for those whose reads failed (R360 to R378;
13 R433). -/
def evidenceFetchComplete (n : Nat) (errors : List Nat) (s : State) : State :=
  match s.search? n, s.cmd? n with
  | some q, some k =>
    if q.stage != .evidence then s
    else
      let ps := s.listedPrecs q errors
      let lost := (ps.filter fun x => x.fetch == .noBinding || x.fetch == .outOfRange || x.fetch == .readError).length
      let s := (s.bump pgQmg 0x418 lost).when (0 < lost) (·.sticky pgQmg 0x404 2)
      let s := ps.foldl (fun s (x : ListedPrec) => match x.fetch, x.binding with
        | .readError, some b => s.baseBad b.volume (x.p.offset / 4096 * 4096)
        | _, _ => s) s
      let record := sillageRecord q k ps (s.eventBytes (distinctEvents ps))
      (s.setSearch n { q with record := record }).tryRing n
  | _, _ => s

def execEvidenceFetchComplete (t cid : Nat) (readErrors : List Nat) (s : State) : Host.Outcome State Fault Refusal :=
  done ((s.at t).onlyIf s.live (evidenceFetchComplete cid readErrors))

/-- SILLAGE_TAIL_POLL (R363): the node reads the tail word again. -/
def sillageTailPoll (n : Nat) (s : State) : State :=
  match s.search? n with
  | none => s
  | some q => if q.stage = .ringWait then s.tryRing n else s

def execSillageTailPoll (t cid : Nat) (s : State) : Host.Outcome State Fault Refusal :=
  done ((s.at t).onlyIf s.live (sillageTailPoll cid))

end Sys2Proof.Machine
end

