-- ==== Sys2Proof/Machine/NearBank.lean ====
section
/-!
DEFINITION. Near-Bank Units: programs, their checks, segments and runs, scratch rows, refresh, disabled units
(06 R190 to R232).
-/

namespace Sys2Proof.Machine

def State.withPnm (s : State) (f : PnmBlock → PnmBlock) : State := { s with pnm := f s.pnm }

def State.setPnmStack (s : State) (i : Nat) (v : PnmStack) : State := s.withPnm fun b => { b with stackList := b.stackList.set i v }

/-! ### Instructions (R197, R198) -/

def insOp (w : Nat) : Nat := bitsOf w 63 56
def insA (w : Nat) : Nat := bitsOf w 55 48
def insB (w : Nat) : Nat := bitsOf w 47 40
def insC (w : Nat) : Nat := bitsOf w 39 32
def insImm (w : Nat) : Nat := bitsOf w 31 0

/-- Cycles of an instruction (R197). -/
def insCycles (w : Nat) : Nat :=
  match insOp w with
  | 0x01 | 0x0A => ceilDiv (insB w) 4
  | 0x02 => 16
  | 0x03 => 12
  | 0x04 => insC w
  | 0x05 => bitsOf (insImm w) 15 0 / 16
  | 0x06 | 0x07 | 0x0F => 1
  | 0x08 => 32
  | 0x09 => insImm w
  | _ => 0

/-- One instruction of the unrolled program, with the row-list cursor and the iteration it runs at (R198). -/
structure Step where
  ins    : Nat
  cursor : Nat
  iter   : Nat
  deriving DecidableEq, Repr

/-- The program with each LOOP unrolled (R198, R203). -/
def unroll (rowStep : Nat) (instrs : List Nat) : List Step :=
  (instrs.zipIdx.foldl (fun (a : List Step × Nat) e =>
    if insOp e.1 = 0x0B then
      let body := (instrs.drop (e.2 - insA e.1)).take (insA e.1)
      let reps := insImm e.1
      (a.1 ++ (List.range reps).flatMap (fun r => body.map fun w => { ins := w, cursor := a.2 + (r + 1) * rowStep, iter := r + 1 }),
       a.2 + reps * rowStep)
    else (a.1 ++ [{ ins := e.1, cursor := a.2, iter := 0 }], a.2)) ([], 0)).1

/-- A reserved opcode, or a non-zero field that the table gives as zero (reason 2). -/
def insReserved (w : Nat) : Bool :=
  let b := insB w
  let c := insC w
  let m := insImm w
  match insOp w with
  | 0x01 | 0x0A => c != 0
  | 0x02 => 1 < b || c != 0
  | 0x03 => b != 0 || c != 0 || m != 0
  | 0x04 => false
  | 0x05 => c % 64 != 0
  | 0x06 => 1 < b || c != 0
  | 0x07 => 3 < b || c != 0 || 65535 < m
  | 0x08 => 1 < b || c != 0 || m != 0
  | 0x09 => false
  | 0x0B => b != 0 || c != 0
  | 0x0F => insA w != 0 || b != 0 || c != 0 || m != 0
  | _ => true

/-- An instruction field outside its range, or a span past its end (reason 3). -/
def insOutOfRange (w : Nat) : Bool :=
  let a := insA w
  let b := insB w
  let c := insC w
  let m := insImm w
  match insOp w with
  | 0x01 => b = 0 || 64 < a + b || m % 16 != 0
  | 0x02 | 0x03 => 1 < a
  | 0x04 => 1 < a || c = 0 || 32 < b + c || 32 < m + c
  | 0x05 =>
    let n := bitsOf m 15 0
    let v := bitsOf m 31 16
    3 < a || n < 16 || 512 < n || n % 16 != 0 || v % 16 != 0 || 512 < v + n || 512 < 8 * b + n
  | 0x06 | 0x07 | 0x08 => 3 < a
  | 0x09 => 1 < a || m = 0 || 32 < b + m || 64 < c + 2 * m
  | 0x0A => b = 0 || 64 < a + b || m % 8 != 0 || 512 < m + 8 * b
  | 0x0B => a = 0 || 64 < a || m = 0 || 65535 < m
  | _ => false

/-- A LOOP that breaks R198, or END missing or not last (reason 9). -/
def loopFormBad (instrs : List Nat) : Bool :=
  instrs.zipIdx.any (fun e =>
    (insOp e.1 == 0x0F && e.2 + 1 != instrs.length) ||
    (insOp e.1 == 0x0B && (decide (e.2 < insA e.1) ||
      ((instrs.take e.2).drop (e.2 - insA e.1)).any fun w => insOp w == 0x0B || insOp w == 0x0F))) ||
  (instrs.getLast?.map insOp) != some 0x0F

/-- The row that an OPEN opens, or none where its row-list entry does not exist or lies above 255 (R198; reason 4). -/
def Step.row (x : Step) (rowList : List Nat) : Option Nat :=
  let r := if insB x.ins = 1 then rowList[x.cursor + insImm x.ins]? else some (insImm x.ins)
  r.bind fun n => if n < 256 then some n else none

/-- Rows open in the two banks after an instruction; none where it breaks reason 8. -/
def Step.rowState (x : Step) (rowList : List Nat) (rows : List (Option Nat)) : Option (List (Option Nat)) :=
  let bank := insA x.ins
  let isOpen := (rows.getD bank none).isSome
  match insOp x.ins with
  | 0x02 => if isOpen then none else some (rows.set bank (some ((x.row rowList).getD 0)))
  | 0x03 => if isOpen then some (rows.set bank none) else none
  | 0x04 | 0x09 => if isOpen then some rows else none
  | 0x0F => if rows.any Option.isSome then none else some rows
  | _ => some rows

/-- Every instruction with the rows open when it runs; the flag tells whether reason 8 was met. -/
def rowTrace (rowList : List Nat) (steps : List Step) : List (Step × List (Option Nat)) × Bool :=
  let r := steps.foldl (fun (a : List (Step × List (Option Nat)) × List (Option Nat) × Bool) x =>
    let (out, rows, bad) := a
    match x.rowState rowList rows with
    | none => (out, rows, true)
    | some rows' => ((x, rows) :: out, rows', bad)) ([], [none, none], false)
  (r.1.reverse, r.2.2)

/-- The 18-bit row address of R212. -/
def rowAddr (pseudo unit bank row : Nat) : Nat := pseudo * 4096 + unit * 512 + bank * 256 + row

def unitsOf (mask : Nat) : List Nat := (List.range 8).filter fun u => bitOf mask u

/-- A row lies in a Scratch range of its extent (R211). -/
def PnmStack.isScratch (p : PnmStack) (extent row : Nat) : Bool :=
  p.regions.any fun e => e.2.1 == extent && decide (e.2.2.1 ≤ row) && decide (row < e.2.2.1 + e.2.2.2)

/-- Instructions and cycles between points at which every bank is closed (R203). -/
def chunks (trace : List (Step × List (Option Nat))) : List (Nat × Nat) :=
  let r := trace.foldl (fun (a : List (Nat × Nat) × Nat × Nat) e =>
    let (out, n, c) := a
    if e.2.any Option.isSome || n = 0 then (out, n + 1, c + insCycles e.1.ins)
    else ((n, c) :: out, 1, insCycles e.1.ins)) ([], 0, 0)
  (((r.2.1, r.2.2) :: r.1).filter fun x => x.1 != 0).reverse

/-- Segments, each filled greedily up to `most` cycles (R203). -/
def segmentsOf (most : Nat) (cs : List (Nat × Nat)) : List (Nat × Nat) :=
  (cs.foldl (fun (out : List (Nat × Nat)) c => match out with
    | [] => [c]
    | g :: rest => if g.2 + c.2 ≤ most then (g.1 + c.1, g.2 + c.2) :: rest else c :: g :: rest) []).reverse

/-- The header fields of a program image (R217). -/
structure Image where
  fp       : Bool
  count    : Nat
  payload  : Nat
  listLen  : Nat
  rowStep  : Nat
  maxEmits : Nat
  deriving DecidableEq, Repr

def imageOf (h : List Byte) : Image :=
  { fp := bitOf (fieldAt h 1 1) 0, count := fieldAt h 2 2, payload := fieldAt h 4 4, listLen := fieldAt h 8 2, rowStep := fieldAt h 10 2,
    maxEmits := fieldAt h 12 4 }

def Image.ok (m : Image) : Bool :=
  1 ≤ m.count && m.count ≤ 256 && m.payload ≤ 65536 && m.payload % 16 == 0 && m.listLen ≤ 4096 && m.rowStep ≤ 4096 && m.maxEmits ≤ 65536

/-- The reason for which a program is refused (R218); the lowest where several apply (log entry 24). -/
def refusalReason (p : PnmStack) (segMax rawMax extent pseudo mask : Nat) (m : Image) (instrs rowList : List Nat) : Nat :=
  if !m.ok || mask = 0 || 63 < pseudo then 1
  else if instrs.any insReserved then 2
  else if instrs.any insOutOfRange then 3
  else if loopFormBad instrs then 9
  else
    let steps := unroll m.rowStep instrs
    let (trace, badRows) := rowTrace rowList steps
    let writes := trace.filter fun e => insOp e.1.ins == 0x09
    if steps.any (fun x => insOp x.ins == 0x02 && (x.row rowList).isNone) then 4
    else if writes.any (fun e => (unitsOf mask).any fun u =>
        !p.isScratch extent (rowAddr pseudo u (insA e.1.ins) ((e.2.getD (insA e.1.ins) none).getD 0))) then 5
    else if (chunks trace).any (fun c => segMax < c.2) then 6
    else if rawMax < (steps.map fun x => insCycles x.ins).sum then 7
    else if badRows then 8
    else if instrs.any (fun w => insOp w == 0x01 && m.payload < insImm w + 16 * insB w) then 10
    else 0

/-! ### Unit arithmetic (R191 to R195, R199) -/

/-- A 16-bit element of Q or V that no step of the run has written (log entry 13). -/
def freeElem (seed kind i : Nat) : Nat :=
  (Config.freeByte ((seed * 4 + kind) * 2 ^ 32 + 2 * i)).toNat + 256 * (Config.freeByte ((seed * 4 + kind) * 2 ^ 32 + 2 * i + 1)).toNat

def UnitRegs.qElem (u : UnitRegs) (i : Nat) : Nat := u.q.getD i (freeElem u.seed 0 i)
def UnitRegs.vElem (u : UnitRegs) (i : Nat) : Nat := u.v.getD i (freeElem u.seed 1 i)

/-- An accumulator that no step of the run has written is a free value. -/
def UnitRegs.accBits (u : UnitRegs) (i : Nat) : BitVec 40 :=
  u.acc.getD i (BitVec.ofNat 40 (freeElem u.seed 2 (4 * i) + 2 ^ 16 * freeElem u.seed 2 (4 * i + 1) + 2 ^ 32 * freeElem u.seed 2 (4 * i + 2)))

def UnitRegs.sBit (u : UnitRegs) (i : Nat) : Bool := u.s.getD i (freeElem u.seed 3 i % 2 == 1)
def UnitRegs.fBit (u : UnitRegs) (i : Nat) : Bool := u.f.getD i (freeElem u.seed 3 (4 + i) % 2 == 1)

/-- The value an accumulator holds: an integer, or a 40-bit float (R193). -/
def UnitRegs.accum (fp : Bool) (u : UnitRegs) (i : Nat) : Accum :=
  { val := if fp then Fl.ofBits fp40 (u.accBits i).toNat else .ofInt (u.accBits i).toInt, sat := u.sBit i }

def UnitRegs.setAccum (fp : Bool) (u : UnitRegs) (i : Nat) (a : Accum) : UnitRegs :=
  { u with acc := u.acc.set i (if fp then BitVec.ofNat 40 (a.val.bits fp40) else BitVec.ofInt 40 a.val.toInt), s := u.s.set i a.sat }

/-- Write elements from place `at_` on. -/
def setElems (t : Table Nat) (at_ : Nat) (vs : List Nat) : Table Nat :=
  vs.zipIdx.foldl (fun (t : Table Nat) e => t.set (at_ + e.2) e.1) t

/-- MAC (R193, R194, R197): element `i` of the operand lies in Q, element `v + i` in V. With Zero the accumulator starts from 0,
its S bit clear. -/
def UnitRegs.mac (fp : Bool) (u : UnitRegs) (w : Nat) : UnitRegs :=
  let n := bitsOf (insImm w) 15 0
  let v := bitsOf (insImm w) 31 16
  let ps := (List.range n).map fun i => (elem16 fp (u.qElem (8 * insB w + i)), elem16 fp (u.vElem (v + i)))
  let a := if bitOf (insC w) 7 then {} else u.accum fp (insA w)
  u.setAccum fp (insA w) (Accum.mac fp (bitOf (insC w) 6) n a ps)

/-- CMP (R197); false for a NaN. -/
def UnitRegs.cmp (fp : Bool) (u : UnitRegs) (w : Nat) : UnitRegs :=
  let a := (u.accum fp (insA w)).val
  let t := f32 (BitVec.ofNat 32 (insImm w))
  { u with f := u.f.set (insA w) (if bitOf (insB w) 0 then Fl.le t a else Fl.le a t) }

/-- PASS along the units of the mask, lowest first (R199). -/
def passChain (fp : Bool) (w : Nat) (place : Bool) : Accum → List (Nat × UnitRegs) → List (Nat × UnitRegs)
  | _, [] => []
  | carry, (n, u) :: rest =>
    let own := u.accum fp (insA w)
    let new := if place then { val := carry.val, sat := own.sat || carry.val.isNaN } else own.add fp carry.val
    (n, u.setAccum fp (insA w) new) :: passChain fp w place (if place then own else new) rest

/-- Byte offset of a row within the model's bytes of raw extents. -/
def rawByteAt (extent row byte : Nat) : Nat := extent * 2 ^ 28 + row * 1024 + byte

/-- One emitted entry (R220). -/
def emitBytes (fp : Bool) (u : UnitRegs) (unit w iter : Nat) : List Byte :=
  let a := u.accum fp (insA w)
  natLE 4 a.score.toNat ++ natLE 2 (bitsOf (insImm w) 15 0) ++ natLE 1 unit ++ natLE 1 (boolNat (a.sat && !fp) + 2 * boolNat a.val.isNaN) ++
    natLE 4 iter ++ zeroBytes 4

/-- EMIT of one unit (R197, R220). -/
def State.emitOne (s : State) (r : RawRun) (unit : Nat) (u : UnitRegs) (x : Step) : State × RawRun :=
  let w := x.ins
  let last := (unitsOf r.mask).getLast?
  if (bitOf (insB w) 0 && !u.fBit (insA w)) || (bitOf (insB w) 1 && last != some unit) then (s, r)
  else
    let a := u.accum r.fp (insA w)
    let s := s.when a.sat fun s => (s.bump (pgPnm r.stack) 0x078).sticky (pgPnm r.stack) 0x044 4
    (s, { r with emits := r.emits + 1, satSeen := r.satSeen || (a.sat && !r.fp), nanSeen := r.nanSeen || a.val.isNaN,
                 entries := if r.emits < r.maxEmits then emitBytes r.fp u unit w x.iter :: r.entries else r.entries })

/-- One instruction on one unit, all but PASS and EMIT. -/
def State.unitStep (s : State) (r : RawRun) (unit : Nat) (u : UnitRegs) (x : Step) : State × UnitRegs :=
  let w := x.ins
  let a := insA w
  match insOp w with
  | 0x01 => (s, { u with q := setElems u.q (8 * a) (elems16 (bytesAt r.payload (insImm w) (16 * insB w))) })
  | 0x02 => (s, { u with rows := u.rows.set a (x.row r.rowList) })
  | 0x03 => (s, { u with rows := u.rows.set a none })
  | 0x04 =>
    let row := rowAddr r.pseudo unit a ((u.rows.getD a none).getD 0)
    let bs := Memory.readN s.tier.rawBytes (rawByteAt r.extent row (32 * insB w)) (32 * insC w)
    (s, { u with v := setElems u.v (16 * insImm w) (elems16 bs) })
  | 0x05 => (s, u.mac r.fp w)
  | 0x06 => (s, u.cmp r.fp w)
  | 0x09 =>
    let row := rowAddr r.pseudo unit a ((u.rows.getD a none).getD 0)
    let bs := (List.range (16 * insImm w)).flatMap fun i => natLE 2 (u.qElem (8 * insC w + i))
    ({ s with tier := { s.tier with rawBytes := Memory.writeN s.tier.rawBytes (rawByteAt r.extent row (32 * insB w)) bs } }, u)
  | 0x0A => (s, { u with q := setElems u.q (8 * a) ((List.range (8 * insB w)).map fun i => u.vElem (insImm w + i)) })
  | _ => (s, u)

/-- One instruction on every unit of the mask, in lockstep (R199). -/
def State.runStep (s : State) (r : RawRun) (x : Step) : State × RawRun :=
  if insOp x.ins = 0x08 then
    (s, { r with units := passChain r.fp x.ins (bitOf (insB x.ins) 0) (if r.fp && !bitOf (insB x.ins) 0 then { val := .fin true 0 0 } else {}) r.units })
  else
    r.units.foldl (fun a e =>
      if insOp x.ins = 0x07 then State.emitOne a.1 a.2 e.1 e.2 x
      else
        let (s, u) := State.unitStep a.1 r e.1 e.2 x
        (s, { a.2 with units := a.2.units.set e.1 u })) (s, r)

/-! ### The result area (R220) -/

/-- The 32-byte header. -/
def runHeader (r : RawRun) (reason : Nat) : List Byte :=
  let wrote := min r.emits r.maxEmits
  natLE 1 0x10 ++ natLE 1 (boolNat (r.maxEmits < r.emits) + 2 * boolNat r.satSeen + 4 * boolNat r.nanSeen) ++ natLE 2 reason ++
  natLE 4 wrote ++ natLE 4 (r.emits - wrote) ++ natLE 2 r.segsRun ++ natLE 2 r.refreshes ++ natLE 4 r.cycles ++
  natLE 4 r.corrections ++ natLE 4 r.worst ++ zeroBytes 4

/-- A header with nothing but a reason (R218, R221). -/
def bareHeader (reason worst : Nat) : List Byte :=
  natLE 1 0x10 ++ zeroBytes 1 ++ natLE 2 reason ++ zeroBytes 20 ++ natLE 4 worst ++ zeroBytes 4

/-- Complete a RUN that has not started (R219). -/
def State.runBusy (s : State) (r : RawRun) : State :=
  match s.cmd? r.cid with
  | none => s
  | some k => (s.cmdWrite r.cid (cmdPtrC k.raw) 0 (bareHeader 0 r.worst)).finish r.cid .busy

/-- Refuse a RUN at load (R218, R230). -/
def State.refuseRun (s : State) (cid stack reason : Nat) (k : Cmd) (st : Status) : State :=
  ((s.cmdWrite cid (cmdPtrC k.raw) 0 (bareHeader reason 0)).bump (pgPnm stack) 0x074).finish cid st

/-- RUN (R216 to R219, R231). With `unreadable`, the image or payload meets an uncorrectable error. -/
def run (cid : Nat) (k : Cmd) (unreadable : Bool) (s : State) : State :=
  let extent := fieldAt k.raw 8 4
  let stack := extent / 512
  let pg := pgPnm stack
  let h := s.cmdRead k (cmdPtrA k.raw) 32
  let m := imageOf h
  let pseudo := fieldAt k.raw 49 1
  let mask := fieldAt k.raw 50 1
  if !bitOf (s.reg pg 0x040) 1 then s.finish cid .denied
  else if fieldAt h 0 1 / 16 != 1 then s.refuseRun cid stack 0 k .version
  else
    let n := if m.ok then m.count else 0
    let instrs := (List.range n).map fun i => leNat (s.cmdRead k (cmdPtrA k.raw + 32 + 8 * i) 8)
    let rowList := if m.ok then (List.range m.listLen).map fun i => leNat (s.cmdRead k (cmdPtrA k.raw + 32 + 8 * n + 2 * i) 2) else []
    let p := s.pnmStack stack
    let reason := refusalReason p (s.reg pg 0x048) (s.reg pg 0x050) extent pseudo mask m instrs rowList
    if reason != 0 then s.refuseRun cid stack reason k .malformed
    else if (unitsOf mask).any (fun u => p.disabled.contains (8 * pseudo + u)) then s.refuseRun cid stack 0 k .mediaError
    else if unreadable then s.refuseRun cid stack 0 k .uncorrected
    else
      let steps := unroll m.rowStep instrs
      let r : RawRun :=
        { cid := cid, stack := stack, pseudo := pseudo, mask := mask, extent := extent, fp := m.fp, instrs := instrs,
          payload := if m.payload = 0 then [] else s.cmdRead k (cmdPtrB k.raw) m.payload, rowList := rowList, rowStep := m.rowStep,
          maxEmits := m.maxEmits, worst := (steps.map fun x => insCycles x.ins).sum,
          segs := segmentsOf (s.reg pg 0x048) (chunks (rowTrace rowList steps).1) }
      if s.reg pg 0x04C = 0 then s.runBusy r
      else (s.setCmd cid { k with phase := .started }).withPnm fun b => { b with runs := b.runs.set b.nextRun r, nextRun := b.nextRun + 1 }

/-- A NEARBANK_RUN of a sub-operation, not started yet. -/
def Cmd.isSub (k : Cmd) (sub : Nat) : Bool := k.isNew 0x28 && fieldAt k.raw 48 1 == sub

def execRun (t cid : Nat) (unreadable : Bool) (s : State) : Host.Outcome State Fault Refusal :=
  done ((s.at t).withCmd cid (·.isSub 0) fun k s => run cid k unreadable s)

/-! ### Runs (R202, R204, R219, R220, R226) -/

/-- Unit cycles at 800 MHz in ns. -/
def cycNs (n : Nat) : Nat := n * 5 / 4

/-- Time that raw runs have held a unit of a stack over the last 1,000 µs. -/
def State.heldNs (s : State) (stack unit : Nat) : Nat :=
  let from_ := s.now - 1000 * us
  ((s.pnmStack stack).held.map fun h => if h.1 = unit then h.2.2 - max h.2.1 from_ else 0).sum

/-- A loaded run may start (R219; 22 R694; 24 R740). -/
def State.canStart (s : State) (n : Nat) (r : RawRun) : Bool :=
  let share := s.reg (pgPnm r.stack) 0x04C
  r.phase == .waiting && share != 0 && !s.pwr.throttled && s.pseudoOpen r.stack r.pseudo &&
  !(s.pnm.runs.any fun e => decide (e.1 < n) && e.2.stack == r.stack && (e.2.phase == .waiting || (e.2.pseudo == r.pseudo && (e.2.mask &&& r.mask) != 0))) &&
  (unitsOf r.mask).all fun u => s.heldNs r.stack (8 * r.pseudo + u) * 256 ≤ share * 1000 * us

/-- RAW_RUN_START (R219): the run's registers are what its units held before (log entry 13). -/
def rawRunStart (n : Nat) (s : State) : State :=
  match s.pnm.runs.find? n with
  | none => s
  | some r =>
    if !s.canStart n r then s
    else
      let units := (unitsOf r.mask).map fun u => (u, ({ seed := s.freeCtr * 8 + u } : UnitRegs))
      s.withPnm fun b => { b with runs := b.runs.set n { r with phase := .running, startAt := s.now, units := units,
                                                                 segEnd := s.now + cycNs ((r.segs.head?.map fun g => g.2).getD 0) } }

def execRawRunStart (t run : Nat) (s : State) : Host.Outcome State Fault Refusal :=
  done ((s.at t).onlyIf s.live (rawRunStart run))

/-- When the next refresh of a pseudo-channel falls due (R202). -/
def PnmStack.due (p : PnmStack) (pseudo : Nat) : Nat := p.dueAt.getD pseudo 3900

/-- The refresh due after one that is run at `now`: intervals run from due time to due time (R202). -/
def PnmStack.refreshed (p : PnmStack) (pseudo now : Nat) : PnmStack :=
  { p with dueAt := p.dueAt.set pseudo (p.due pseudo + 3900 * ((now - p.due pseudo) / 3900 + 1)) }

/-- Inner-code corrections of one unit's banks are counted (R209, R229). -/
def State.innerCorr (s : State) (stack unit n : Nat) : State :=
  if n = 0 then s
  else
    let p := s.pnmStack stack
    let fresh := decide (p.corrFrom + oneSec ≤ s.now)
    let counts : Table Nat := if fresh then [] else p.corrIn
    let p := { p with corr := p.corr.set unit (min 0xFFFF (p.corr.getD unit 0 + n)), corrFrom := if fresh then s.now else p.corrFrom,
                      corrIn := counts.set unit (Table.getD counts unit 0 + n) }
    ((s.setPnmStack stack p).bump (pgPnm stack) 0x07C n).sticky (pgPnm stack) 0x044 2

/-- Rows that a loaded or running program names (R214). -/
def RawRun.rows (r : RawRun) : List Nat :=
  (((unroll r.rowStep r.instrs).filter fun x => insOp x.ins == 0x02).flatMap fun x =>
    (unitsOf r.mask).map fun u => rowAddr r.pseudo u (insA x.ins) ((x.row r.rowList).getD 0))

/-- Scratch closes that waited for a run complete once no run names their rows (R214, R221). -/
def State.closeDone (s : State) : State :=
  s.pnm.closing.foldl (fun s cid =>
    match s.cmd? cid with
    | none => s
    | some k =>
      let first := bitsOf (fieldAt k.raw 52 4) 17 0
      let n := fieldAt k.raw 56 4
      if s.pnm.runs.any fun e => e.2.extent == fieldAt k.raw 8 4 && e.2.rows.any fun row => decide (first ≤ row) && decide (row < first + n) then s
      else ((s.withPnm fun b => { b with closing := b.closing.erase cid }).cmdWrite cid (cmdPtrC k.raw) 0 (bareHeader 0 0)).finish cid .ok) s

/-- A run lets its units go (R219). -/
def State.dropRun (s : State) (n : Nat) : State :=
  match s.pnm.runs.find? n with
  | none => s
  | some r =>
    let p := s.pnmStack r.stack
    let mine := if r.phase = .waiting then [] else (unitsOf r.mask).map fun u => (8 * r.pseudo + u, r.startAt, s.now)
    let held := (p.held ++ mine).filter fun h => s.now - 1000 * us < h.2.2
    ((s.setPnmStack r.stack { p with held := held }).withPnm fun b => { b with runs := b.runs.erase n }).closeDone

/-- A running run that was aborted ends with its segment; its entries are undefined (R226; log entry 6). -/
def State.endAborted (s : State) (n : Nat) (r : RawRun) : State :=
  match s.cmd? r.cid with
  | none => s.dropRun n
  | some k =>
    let wrote := min r.emits r.maxEmits
    let free := (List.range (16 * wrote)).map fun i => Config.freeByte (s.freeCtr * 2 ^ 64 + i)
    ((s.cmdWrite r.cid (cmdPtrC k.raw) 0 (runHeader r 0 ++ free)).finish r.cid .aborted).dropRun n

/-- The refresh at a segment boundary, where one is due for a bank of the mask (R204). -/
def State.boundary (s : State) (r : RawRun) : State × RawRun :=
  let p := s.pnmStack r.stack
  if p.due r.pseudo ≤ r.segEnd then
    (((s.setPnmStack r.stack (p.refreshed r.pseudo r.segEnd)).bump (pgPnm r.stack) 0x080),
     { r with refreshes := r.refreshes + 1, cycles := r.cycles + 224, segEnd := r.segEnd + 280 })
  else (s, r)

/-- RAW_SEGMENT_END (R199, R204, R209, R226): the segment's instructions have run. `corrs` are inner-code corrections, by unit of
the stack, of the mask's banks. -/
def rawSegmentEnd (n : Nat) (corrs : List (Nat × Nat)) (s : State) : State :=
  match s.pnm.runs.find? n with
  | none => s
  | some r =>
    match r.segs with
    | [] => s
    | g :: rest =>
      if r.phase != .running || s.now < r.segEnd then s
      else
        let mine := corrs.filter fun c => c.1 / 8 == r.pseudo && bitOf r.mask (c.1 % 8)
        let s := mine.foldl (fun s c => s.innerCorr r.stack c.1 c.2) s
        let steps := ((unroll r.rowStep r.instrs).drop r.pos).take g.1
        let (s, r) := steps.foldl (fun a x => State.runStep a.1 a.2 x) (s, r)
        let r := { r with segs := rest, pos := r.pos + g.1, segsRun := r.segsRun + 1, cycles := r.cycles + g.2,
                          corrections := r.corrections + (mine.map fun c => c.2).sum }
        if r.aborting then s.endAborted n r
        else match rest with
          | [] => s.withPnm fun b => { b with runs := b.runs.set n { r with phase := .ended } }
          | g' :: _ =>
            let (s, r) := s.boundary r
            s.withPnm fun b => { b with runs := b.runs.set n { r with segEnd := r.segEnd + cycNs g'.2 } }

def execRawSegmentEnd (t run : Nat) (corrections : List (Nat × Nat)) (s : State) : Host.Outcome State Fault Refusal :=
  done ((s.at t).onlyIf s.live (rawSegmentEnd run corrections))

/-- RAW_RUN_END (R220, R223): the result area is written and the completion posted. -/
def rawRunEnd (n : Nat) (s : State) : State :=
  match s.pnm.runs.find? n with
  | none => s
  | some r =>
    match s.cmd? r.cid with
    | none => s
    | some k =>
      if r.phase != .ended then s
      else
        let s := s.cmdWrite r.cid (cmdPtrC k.raw) 0 (runHeader r 0 ++ r.entries.reverse.flatten)
        ((s.bump (pgPnm r.stack) 0x070).finish r.cid .ok (min r.emits r.maxEmits)).dropRun n

def execRawRunEnd (t run : Nat) (s : State) : Host.Outcome State Fault Refusal :=
  done ((s.at t).onlyIf s.live (rawRunEnd run))

/-- REFRESH (R202): a due refresh of a pseudo-channel, outside any run of its units. -/
def refresh (stack pseudo : Nat) (s : State) : State :=
  let p := s.pnmStack stack
  if s.now < p.due pseudo || s.pnm.runs.any (fun e => e.2.phase == .running && e.2.stack == stack && e.2.pseudo == pseudo) then s
  else s.setPnmStack stack (p.refreshed pseudo s.now)

def execRefresh (t stack pseudo : Nat) (s : State) : Host.Outcome State Fault Refusal :=
  done ((s.at t).onlyIf (decide (stack < 8) && decide (pseudo < 64)) (refresh stack pseudo))

/-- PNM_RAW_SHARE_WRITE (R219, R230): a share of 0 completes the stack's waiting runs BUSY. -/
def rawShareWrite (stack val : Nat) (s : State) : State :=
  let s := s.writeFields (pgPnm stack) 0x04C val
  if s.reg (pgPnm stack) 0x04C != 0 then s
  else (s.pnm.runs.filter fun e => e.2.stack == stack && e.2.phase == .waiting).foldl (fun s e => (s.runBusy e.2).dropRun e.1) s

def execPnmRawShareWrite (t fn stack : Nat) (val : Word) (s : State) : Host.Outcome State Fault Refusal :=
  done ((s.at t).onlyIf (s.live && fn == 0 && decide (stack < 8)) (rawShareWrite stack val.toNat))

/-! ### Scratch rows (R211 to R215, R221) -/

/-- The row range of a scratch sub-operation: none outside its ranges (R216). -/
def scratchRange (k : Cmd) : Option (Nat × Nat) :=
  let first := bitsOf (fieldAt k.raw 52 4) 17 0
  let n := fieldAt k.raw 56 4
  if n = 0 || 262144 < n then none else some (first, n)

/-- SCRATCH_OPEN (R213): a range that overlaps entries extends them, and takes no new one. -/
def scratchOpen (cid : Nat) (k : Cmd) (s : State) : State :=
  let extent := fieldAt k.raw 8 4
  let stack := extent / 512
  let p := s.pnmStack stack
  match scratchRange k with
  | none => s.finish cid .malformed
  | some (first, n) =>
    let hit := p.regions.filter fun e => e.2.1 == extent && decide (e.2.2.1 < first + n) && decide (first < e.2.2.1 + e.2.2.2)
    if 262144 < first + n then s.finish cid .denied
    else if hit.isEmpty && 256 ≤ p.regions.length then s.finish cid .quota
    else
      let lo := (hit.map fun e => e.2.2.1).foldl min first
      let hi := (hit.map fun e => e.2.2.1 + e.2.2.2).foldl max (first + n)
      let kept := p.regions.filter fun e => !(hit.map fun h => h.1).contains e.1
      let key := match hit with
        | e :: _ => e.1
        | [] => (p.regions.lowestFree 0 256).getD 0
      let s := s.setPnmStack stack { p with regions := Table.set kept key (extent, lo, hi - lo) }
      (s.cmdWrite cid (cmdPtrC k.raw) 0 (bareHeader 0 0)).finish cid .ok

def execScratchOpen (t cid : Nat) (s : State) : Host.Outcome State Fault Refusal :=
  done ((s.at t).withCmd cid (·.isSub 1) (scratchOpen cid))

/-- The region table without a row range of an extent (R214). -/
def closeRange (regions : Table (Nat × Nat × Nat)) (extent first n : Nat) : Table (Nat × Nat × Nat) :=
  regions.foldl (fun (t : Table (Nat × Nat × Nat)) e =>
    let (ex, lo, len) := e.2
    if ex != extent || lo + len ≤ first || first + n ≤ lo then t.set e.1 e.2
    else
      let t := if lo < first then t.set e.1 (ex, lo, first - lo) else t
      if first + n < lo + len then
        t.set (if lo < first then max regions.nextKey t.nextKey else e.1) (ex, first + n, lo + len - (first + n))
      else t) []

/-- SCRATCH_CLOSE (R214): the range is Protected from now on; the command waits for runs that name its rows. -/
def scratchClose (cid : Nat) (k : Cmd) (s : State) : State :=
  let extent := fieldAt k.raw 8 4
  let stack := extent / 512
  let p := s.pnmStack stack
  match scratchRange k with
  | none => s.finish cid .malformed
  | some (first, n) =>
    if 262144 < first + n then s.finish cid .denied
    else
      let s := s.setPnmStack stack { p with regions := closeRange p.regions extent first n }
      ((s.setCmd cid { k with phase := .started }).withPnm fun b => { b with closing := b.closing ++ [cid] }).closeDone

def execScratchClose (t cid : Nat) (s : State) : Host.Outcome State Fault Refusal :=
  done ((s.at t).withCmd cid (·.isSub 2) (scratchClose cid))

/-! ### Unit errors (R228, R229) -/

/-- A unit is disabled until the next cold start (R228). -/
def State.disableUnit (s : State) (stack unit : Nat) : State :=
  let p := s.pnmStack stack
  if p.disabled.contains unit then s
  else (s.setPnmStack stack { p with disabled := p.disabled ++ [unit] }).sendFault (pgPnm stack) .unitFailed unit

/-- UNIT_PARITY_ERROR (R228). -/
def execUnitParityError (t stack unit : Nat) (s : State) : Host.Outcome State Fault Refusal :=
  done ((s.at t).onlyIf (s.live && decide (stack < 8) && decide (unit < 512)) fun s => s.disableUnit stack unit)

/-- INNER_CORR_RATE (R229): the unit's corrections of the running second exceed PNM_CORR_LIMIT. The notice is sent once for them. -/
def innerCorrRate (stack unit : Nat) (s : State) : State :=
  let p := s.pnmStack stack
  let limit := s.reg (pgPnm stack) 0x054
  if limit = 0 || p.corrIn.getD unit 0 ≤ limit then s
  else (s.setPnmStack stack { p with corrIn := p.corrIn.set unit 0 }).sendFault (pgPnm stack) .innerCorrRate unit

def execInnerCorrRate (t stack unit : Nat) (s : State) : Host.Outcome State Fault Refusal :=
  done ((s.at t).onlyIf (s.live && decide (stack < 8)) (innerCorrRate stack unit))

end Sys2Proof.Machine
end

