-- ==== Sys2Proof/Machine/Tiers.lean ====
section
/-!
DEFINITION. The tiers: quotas, raw extents, scrubs and wear notices, and CXL.mem accesses to the window (12 R386 to R413; 14
R471 to R474, R480).
-/

namespace Sys2Proof.Machine

/-! ### Quotas (12 R409, R413) -/

/-- Units of a tier that quotas may share out (R409). -/
def State.allocatable (s : State) (tier : Nat) : Nat :=
  if tier = 0 then s.topAllocatable else if tier = 1 then s.heartAllocatable else s.bft.allocatable

def Domain.quota (d : Domain) (tier : Nat) : Nat := if tier = 0 then d.quotaTop else if tier = 1 then d.quotaHeart else d.quotaBase

def Domain.setQuota (d : Domain) (tier n : Nat) : Domain :=
  if tier = 0 then { d with quotaTop := n } else if tier = 1 then { d with quotaHeart := n } else { d with quotaBase := n }

/-- Volumes that a cold start brought back are charged when their owner's Base quota is first set (R413). -/
def State.chargeVolumes (s : State) (d : Nat) : State :=
  let due := s.bft.volumes.filter fun e => e.2.owner == d && !e.2.charged
  let gib := (due.map fun e => e.2.gib).sum
  let v := s.domain d
  { s.setDomain d { v with usedBase := v.usedBase + gib } with
    bft := { s.bft with volumes := s.bft.volumes.mapVal fun x => if x.owner = d then { x with charged := true } else x } }

/-- Set a quota: QUOTA_SET and cue action 0x06 (R409). -/
def State.setQuota (s : State) (d tier n : Nat) : State × Status :=
  if s.dom.fuses.maxDomains ≤ d || 2 < tier then (s, .malformed)
  else
    let others := ((s.dom.doms.filter fun e => e.1 != d).map fun e => e.2.quota tier).sum
    if s.allocatable tier < others + n then (s.quotaFail, .quota)
    else
      let s := s.setDomain d ((s.domain d).setQuota tier n)
      (if tier = 2 then s.chargeVolumes d else s, .ok)

def quotaSet (cid : Nat) (k : Cmd) (s : State) : State :=
  let (s, st) := s.setQuota (fieldAt k.raw 8 2) (fieldAt k.raw 49 1) (fieldAt k.raw 52 4)
  s.finish cid st

def execQuotaSet (t cid : Nat) (s : State) : Host.Outcome State Fault Refusal :=
  done ((s.at t).withCmd cid (·.isAdmin 0x18) (quotaSet cid))

/-! ### Raw extents (12 R392, R394, R413; 15 R505) -/

/-- The lowest free raw extent of a stack. -/
def State.freeRaw (s : State) (stack : Nat) : Option Nat :=
  ((List.range' (384 - s.rawBands) s.rawBands).map fun b => 512 * stack + b).find? fun h =>
    !(s.tier.raw.has h) && !s.tier.withheld.contains (2 ^ 16 + h)

/-- RAW_ALLOC: the Detail field returns the handle. -/
def rawAlloc (cid : Nat) (k : Cmd) (s : State) : State :=
  let d := fieldAt k.raw 8 2
  let n := fieldAt k.raw 49 1
  let v := s.domain d
  if s.dom.fuses.maxDomains ≤ d || 7 < n then s.finish cid .malformed
  else if v.state != .active then s.finish cid .notFound
  else if !bitOf (s.privs d) 0 then s.finish cid .denied
  else if v.quotaHeart < v.usedHeart + 1 then s.quotaFail.finish cid .quota
  else match s.freeRaw n with
    | none => (s.tierShort d 1).finish cid .quota
    | some h =>
      ({ s.setDomain d { v with usedHeart := v.usedHeart + 1 } with tier := { s.tier with raw := s.tier.raw.set h d } }).finish cid .ok 0 h

def execRawAlloc (t cid : Nat) (s : State) : Host.Outcome State Fault Refusal :=
  done ((s.at t).withCmd cid (·.isAdmin 0x1C) (rawAlloc cid))

/-- A command or a run still uses a raw extent. -/
def State.rawBusy (s : State) (h : Nat) : Bool :=
  (s.qmg.cmds.any fun e => cmdOpcode e.2.raw == 0x28 && fieldAt e.2.raw 8 4 == h) || s.pnm.runs.any fun e => e.2.extent == h

/-- RAW_FREE: it waits until every command that uses the extent has completed (R413). -/
def rawFree (cid : Nat) (k : Cmd) (s : State) : State :=
  let h := fieldAt k.raw 8 4
  match s.tier.raw.find? h with
  | none => s.finish cid .notFound
  | some d =>
    if s.rawBusy h then s.setCmd cid { k with phase := .waiting }
    else
      let v := s.domain d
      let p := s.pnmStack (h / 512)
      let s := s.setPnmStack (h / 512) { p with regions := p.regions.filter fun e => e.2.1 != h }
      ({ s.setDomain d { v with usedHeart := v.usedHeart - 1 } with tier := { s.tier with raw := s.tier.raw.erase h } }).finish cid .ok

def execRawFree (t cid : Nat) (s : State) : Host.Outcome State Fault Refusal :=
  done ((s.at t).withCmd cid (fun k => cmdOpcode k.raw == 0x38 && cmdAdminOp k.raw == 0x1D && (k.phase == .admitted || k.phase == .waiting)) (rawFree cid))

/-! ### Places and reads of Heart blocks (12 R393, R396, R401 to R404, R406; 06 R209) -/

/-- The location of a window offset, in the form of R403 (R393, R396). -/
def winLoc (w : Nat) : Nat :=
  let e := w / 2 ^ 28
  let g := w % 2 ^ 28 / 1024
  granuleStack g * 2 ^ 37 + (16 * (g / 8 % 64) + g / 512 % 16) * 2 ^ 27 + (256 * (e / 8) + 32 * (e % 8) + g / 8192) * 2 ^ 10 + w % 1024

/-- The window offset of a location, if it lies in the window (R393, R396). -/
def State.winOf (s : State) (loc : Nat) : Option Nat :=
  let stack := loc / 2 ^ 37 % 8
  let bank := bitsOf loc 36 27
  let row := bitsOf loc 26 10
  let e := 8 * (row / 256) + row % 256 / 32
  let g := row % 32 * 8192 + bank % 16 * 512 + bank / 16 * 8 + stack
  if e < s.hdmExtents then some (e * 2 ^ 28 + g * 1024 + loc % 1024) else none

/-- The unit that serves a location's bank (06 R190). -/
def locUnit (loc : Nat) : Nat := bitsOf loc 36 27 / 2

/-- An inner correction on a controller read (R401; 06 R209). -/
def State.innerFix (s : State) (loc : Nat) : State :=
  let i := loc / 2 ^ 37 % 8
  (s.innerCorr i (locUnit loc) 1).bump (pgHmc i) 0x060

/-- Outer corrections are counted, in the running second too (R401, R406). -/
def State.outerFix (s : State) (loc : Nat) : State :=
  let i := loc / 2 ^ 37 % 8
  let h := s.stack i
  let h := if h.outerFrom + oneSec ≤ s.now then { h with outerFrom := s.now, outerIn := 1 } else { h with outerIn := h.outerIn + 1 }
  ((s.setStack i h).bump (pgHmc i) 0x064).sticky (pgHmc i) 0x044 1

/-- Mark a window block as one that reads uncorrectable (R402). -/
def State.markBlock (s : State) (w : Nat) : State :=
  { s with tier := { s.tier with badBlocks := if s.tier.badBlocks.contains (w / 64) then s.tier.badBlocks else s.tier.badBlocks ++ [w / 64] } }

/-- Read the 64-byte block at window offset `w` (R401 to R403): none where it is uncorrectable. -/
def State.readBlock (s : State) (w : Nat) (r : BlockRead) (detail : Nat) : State × Option (List Byte) :=
  let loc := winLoc w
  let stored := s.win.readN w 64
  let bad := ((s.markBlock w).heartBad loc detail (some w), none)
  if s.tier.badBlocks.contains (w / 64) then bad
  else match r with
    | .clean => (s, some stored)
    | .inner => (s.innerFix loc, some stored)
    | .outer => (s.outerFix loc, some stored)
    | .miscorrected d => (s.outerFix loc, some ((d ++ stored.drop d.length).take 64))
    | .failed => bad

/-- OUTER_CORR_RATE (R406): the stack's outer corrections of the running second exceed HMC_CORR_LIMIT. The notice is sent once
for them. -/
def outerCorrRate (stack : Nat) (s : State) : State :=
  let h := s.stack stack
  let limit := s.reg (pgHmc stack) 0x04C
  if limit = 0 || h.outerIn ≤ limit || !bitOf (s.reg (pgHmc stack) 0x040) 0 then s
  else (s.setStack stack { h with outerIn := 0 }).sendFault (pgHmc stack) .outerCorrRate

def execOuterCorrRate (t stack : Nat) (s : State) : Host.Outcome State Fault Refusal :=
  done ((s.at t).onlyIf (s.live && decide (stack < 8)) (outerCorrRate stack))

/-! ### Scrubs (12 R388, R389, R405, R407) -/

/-- TOP_SCRUB: one scrub of Top, which corrected the words at some byte offsets and could not correct others. -/
def topScrub (corrected failed : List Nat) (s : State) : State :=
  if !bitOf (s.reg pgTop 0x040) 0 then s
  else
    let s := if corrected.isEmpty then s else (s.bump pgTop 0x050 corrected.length).sticky pgTop 0x044 1
    failed.foldl State.topBad s

def execTopScrub (t : Nat) (corrected failed : List Nat) (s : State) : Host.Outcome State Fault Refusal :=
  done ((s.at t).onlyIf (s.live && s.accepts pgTop) (topScrub corrected failed))

/-- A row's outer corrections at scrub passes; at the sixteenth it goes on the bad-row list (R407). -/
def HmcStack.scrubHit (h : HmcStack) (row : Nat) : HmcStack :=
  let n := h.scrubHits.getD row 0 + 1
  let h := { h with scrubHits := h.scrubHits.set row n }
  if 16 ≤ n then h.badRow row else h

def locRow (loc : Nat) : Nat := bitsOf loc 36 27 * 98304 + bitsOf loc 26 10

/-- PATROL_SCRUB: one pass over a stack, which met outer corrections at some locations and uncorrectable blocks at others. -/
def patrolScrub (stack : Nat) (corrected failed : List Nat) (s : State) : State :=
  if !bitOf (s.reg (pgHmc stack) 0x040) 1 then s
  else
    let here (loc : Nat) : Bool := loc / 2 ^ 37 % 8 == stack
    let cs := corrected.filter here
    let s := cs.foldl State.outerFix s
    let s := s.setStack stack ((cs.map locRow).eraseDups.foldl HmcStack.scrubHit (s.stack stack))
    let s := (failed.filter here).foldl (fun s loc =>
      let s := match s.winOf loc with
        | none => s
        | some w => s.markBlock w
      s.heartBad loc 0 (s.winOf loc)) s
    s.bump (pgHmc stack) 0x080

def execPatrolScrub (t stack : Nat) (corrected failed : List Nat) (s : State) : Host.Outcome State Fault Refusal :=
  done ((s.at t).onlyIf (s.live && decide (stack < 8) && bitOf (s.reg (pgHmc stack) 0x010) 0 && !s.flt.resets.has (pgHmc stack)) (patrolScrub stack corrected failed))

/-- HMC_UE_LOC_READ (12 R417; 23 R705): the latched location is returned, its other words stay for the reads that follow, and the
latch takes the next error. -/
def execHmcUeLocRead (t stack : Nat) (s : State) : Host.Outcome State Fault Refusal :=
  done ((s.at t).onlyIf (s.live && decide (stack < 8)) fun s =>
    let h := s.stack stack
    let (loc, win) := h.ueLoc.getD (0, 0)
    let k := pgHmc stack * 4096
    ({ s.setStack stack { h with ueLoc := none } with
        hiCap := ((s.hiCap.set (k + 0x070) (loc / 2 ^ 32)).set (k + 0x078) (win % 2 ^ 32)).set (k + 0x07C) (win / 2 ^ 32) }).emit
      (.readData (BitVec.ofNat 32 loc)))

/-! ### CXL.mem (14 R471 to R474, R480) -/

/-- IDE is active on CXL.io and, in CXL mode, on CXL.mem (14 R483). -/
def State.ideActive (s : State) : Bool := s.cxl.ideIo && (s.cxl.mode < 2 || s.cxl.ideMem)

/-- The link is restricted: IdeRequired is set and IDE is not active (14 R480). -/
def State.ideShut (s : State) : Bool := bitOf (s.reg pgCxl 0x040) 1 && !s.ideActive

/-- CXL.mem requests reach the node: the link is in CXL mode and the decoder is committed (14 R463, R471). -/
def State.memLink (s : State) : Bool := s.live && 2 ≤ s.cxl.mode && s.cxl.committed

/-- A request is answered now: one that reaches Heart needs a controller that takes requests and a pseudo-channel that is not held
(22 R694; 23 R712). -/
def State.memOpen (s : State) (dpa : Nat) : Bool :=
  s.memLink && (s.ideShut || decide (s.winBytes ≤ dpa) || s.heartOpen (winLoc dpa / 2 ^ 37 % 8) (bitsOf (winLoc dpa) 36 27 / 16))

/-- A request beyond the window is counted (14 R473). -/
def State.memOor (s : State) : State := (s.bump pgCxl 0x060).sticky pgCxl 0x044 2

/-- Bytes moved by a CXL.mem request. -/
def State.memMoved (s : State) (n : Nat) : State := s.bump64 pgCxl 0x078 n

def onesBlock : List Byte := List.replicate 64 0xFF#8

/-- MEM_RD (14 R472, R473, R480; 12 R401, R403). -/
def memRd (dpa : Nat) (r : BlockRead) (s : State) : State :=
  if s.ideShut then s.emit (.memData onesBlock)
  else if s.winBytes ≤ dpa then s.memOor.emit (.memData onesBlock)
  else
    let (s, d) := s.readBlock (dpa / 64 * 64) r 0
    (s.memMoved 64).emit (.memData (d.getD onesBlock))

def execMemRd (t dpa : Nat) (block : BlockRead) (s : State) : Host.Outcome State Fault Refusal :=
  done ((s.at t).onlyIf (s.memOpen dpa) (memRd dpa block))

/-- MEM_SPEC_RD: a hint, which this model drops (14 R472). -/
def execMemSpecRd (t dpa : Nat) (s : State) : Host.Outcome State Fault Refusal :=
  done ((s.at t).onlyIf s.memLink fun s => if !s.ideShut && decide (s.winBytes ≤ dpa) then s.memOor else s)

/-- MEM_INV: completed with no data and no effect (14 R472). -/
def execMemInv (t dpa : Nat) (s : State) : Host.Outcome State Fault Refusal :=
  done ((s.at t).onlyIf s.memLink fun s => (if !s.ideShut && decide (s.winBytes ≤ dpa) then s.memOor else s).emit .memDone)

/-- A poisoned write is dropped (14 R474). -/
def State.poisonWrite (s : State) (dpa : Nat) : State :=
  ((s.bump pgCxl 0x064).sticky pgCxl 0x044 4).sendFault pgCxl .hostPoisonWrite 0 dpa

/-- A full write of a window block (12 R402). -/
def State.writeBlock (s : State) (w : Nat) (data : List Byte) : State :=
  { s with win := s.win.writeN w data, tier := { s.tier with badBlocks := s.tier.badBlocks.erase (w / 64) } }

/-- Exactly 64 bytes. -/
def block64 (bs : List Byte) : List Byte := (bs ++ zeroBytes 64).take 64

/-- MEM_WR (14 R472 to R474, R480). -/
def memWr (dpa : Nat) (data : List Byte) (poison : Bool) (s : State) : State :=
  if s.ideShut then s.emit .memDone
  else if s.winBytes ≤ dpa then s.memOor.emit .memDone
  else if poison then (s.poisonWrite dpa).emit .memDone
  else ((s.writeBlock (dpa / 64 * 64) (block64 data)).memMoved 64).emit .memDone

def execMemWr (t dpa : Nat) (data : List Byte) (poison : Bool) (s : State) : Host.Outcome State Fault Refusal :=
  done ((s.at t).onlyIf (s.memOpen dpa) (memWr dpa data poison))

/-- The enabled bytes of `new` over `old`. -/
def mergeBytes (old new : List Byte) (en : List Bool) : List Byte :=
  (List.range 64).map fun i => if en.getD i false then new.getD i 0 else old.getD i 0

/-- MEM_WR_PTL (14 R472 to R474, R480; 12 R404). -/
def memWrPtl (dpa : Nat) (data : List Byte) (en : List Bool) (poison : Bool) (r : BlockRead) (s : State) : State :=
  let w := dpa / 64 * 64
  let n := ((List.range 64).filter fun i => en.getD i false).length
  if s.ideShut then s.emit .memDone
  else if s.winBytes ≤ dpa then s.memOor.emit .memDone
  else if poison then (s.poisonWrite dpa).emit .memDone
  else if n = 64 then ((s.writeBlock w (block64 data)).memMoved 64).emit .memDone
  else
    let (s, d) := s.readBlock w r 0x100
    match d with
    | none => s.emit .memDone
    | some old => ((s.writeBlock w (mergeBytes old data en)).memMoved n).emit .memDone

def execMemWrPtl (t dpa : Nat) (data : List Byte) (enables : List Bool) (poison : Bool) (block : BlockRead) (s : State) :
    Host.Outcome State Fault Refusal :=
  done ((s.at t).onlyIf (s.memOpen dpa) (memWrPtl dpa data enables poison block))

end Sys2Proof.Machine
end

