-- ==== Sys2Proof/Machine/Queues.lean ====
section
/-!
DEFINITION. Queue pairs, doorbells, fetching and admission, CURTAIN and ABORT (15 R484 to R519; 16 R533; 22 R699; 17 R576).
-/

namespace Sys2Proof.Machine

/-! ### Doorbells (R487, R489 to R492; 14 R466, R480) -/

/-- The queue that a doorbell page of a function serves (R487). -/
def State.bellQueue (s : State) (fn page : Nat) : Option (Nat × Queue) :=
  if fn = 0 then match s.queue? page with
    | some q => if q.fn = 0 then some (page, q) else none
    | none => none
  else List.find? (fun e => e.2.fn == fn && e.2.page == page) s.qmg.queues

/-- A queue enters Error (R492, R518, R519); entries under R485 are not counted. -/
def State.queueError (s : State) (n : Nat) (q : Queue) (counted : Bool) : State :=
  let s := (s.setQueue n { q with state := .error }).sticky pgQmg 0x044 1
  let s := s.when counted (·.bump pgQmg 0x080)
  s.when (bitOf (s.reg pgQmg 0x040) 2) (·.sendFault pgQmg .queueError n)

/-- A doorbell write that reaches an Enabled queue. -/
def State.atBell (s : State) (fn page : Nat) (f : Nat → Queue → State → State) : State :=
  match s.bellQueue fn page with
  | none => s
  | some (n, q) => if s.ideShut || q.state != .enabled || q.draining.isSome then s else f n q s

/-- QDB_SQ_TAIL (R490, R492, R494). -/
def sqTailWrite (v n : Nat) (q : Queue) (s : State) : State :=
  if 2 ^ q.sqLog2 ≤ v then s.queueError n q true else s.setQueue n { q with sqTail := v }

/-- QDB_CQ_HEAD (R490, R492; 19 R621). -/
def cqHeadWrite (v n : Nat) (q : Queue) (s : State) : State :=
  let size := 2 ^ q.cqLog2
  if size ≤ v || decide ((q.cqTail + size - q.cqHead) % size < (v + size - q.cqHead) % size) then s.queueError n q true
  else
    let s := s.setQueue n { q with cqHead := v }
    if v = q.cqTail then s.armVec (vecKey q.fn q.vector) else s

def execQdbSqTailWrite (t fn page : Nat) (val : Word) (s : State) : Host.Outcome State Fault Refusal :=
  done ((s.at t).onlyIf s.live fun s => s.atBell fn page (sqTailWrite (val.toNat % 65536)))

def execQdbCqHeadWrite (t fn page : Nat) (val : Word) (s : State) : Host.Outcome State Fault Refusal :=
  done ((s.at t).onlyIf s.live fun s => s.atBell fn page (cqHeadWrite (val.toNat % 65536)))

/-! ### Queue 0 (R485, R518) -/

/-- Queue 0 as the QMG_Q0 registers set it up. -/
def State.queue0 (s : State) : Queue :=
  let size := s.reg pgQmg 0x058
  { state := .enabled, sqBase := s.reg pgQmg 0x048 + 2 ^ 32 * s.reg pgQmg 0x04C, cqBase := s.reg pgQmg 0x050 + 2 ^ 32 * s.reg pgQmg 0x054,
    sqLog2 := bitsOf size 4 0, cqLog2 := bitsOf size 20 16, vector := bitsOf (s.reg pgQmg 0x05C) 10 0 }

/-- Rings and sizes within their ranges (R485). -/
def Queue.ringsOk (q : Queue) : Bool :=
  q.sqBase % 4096 == 0 && q.cqBase % 4096 == 0 && 4 ≤ q.sqLog2 && q.sqLog2 ≤ 16 && 4 ≤ q.cqLog2 && q.cqLog2 ≤ 16

/-- QMG_CTRL.Q0Enable: setting it takes the rings and starts them afresh, clearing it stops queue 0 (R485, R518). -/
def q0EnableWrite (val : Nat) (s : State) : State :=
  let was := bitOf (s.reg pgQmg 0x040) 1
  let s := s.writeFields pgQmg 0x040 val
  let on := bitOf (s.reg pgQmg 0x040) 1
  if on && !was then
    let q := s.queue0
    if q.ringsOk then s.setQueue 0 q else s.queueError 0 { q with sqLog2 := 4, cqLog2 := 4 } false
  else if was && !on then s.setQueue 0 { (s.queue? 0).getD {} with state := .stopped }
  else s

def execQ0EnableWrite (t fn : Nat) (val : Word) (s : State) : Host.Outcome State Fault Refusal :=
  done ((s.at t).onlyIf (s.live && fn == 0) (q0EnableWrite val.toNat))

/-! ### The areas a command names (16 R533 check 7) -/

/-- An area: its first address and its bytes; `result` marks a result area (17 R569). -/
structure Area where
  ptr : Nat
  len : Nat
  result : Bool := false
  deriving DecidableEq, Repr

/-- An optional area: absent when its pointer is 0. -/
def optArea (ptr len : Nat) (result : Bool := false) : List Area := if ptr = 0 then [] else [⟨ptr, len, result⟩]

/-- The predicate program that a descriptor names (05 R162). -/
def State.predicateArea (s : State) (k : Cmd) (desc : List Byte) : List Area :=
  let p := fieldAt desc 32 8
  if p = 0 then [] else [⟨p, 16 + 16 * min 16 (fieldAt (s.cmdRead k p 16) 2 1), false⟩]

/-- The lists that one bag record names (10 R337). -/
def bagAreas (r : List Byte) : List Area :=
  let n := fieldAt r 24 4
  ⟨fieldAt r 8 8, 8 * n, false⟩ :: optArea (fieldAt r 16 8) (4 * n)

/-- The bag records of `n` event records from an address, and where the records end (15 R502). -/
def State.eventBags (s : State) (k : Cmd) : Nat → Nat → List (List Byte) × Nat
  | 0, a => ([], a)
  | n + 1, a =>
    let b := fieldAt (s.cmdRead k a 64) 24 2
    if b = 0 || 64 < b then ([], a + 64)
    else
      let (rest, e) := State.eventBags s k n (a + 64 + 32 * b)
      (((List.range b).map fun j => s.cmdRead k (a + 64 + 32 * j) 32) ++ rest, e)

/-- The bag records of a command, and where the list that holds them ends. -/
def State.bagRecords (s : State) (k : Cmd) : List (List Byte) × Nat :=
  let a := cmdPtrA k.raw
  match cmdOpcode k.raw with
  | 0x10 =>
    let n := fieldAt (s.cmdRead k a 16) 2 2
    ((List.range (if 4096 < n then 0 else n)).map fun j => s.cmdRead k (a + 16 + 32 * j) 32, a + 16 + 32 * n)
  | 0x03 => if 16777216 < encCount k then ([], a) else s.eventBags k (encCount k) a
  | 0x04 => s.eventBags k 1 a
  | _ => ([], a)

/-- Bytes of one vector of a Score's last operator (15 R504). -/
def outBytes (im : List Byte) : Nat :=
  match (imgOpList im).getLast? with
  | none => 0
  | some o => if o.wide then 4 * o.width else 2 * o.width

/-- The areas of a table update (10 R345). -/
def State.updateAreas (s : State) (k : Cmd) : List Area :=
  let n := cmdPtrC k.raw
  let t := (s.tab? (fieldAt k.raw 8 4)).getD { owner := 0, kind := 0, elems := 0 }
  let lists (row : Nat) : List Area := [⟨cmdPtrA k.raw, 8 * n, false⟩, ⟨cmdPtrB k.raw, row * n, false⟩]
  match fieldAt k.raw 48 1 with
  | 0 => lists t.stride
  | 1 => lists ((if bitOf (fieldAt k.raw 50 1) 0 then 4 else 2) * t.elems)
  | 4 => [⟨cmdPtrA k.raw, 8 * n, false⟩]
  | _ => []

/-- The areas of an ADMIN (15 R485, R505; 17 R579; 21 R668; 22 R692). -/
def adminAreas (k : Cmd) : List Area :=
  let a (n : Nat) : Area := ⟨cmdPtrA k.raw, n, false⟩
  let b (n : Nat) : Area := ⟨cmdPtrB k.raw, n, false⟩
  let outA (n : Nat) : Area := ⟨cmdPtrA k.raw, n, true⟩
  match cmdAdminOp k.raw with
  | 0x01 => [a (64 * 2 ^ min 16 (fieldAt k.raw 49 1)), b (32 * 2 ^ min 16 (fieldAt k.raw 50 1))]
  | 0x10 => [a 32]
  | 0x16 => [outA 64]
  | 0x20 => [a (cmdPtrC k.raw), ⟨cmdPtrB k.raw, 16, true⟩]
  | 0x28 => [a 64]
  | 0x31 => if cmdPtrA k.raw = 0 then [] else [a (cmdPtrC k.raw), b 8]
  | 0x44 => [outA 256]
  | 0x50 => [a 64, b 32]
  | 0x54 => [a 512]
  | 0x58 => [a 64]
  | 0x60 => [a 32]
  | 0x71 => [a (8 * fieldAt k.raw 52 2)]
  | 0x80 => [a 160, b 512]
  | 0x82 => [outA 448]
  | 0x93 => [outA 1048576]
  | 0x94 => [a 1048576]
  | 0x96 => [a (fieldAt k.raw 52 4)]
  | _ => []

/-- Every area that a command's pointers name, each to its last possible byte. -/
def State.areas (s : State) (k : Cmd) : List Area :=
  let a := cmdPtrA k.raw
  let b := cmdPtrB k.raw
  let c := cmdPtrC k.raw
  let coll := s.coll? (fieldAt k.raw 8 4)
  let navDim := (coll.map fun x => x.navDim).getD 0
  let fullDim := (coll.map fun x => x.fullDim).getD 0
  match cmdOpcode k.raw with
  | 0x01 =>
    let d := s.cmdRead k a 64
    [⟨a, 64 + 2 * navDim, false⟩, ⟨c, 64 + 16 * fieldAt d 2 2, true⟩] ++ s.predicateArea k d ++ optArea (fieldAt d 40 8) (2 * fullDim)
  | 0x03 =>
    let (bags, e) := s.bagRecords k
    [⟨a, e - a, false⟩, ⟨c, encCount k * ((s.score? (encHandle k)).map fun v => outBytes v.image).getD 0, true⟩] ++ bags.flatMap bagAreas
  | 0x04 =>
    let d := s.cmdRead k b 64
    let (bags, e) := s.bagRecords k
    [⟨a, e - a, false⟩, ⟨b, 64, false⟩, ⟨c, 64 + 16 * fieldAt d 2 2, true⟩] ++ s.predicateArea k d ++ bags.flatMap bagAreas
  | 0x08 | 0x0A => [⟨a, mutCount k.raw * (coll.map fun x => x.recordBytes).getD 0, false⟩, ⟨b, mutCount k.raw, true⟩]
  | 0x09 => [⟨a, mutCount k.raw * 8, false⟩, ⟨b, mutCount k.raw, true⟩]
  | 0x10 =>
    let h := s.cmdRead k a 16
    let (bags, e) := s.bagRecords k
    [⟨a, e - a, false⟩, ⟨c, 32 + fieldAt h 4 4 * fieldAt h 8 2 * (if bitOf (fieldAt h 1 1) 0 then 4 else 2), true⟩] ++ bags.flatMap bagAreas
  | 0x11 => s.updateAreas k
  | 0x18 | 0x19 => ⟨a, c, false⟩ :: optArea b 16 true
  | 0x1A => optArea b 16 true
  | 0x28 =>
    let h := s.cmdRead k a 32
    if fieldAt k.raw 48 1 = 0 then
      [⟨a, 32 + 8 * fieldAt h 2 2 + 2 * fieldAt h 8 2, false⟩, ⟨b, fieldAt h 4 4, false⟩, ⟨c, 32 + 16 * fieldAt h 12 4, true⟩]
    else [⟨c, 32, true⟩]
  | 0x30 | 0x31 => [⟨b, 32, true⟩]
  | 0x38 => adminAreas k
  | _ => []

/-- An area that starts in the window lies within the grant of domain `d` (12 R397; 16 R523). -/
def State.granted (s : State) (v : View) (d : Nat) (a : Area) : Bool :=
  if a.len = 0 || !v.inWin a.ptr then true
  else
    let lo := if d = 0 then 0 else (s.domain d).winBase
    let n := if d = 0 then v.size else (s.domain d).winLength
    lo ≤ a.ptr - v.base && a.ptr - v.base + a.len ≤ lo + n

/-! ### Admission (R495, R509; 16 R533; 17 R576; 22 R699) -/

/-- Opcodes that are not reserved (R499). -/
def opcodes : List Nat :=
  [0x01, 0x03, 0x04, 0x08, 0x09, 0x0A, 0x0B, 0x10, 0x11, 0x12, 0x18, 0x19, 0x1A, 0x20, 0x21, 0x28, 0x30, 0x31, 0x38]

/-- ADMIN operations that are not reserved (R505, 16 R521, 17 R579, 21 R668, 22 R692). -/
def adminOps : List Nat :=
  [0x01, 0x02, 0x03, 0x10, 0x11, 0x12, 0x13, 0x14, 0x15, 0x16, 0x18, 0x1C, 0x1D, 0x20, 0x21, 0x28, 0x29, 0x30, 0x31, 0x40, 0x41, 0x42,
   0x43, 0x44, 0x50, 0x51, 0x52, 0x53, 0x54, 0x55, 0x58, 0x59, 0x60, 0x70, 0x71, 0x72, 0x73, 0x74, 0x75, 0x76, 0x77, 0x80, 0x81, 0x82,
   0x90, 0x91, 0x92, 0x93, 0x94, 0x95, 0x96]

def Cmd.hasColl (k : Cmd) : Bool := [0x01, 0x04, 0x08, 0x09, 0x0A, 0x0B].contains (cmdOpcode k.raw)
def Cmd.isMut (k : Cmd) : Bool := [0x08, 0x09, 0x0A].contains (cmdOpcode k.raw)
def Cmd.isBase (k : Cmd) : Bool := [0x18, 0x19, 0x1A].contains (cmdOpcode k.raw)

/-- Whether a registered source is bound to a domain (03 R81). -/
def State.sourceBound (s : State) (n d : Nat) : Bool :=
  match s.source? n with
  | none => false
  | some v => !v.leaving && bitOf (leNat v.domains) d

/-- The owners of the objects that a command names, none for one that does not exist (16 R533 check 5). -/
def State.namedOwners (s : State) (k : Cmd) : List (Option Nat) :=
  (if k.hasColl then [(s.openColl? (fieldAt k.raw 8 4)).map fun c => c.owner] else []) ++
  (if [0x11, 0x12].contains (cmdOpcode k.raw) then [(s.openTab? (fieldAt k.raw 8 4)).map fun t => t.owner] else []) ++
  ((s.bagRecords k).1.map fun b => (s.openTab? (fieldAt b 0 4)).map fun t => t.owner) ++
  (if k.isBase then [(s.bft.volumes.find? (baseVol k.raw)).bind fun v => if v.isClosed.isSome then none else some v.owner] else []) ++
  (if cmdOpcode k.raw = 0x28 then [s.tier.raw.find? (fieldAt k.raw 8 4)] else [])

/-- The sources that a command names are bound to its domain; an ENCODE_SEARCH's unregistered source is left to R503. -/
def State.sourcesOk (s : State) (k : Cmd) : Bool :=
  if k.isMut then s.sourceBound (fieldAt k.raw 12 2) k.domain
  else if encInserts k then (s.source? (fieldAt k.raw 14 2)).isNone || s.sourceBound (fieldAt k.raw 14 2) k.domain
  else true

/-- The port that a fabric-carried command arrived on. -/
def Origin.port? : Origin → Option Nat
  | .queue _ => none
  | .scatterSearch p .. => some p
  | .scatterCommand p .. => some p
  | .replicate p .. => some p

/-- The first check of R533 that fails: its reason, and the status. -/
def State.domRefusal (s : State) (k : Cmd) : Option (Nat × Status) :=
  let d := k.domain
  let op := cmdOpcode k.raw
  let owners := s.namedOwners k
  let exempt := d == 0 && (op == 0x38 || op == 0x21)
  let fromPort := match k.origin.port? with
    | some p => !bitOf s.dom.fuses.smPorts p
    | none => false
  if (s.domain d).state != .active then some (1, .denied)
  else if d != 0 && [0x38, 0x30, 0x31].contains op then some (2, .denied)
  else if op == 0x38 && fromPort then some (3, .denied)
  else if (op == 0x28 && !bitOf (s.privs d) 0) || (k.isBase && !bitOf (s.privs d) 2) then some (4, .denied)
  else if !exempt && owners.any (·.isNone) then some (0, .notFound)
  else if !exempt && (owners.any (fun o => o != some d) || !s.sourcesOk k) then some (5, .denied)
  else if [0x03, 0x04].contains op && (s.openScore? d (fieldAt k.raw 12 2)).isNone then some (6, .denied)
  else if k.origin.port?.isNone && (s.areas k).any (fun a => !s.granted k.view d a) then some (7, .denied)
  else none

/-- Latch and count a DENIED of R533. -/
def State.noteDenied (s : State) (d op reason : Nat) : State :=
  (({ s with dom := { s.dom with lastDeny := d % 4096 * 65536 + op % 256 * 256 + reason % 16 } }).bump pgDom 0x054).sticky pgDom 0x044 1

/-- Whether the lease lets a command in (17 R576). -/
def State.leaseOk (s : State) (k : Cmd) : Bool :=
  let op := cmdOpcode k.raw
  s.leaseHeld ||
  !(k.isMut || op == 0x0B || encInserts k || ((op == 0x01 || op == 0x04) && !bitOf (s.privs k.domain) 1))

/-- The commands that a node in recovery admits (22 R686). -/
def Cmd.inRecovery (k : Cmd) : Bool :=
  let a := cmdAdminOp k.raw
  k.domain == 0 && cmdOpcode k.raw == 0x38 && ((1 ≤ a && a ≤ 3) || (0x90 ≤ a && a ≤ 0x9F))

/-- Steps 1 to 4 of R509: what refuses a command, with DOM's reason where DOM does. -/
def State.admission (s : State) (k : Cmd) : Option (Status × Nat) :=
  let op := cmdOpcode k.raw
  if cmdFormat k.raw != 1 then some (.version, 0)
  else if !opcodes.contains op || 8 ≤ cmdClass k.raw then some (.malformed, 0)
  else match s.domRefusal k with
    | some (r, st) => some (st, r)
    | none =>
      if s.cal.maintenance && k.domain != 0 then some (.busy, 0)
      else if s.sec.recovery && !k.inRecovery then some (.busy, 0)
      else if !s.leaseOk k then some (.fenced, 0)
      else none

/-- A reserved operation within an opcode, which has no step of its own: its own chapter's MALFORMED (R505; 06 R216; 10 R345;
22 R697). -/
def Cmd.reservedForm (k : Cmd) : Bool :=
  let b := fieldAt k.raw 48 1
  match cmdOpcode k.raw with
  | 0x38 => !adminOps.contains b
  | 0x28 => 3 ≤ b
  | 0x11 => 5 ≤ b
  | 0x31 => 4 ≤ b
  | _ => false

/-- The versions that a command takes at admission (10 R333). -/
def State.versionsOf (s : State) (k : Cmd) : List (Nat × Nat × Nat) :=
  let named : List (Nat × Nat) := (if cmdOpcode k.raw = 0x11 then [(fieldAt k.raw 8 4, fieldAt k.raw 12 4)] else []) ++
    (s.bagRecords k).1.map fun b => (fieldAt b 0 4, fieldAt b 4 4)
  (named.eraseDups).flatMap fun e => s.takeVersion e.1 e.2

/-- Put a command through R509: refuse it, or leave it admitted for its own step. -/
def State.letIn (s : State) (cid : Nat) (k : Cmd) : State :=
  match s.admission k with
  | some (st, r) =>
    let s := (s.setCmd cid k).bump pgQmg 0x078
    let s := if r = 0 then s else s.noteDenied k.domain (cmdOpcode k.raw) r
    if k.isMut && st != .version && (s.source? (mutSource k.raw)).isSome then s.finishMut cid (mutSource k.raw) st 0 else s.finish cid st
  | none =>
    let k := { k with classes := s.privs k.domain, versions := s.versionsOf k }
    if k.reservedForm then (s.setCmd cid k).finish cid .malformed else s.setCmd cid k

/-! ### Fetching (R493, R494) -/

/-- A rule holds the queue (R493): a CURTAIN with Hold, R99, R111 or R447; or completions under R514 are still owed. -/
def State.held (s : State) (n : Nat) (q : Queue) (op : Nat) : Bool :=
  q.holdBy.isSome || (s.outstanding n).any (fun e => e.2.warm.isSome) ||
  (s.outstanding n).any (fun e => e.2.phase == .waiting && (e.2.isMut || s.enc.encoded.has e.1)) ||
  ((op == 0x01 || op == 0x04) && s.admqFull) ||
  (op == 0x19 && s.bft.stalled)

/-- The next submission entry of a queue. -/
def State.nextEntry (s : State) (q : Queue) : List Byte := s.readBytes s.view (q.sqBase + 64 * q.sqHead) 64

/-- QMG fetches from this queue now (R493). -/
def State.eligible (s : State) (n : Nat) (q : Queue) : Bool :=
  let size := 2 ^ q.cqLog2
  q.state == .enabled && q.draining.isNone && q.sqHead != q.sqTail &&
  (s.outstanding n).length + (q.cqTail + size - q.cqHead) % size < size - 1 && !s.held n q (fieldAt (s.nextEntry q) 0 1)

/-- The queue that weighted round robin serves next, and the fetches its visit has left (R494). -/
def State.nextQueue (s : State) : Option (Nat × Queue × Nat) :=
  let ok (e : Nat × Queue) : Bool := s.eligible e.1 e.2
  match (if s.qmg.rrLeft = 0 then none else List.find? (fun e => e.1 == s.qmg.rrAt && ok e) s.qmg.queues) with
  | some e => some (e.1, e.2, s.qmg.rrLeft)
  | none =>
    match List.find? ok ((s.qmg.queues.filter fun e => decide (s.qmg.rrAt < e.1)) ++ s.qmg.queues.filter fun e => decide (e.1 ≤ s.qmg.rrAt)) with
    | some e => some (e.1, e.2, max 1 e.2.weight)
    | none => none

/-- QMG may fetch at all (R493; 14 R470, R480; 23 R712, R713). -/
def State.mayFetch (s : State) : Bool :=
  bitOf (s.reg pgQmg 0x040) 0 && linkUp s && !s.ideShut && s.accepts pgQmg

/-- COMMAND_FETCH (R493 to R496, R509). -/
def commandFetch (s : State) : State :=
  match s.nextQueue with
  | none => s
  | some (n, q, left) =>
    let raw := s.nextEntry q
    let cid := s.qmg.nextCid
    let k : Cmd := { origin := .queue n, domain := q.domain, raw := raw, winBase := s.view.base, winSize := s.view.size }
    let q := { q with sqHead := (q.sqHead + 1) % 2 ^ q.sqLog2,
                      holdBy := if cmdOpcode raw = 0x20 && bitOf (cmdFlags raw) 0 then some cid else q.holdBy }
    let s := (s.setQueue n q).bump64 pgQmg 0x070
    ({ s with qmg := { s.qmg with nextCid := cid + 1, rrAt := n, rrLeft := left - 1 } }).letIn cid k

def execCommandFetch (t : Nat) (s : State) : Host.Outcome State Fault Refusal :=
  done ((s.at t).onlyIf (s.live && (s.at t).mayFetch) commandFetch)

/-! ### Creating, deleting and resetting queues (R485 to R488) -/

/-- QUEUE_CREATE (R485, R486; 16 R520). -/
def queueCreate (cid : Nat) (k : Cmd) (s : State) : State :=
  let n := fieldAt k.raw 8 2
  let q : Queue :=
    { state := .enabled, domain := fieldAt k.raw 10 2, fn := fieldAt k.raw 12 1, page := fieldAt k.raw 13 1, sqBase := cmdPtrA k.raw,
      cqBase := cmdPtrB k.raw, sqLog2 := fieldAt k.raw 49 1, cqLog2 := fieldAt k.raw 50 1, weight := fieldAt k.raw 51 1,
      vector := fieldAt k.raw 52 2 }
  let sizesOk := 4 ≤ q.sqLog2 && q.sqLog2 ≤ 16 && 4 ≤ q.cqLog2 && q.cqLog2 ≤ 16
  let out (p n : Nat) : Bool := !s.granted k.view q.domain ⟨p, if sizesOk then n else 1, false⟩
  if n = 0 || 4096 ≤ n || s.dom.fuses.maxDomains ≤ q.domain then s.finish cid .malformed
  else if s.qmg.queues.has n || (q.fn != 0 && s.qmg.queues.any fun e => e.2.fn == q.fn && e.2.page == q.page) then s.finish cid .busy
  else if (s.domain q.domain).state != .active then s.finish cid .notFound
  else if out q.sqBase (64 * 2 ^ q.sqLog2) || out q.cqBase (32 * 2 ^ q.cqLog2) then s.finish cid .denied
  else if !q.ringsOk || q.weight = 0 || 16 < q.weight || s.cxl.vfs < q.fn || (if q.fn = 0 then q.page != 0 else 64 ≤ q.page) ||
      (if q.fn = 0 then 2048 else 64) ≤ q.vector then s.finish cid .malformed
  else (s.setQueue n q).finish cid .ok

def execQueueCreate (t cid : Nat) (s : State) : Host.Outcome State Fault Refusal :=
  done ((s.at t).withCmd cid (·.isAdmin 0x01) (queueCreate cid))

/-- QUEUE_DELETE and QUEUE_RESET: fetching stops at once, and the command waits for QUEUE_DRAINED (R488). -/
def drainQueue (reset : Bool) (cid : Nat) (k : Cmd) (s : State) : State :=
  let n := fieldAt k.raw 8 2
  if n = 0 || 4096 ≤ n || k.origin == .queue n then s.finish cid .malformed
  else match s.queue? n with
    | none => s.finish cid .notFound
    | some q =>
      if q.draining.isSome then s.finish cid .busy
      else (s.setQueue n { q with draining := some cid, resetting := reset }).setCmd cid { k with phase := .waiting }

def execQueueDelete (t cid : Nat) (s : State) : Host.Outcome State Fault Refusal :=
  done ((s.at t).withCmd cid (·.isAdmin 0x02) (drainQueue false cid))

def execQueueReset (t cid : Nat) (s : State) : Host.Outcome State Fault Refusal :=
  done ((s.at t).withCmd cid (·.isAdmin 0x03) (drainQueue true cid))

/-- Indices 0, phase 1, Enabled (R488). -/
def Queue.restarted (q : Queue) : Queue :=
  { q with state := .enabled, sqHead := 0, sqTail := 0, cqHead := 0, cqTail := 0, phase := true, holdBy := none, draining := none,
           resetting := false, flrDrop := false }

/-- QUEUE_DRAINED (R488): every command of the queue has posted, and the operation takes effect and completes. -/
def queueDrained (n : Nat) (s : State) : State :=
  match s.queue? n with
  | none => s
  | some q => match q.draining with
    | none => s
    | some cid =>
      if !(s.outstanding n).isEmpty then s
      else if q.resetting then (s.setQueue n q.restarted).finish cid .ok
      else ({ s with qmg := { s.qmg with queues := s.qmg.queues.erase n } }).finish cid .ok

def execQueueDrained (t queue : Nat) (s : State) : Host.Outcome State Fault Refusal :=
  done ((s.at t).onlyIf s.live (queueDrained queue))

/-! ### CURTAIN (R511) -/

/-- CURTAIN: completes once every command fetched earlier from its queue has posted, those that cue entries hold apart. A
completion that has posted has all its writes in memory in this model (06 R224). -/
def curtain (cid : Nat) (k : Cmd) (s : State) : State :=
  if s.qmg.cmds.any fun e => decide (e.1 < cid) && e.2.origin == k.origin && (s.cueHolding e.1).isNone then
    s.setCmd cid { k with phase := .waiting }
  else s.finish cid .ok

def execCurtain (t cid : Nat) (s : State) : Host.Outcome State Fault Refusal :=
  done ((s.at t).withCmd cid (fun k => cmdOpcode k.raw == 0x20) (curtain cid))

/-! ### ABORT (R512, R513; 02 R54; 04 R147; 06 R226; 08 R295; 10 R355; 11 R380; 13 R454) -/

/-- Abort a search in its own stage (04 R147; 11 R380). -/
def State.abortSearch (s : State) (n : Nat) (q : Search) : State :=
  match q.stage with
  | .queued => s.failSearch n .aborted
  | _ =>
    let lost := q.stage == .evidence || q.stage == .ringWait
    let s := s.when lost fun s => (s.bump pgQmg 0x414).sticky pgQmg 0x404 4
    (s.setSearch n { q with aborting := true }).drainAborted n

/-- Abort an encode command (08 R295; 03 R99). -/
def State.abortEncode (s : State) (n : Nat) (k : Cmd) : State × Bool :=
  match s.search? n with
  | some q => (s.abortSearch n q, true)
  | none =>
    let stop (s : State) : State := if cmdOpcode k.raw = 0x04 then s.refuseSearch n .aborted none else s.finish n .aborted
    if k.phase != .started then
      (stop (s.withEnc fun x => { x with encoded := x.encoded.erase n, vectors := x.vectors.erase n, cmds := x.cmds.erase n }), true)
    else match s.abortEnc n with
      | (s, true) => (stop s, true)
      | (s, false) => (s, false)

/-- Abort a NEARBANK_RUN (06 R226). -/
def State.abortRun (s : State) (n : Nat) (k : Cmd) : State × Bool :=
  if fieldAt k.raw 48 1 != 0 then (s, false)
  else if k.phase = .admitted then (s.finish n .aborted, true)
  else match List.find? (fun e => e.2.cid == n) s.pnm.runs with
    | none => (s, false)
    | some (r, x) => match x.phase with
      | .waiting => ((s.dropRun r).finish n .aborted, true)
      | .running => (s.withPnm fun b => { b with runs := b.runs.set r { x with aborting := true } }, true)
      | .ended => (s, false)

/-- Abort command `n` where it still can be: the new state, and whether the ABORT wins. -/
def State.abortCmd (s : State) (n : Nat) (k : Cmd) : State × Bool :=
  let fresh := k.phase == .admitted
  let stop (s : State) : State × Bool := (s.finish n .aborted, true)
  if (s.cueHolding n).isSome then (s.unschedule n .aborted, true)
  else match cmdOpcode k.raw with
    | 0x01 => match s.search? n with
      | none => (s.refuseSearch n .aborted none, true)
      | some q => (s.abortSearch n q, true)
    | 0x03 | 0x04 => s.abortEncode n k
    | 0x08 | 0x09 | 0x0A => if k.progress = 0 then (s.finishMut n (mutSource k.raw) .aborted 0, true) else (s, false)
    | 0x0B => if fresh then stop s else stop (s.abandonEntrance (fieldAt k.raw 8 4))
    | 0x10 => stop { s with cst := { s.cst with uniques := s.cst.uniques.erase n } }
    | 0x12 =>
      if fresh then stop s
      else stop { s with gth := { s.gth with tables := s.gth.tables.modify (fieldAt k.raw 8 4) fun t => { t with switchers := t.switchers.erase n } } }
    | 0x18 => if fresh then stop s else (s.setCmd n { k with aborting := true }, true)
    | 0x19 => if k.phase = .started then (s, false) else stop (s.withBft fun f => { f with waits := f.waits.erase n })
    | 0x28 => s.abortRun n k
    | 0x20 => stop s
    | 0x30 | 0x31 => if k.phase = .started then (s, false) else stop s
    | 0x38 => (s, false)
    | _ => if fresh then stop s else (s, false)

/-- The oldest outstanding command of a queue with a tag, ABORTs apart (R512). -/
def State.abortTarget (s : State) (q tag : Nat) : Option (Nat × Cmd) :=
  List.find? (fun e => cmdTag e.2.raw == tag && cmdOpcode e.2.raw != 0x21) (s.outstanding q)

/-- An ABORT waits for its target's completion (R513): `progress` is 1 + the target, `done` 1 where the ABORT has won. -/
def State.abortWait (s : State) (cid : Nat) (k : Cmd) : State :=
  if s.qmg.cmds.has (k.progress - 1) then s.setCmd cid k
  else s.finish cid (if k.done = 1 then .ok else .alreadyDone)

/-- ABORT: its first take, or a later look at whether its target has posted. -/
def abort (cid : Nat) (k : Cmd) (s : State) : State :=
  if k.phase = .waiting then s.abortWait cid k
  else
    let n := fieldAt k.raw 8 2
    if k.domain != 0 && ((s.queue? n).map fun q => q.domain != k.domain).getD false then s.finish cid .denied
    else match s.abortTarget n (fieldAt k.raw 48 4) with
      | none => s.finish cid .notFound
      | some (m, x) =>
        let (s, won) := s.abortCmd m x
        s.abortWait cid { k with phase := .waiting, progress := m + 1, done := boolNat won }

def execAbort (t cid : Nat) (s : State) : Host.Outcome State Fault Refusal :=
  done ((s.at t).withCmd cid (fun k => cmdOpcode k.raw == 0x21) (abort cid))

end Sys2Proof.Machine
end

