-- ==== Sys2Proof/Machine/Domains.lean ====
section
/-!
DEFINITION. Domains: their states, descriptors, records and privileges (16 R520 to R532; 02 R52).
-/

namespace Sys2Proof.Machine

def DomState.code : DomState → Nat
  | .absent => 0 | .inactive => 1 | .active => 2 | .retiring => 3

/-- The domain that an ADMIN of this chapter names. -/
def domOf (k : Cmd) : Nat := fieldAt k.raw 8 2

/-- Complete with MALFORMED a domain at or above MaxDomains (R520). -/
def State.inDomains (s : State) (cid : Nat) (k : Cmd) (f : State → State) : State :=
  if s.dom.fuses.maxDomains ≤ domOf k then s.finish cid .malformed else f s

/-- The refusals of a descriptor (R523; 00 R15). -/
def State.defineRefusal (s : State) (d : Nat) (desc : List Byte) : Option Status :=
  let base := fieldAt desc 16 8
  let len := fieldAt desc 24 8
  let others (f : Domain → Nat) : Nat := ((s.dom.doms.filter fun e => e.1 != d).map fun e => f e.2).sum
  let shares := ((s.dom.doms.filter fun e => e.1 != d && e.1 != 0).map fun e => e.2.walkerShare).sum
  if fieldAt desc 0 1 / 16 != 1 then some .version
  else if 4096 < fieldAt desc 4 2 || 608 < fieldAt desc 8 2 then some .malformed
  else if d != 0 && (fieldAt desc 2 2 != d || 4096 < fieldAt desc 6 2 || base % 2 ^ 21 != 0 || len % 2 ^ 21 != 0 || s.winBytes < base + len) then
    some .malformed
  else if d != 0 && 4096 < shares + fieldAt desc 6 2 then some .quota
  else if s.topAllocatable < others (fun v => v.topReserve) + fieldAt desc 8 2 then some .quota
  else none

/-- A domain with a descriptor's fields; domain 0 takes two of them (R523). -/
def Domain.defined (v : Domain) (d : Nat) (desc : List Byte) : Domain :=
  let v := { v with cueQuota := fieldAt desc 4 2, topReserve := fieldAt desc 8 2 }
  if d = 0 then v
  else { v with walkerShare := fieldAt desc 6 2, winBase := fieldAt desc 16 8, winLength := fieldAt desc 24 8,
                state := if v.state = .absent then .inactive else v.state }

/-- DOMAIN_DEFINE (R521, R523). -/
def domainDefine (cid : Nat) (k : Cmd) (s : State) : State :=
  let d := domOf k
  let desc := s.cmdRead k (cmdPtrA k.raw) 32
  s.inDomains cid k fun s =>
    if (s.domain d).state = .retiring then s.finish cid .busy
    else match s.defineRefusal d desc with
      | some st => s.finish cid st
      | none => (s.setDomain d ((s.domain d).defined d desc)).finish cid .ok

def execDomainDefine (t cid : Nat) (s : State) : Host.Outcome State Fault Refusal :=
  done ((s.at t).withCmd cid (·.isAdmin 0x10) (domainDefine cid))

/-- Activate a domain: DOMAIN_ACTIVATE and cue action 0x07 (R521). -/
def State.activate (s : State) (d : Nat) : State × Status :=
  if s.dom.fuses.maxDomains ≤ d then (s, .malformed)
  else match (s.domain d).state with
    | .absent => (s, .notFound)
    | .retiring => (s, .busy)
    | .active => (s, .ok)
    | .inactive => (s.setDomain d { s.domain d with state := .active }, .ok)

def execDomainActivate (t cid : Nat) (s : State) : Host.Outcome State Fault Refusal :=
  done ((s.at t).withCmd cid (·.isAdmin 0x11) fun k s =>
    let (s, st) := s.activate (domOf k)
    s.finish cid st)

/-- Free the cue entries that hold commands of a domain; each completes DENIED (R522). -/
def State.dropScheduled (s : State) (d : Nat) : State :=
  ((s.cue.entries.filterMap fun e => e.2.holds.filter fun cid => ((s.cmd? cid).map (·.domain)) == some d)).foldl (fun s cid => s.unschedule cid .denied) s

/-- Retire a domain: DOMAIN_RETIRE and cue action 0x08 (R521, R522); none while the retirement runs, which `waiter` joins. -/
def State.retire (s : State) (d : Nat) (waiter : Option Nat) : State × Option Status :=
  let join (s : State) : State := s.setDomain d { s.domain d with state := .retiring, retirers := (s.domain d).retirers ++ waiter.toList }
  if s.dom.fuses.maxDomains ≤ d then (s, some .malformed)
  else if d = 0 then (s, some .denied)
  else match (s.domain d).state with
    | .absent => (s, some .notFound)
    | .inactive => (s, some .ok)
    | .retiring => (join s, none)
    | .active => ((join s).dropScheduled d, none)

/-- DOMAIN_RETIRE. -/
def domainRetire (cid : Nat) (k : Cmd) (s : State) : State :=
  match s.retire (domOf k) (some cid) with
  | (s, some st) => s.finish cid st
  | (s, none) => s.setCmd cid { k with phase := .waiting }

def execDomainRetire (t cid : Nat) (s : State) : Host.Outcome State Fault Refusal :=
  done ((s.at t).withCmd cid (·.isAdmin 0x12) (domainRetire cid))

/-- DOMAIN_RETIRE_COMPLETE (R522): the last command of a Retiring domain has posted. -/
def domainRetireComplete (d : Nat) (s : State) : State :=
  let v := s.domain d
  if v.state != .retiring || s.qmg.cmds.any (fun e => e.2.domain == d) then s
  else v.retirers.foldl (fun s cid => s.finish cid .ok) (s.setDomain d { v with state := .inactive, retirers := [] })

def execDomainRetireComplete (t domain : Nat) (s : State) : Host.Outcome State Fault Refusal :=
  done ((s.at t).onlyIf s.live (domainRetireComplete domain))

/-- How many watch rules a domain holds (05 R180). -/
def State.rulesOf (s : State) (d : Nat) : Nat := (s.dom.rules.filter fun e => e.1 / 65536 == d).length

/-- The counts of R524: queues, collections, tables, volumes, Scores, cue entries, raw extents, rules. -/
def State.owned (s : State) (d : Nat) : List Nat :=
  [s.qmg.queues.countP fun q => q.domain == d, s.wlk.colls.countP fun c => c.owner == d, s.gth.tables.countP fun t => t.owner == d,
   s.bft.volumes.countP fun v => v.owner == d, s.enc.scores.countP fun v => v.owner == d, s.cuesOf d,
   s.tier.raw.countP fun x => x == d, s.rulesOf d]

/-- Remove a domain from every source's binding (R529). -/
def State.unbindSources (s : State) (d : Nat) : State :=
  { s with wlk := { s.wlk with sources := s.wlk.sources.mapVal fun v =>
    { v with domains := overlay v.domains (d / 8) [v.domains.getD (d / 8) 0 &&& ~~~ (1#8 <<< (d % 8))] } } }

/-- DOMAIN_DELETE (R521, R529). -/
def domainDelete (cid : Nat) (k : Cmd) (s : State) : State :=
  let d := domOf k
  let v := s.domain d
  s.inDomains cid k fun s =>
    if d = 0 then s.finish cid .denied
    else if v.state = .absent then s.finish cid .notFound
    else if v.state != .inactive || (s.owned d).any (fun n => n != 0) || v.usedTop + v.usedHeart + v.usedBase != 0 then s.finish cid .busy
    else ({ s with dom := { s.dom with doms := s.dom.doms.erase d } }.unbindSources d).finish cid .ok

def execDomainDelete (t cid : Nat) (s : State) : Host.Outcome State Fault Refusal :=
  done ((s.at t).withCmd cid (·.isAdmin 0x13) (domainDelete cid))

/-- The record of R524. -/
def State.domainRecord (s : State) (d : Nat) : List Byte :=
  let v := s.domain d
  let desc := if v.state = .absent then zeroBytes 32
    else natLE 1 0x10 ++ zeroBytes 1 ++ natLE 2 d ++ natLE 2 v.cueQuota ++ natLE 2 v.walkerShare ++ natLE 2 v.topReserve ++ zeroBytes 6 ++
      natLE 8 (if d = 0 then 0 else v.winBase) ++ natLE 8 (if d = 0 then s.winBytes else v.winLength)
  let sizes := [2, 4, 4, 2, 2, 2, 2, 2]
  desc ++ natLE 1 v.state.code ++ natLE 1 (s.privs d) ++ ((sizes.zip (s.owned d)).flatMap fun e => natLE e.1 e.2) ++
    natLE 2 (s.ctxBusyOf d) ++ zeroBytes 8

/-- DOMAIN_READ (R524). -/
def domainRead (cid : Nat) (k : Cmd) (s : State) : State :=
  s.inDomains cid k fun s => (s.cmdWrite cid (cmdPtrA k.raw) 0 (s.domainRecord (domOf k))).finish cid .ok

def execDomainRead (t cid : Nat) (s : State) : Host.Outcome State Fault Refusal :=
  done ((s.at t).withCmd cid (·.isAdmin 0x16) (domainRead cid))

/-- PRIV_GRANT (R531). -/
def privGrant (cid : Nat) (k : Cmd) (s : State) : State :=
  let d := domOf k
  let mask := fieldAt k.raw 49 1
  let v := s.domain d
  s.inDomains cid k fun s =>
    if v.state = .absent then s.finish cid .notFound
    else if mask &&& (255 - s.dom.fuses.grantable) != 0 then s.finish cid .denied
    else (s.setDomain d { v with privs := v.privs ||| mask }).finish cid .ok

def execPrivGrant (t cid : Nat) (s : State) : Host.Outcome State Fault Refusal :=
  done ((s.at t).withCmd cid (·.isAdmin 0x14) (privGrant cid))

/-- PRIV_REVOKE (R531, R532). -/
def privRevoke (cid : Nat) (k : Cmd) (s : State) : State :=
  let d := domOf k
  let v := s.domain d
  s.inDomains cid k fun s =>
    if v.state = .absent then s.finish cid .notFound
    else if d = 0 then s.finish cid .ok
    else (s.setDomain d { v with privs := v.privs &&& (31 - fieldAt k.raw 49 1 % 32) }).finish cid .ok

def execPrivRevoke (t cid : Nat) (s : State) : Host.Outcome State Fault Refusal :=
  done ((s.at t).withCmd cid (·.isAdmin 0x15) (privRevoke cid))

end Sys2Proof.Machine
end

