-- ==== Sys2Proof/Machine/Security.lean ====
section
/-!
DEFINITION. Images and their verification, Score-signing keys, measurements, SPDM and its sessions, and the LMS state (21 R659
to R677; 22 R692). What an SPDM message says beyond the manual's matter is SPDM's own.
-/

namespace Sys2Proof.Machine

def State.withSec (s : State) (f : SecBlock → SecBlock) : State := { s with sec := f s.sec }

/-! ### Images (R659 to R662) -/

def imageKind (im : List Byte) : Nat := fieldAt im 5 1

/-- The first check of R662 that an image fails at the place of `kind`; 0 when it passes. -/
def State.imageReason (s : State) (im : List Byte) (kind : Nat) : Nat :=
  let slot := s.dom.fuses.slots.getD (fieldAt im 6 1) (zeroBytes 48)
  let o := fieldAt im 24 8
  if fieldAt im 0 4 != 0x49475A46 || fieldAt im 4 1 / 16 != 1 || imageKind im = 0 || 4 < imageKind im || imageKind im != kind ||
      !bitOf (fieldAt im 7 1) 0 then 1
  else if slot.all (fun b => b == 0) then 2
  else if sha384 (bytesAt im 64 160) != slot then 3
  else if fieldAt im 8 4 < s.dom.fuses.svnFloor.getD (kind - 1) 0 then 4
  else if !Config.sigOk 0 (bytesAt im 64 97) (im.take o) (bytesAt im (o + 8) 96) then 5
  else if !Config.sigOk 1 (bytesAt im 164 52) (im.take o) (bytesAt im (o + 112) (fieldAt im (o + 104) 4)) then 6
  else 0

/-- IMAGE_WRITE (22 R687, R692): verify an image, write it to its Kind's region, clear FailedStarts. -/
def imageWrite (cid : Nat) (k : Cmd) (s : State) : State :=
  let im := s.cmdRead k (cmdPtrA k.raw) (fieldAt k.raw 52 4)
  let kind := imageKind im
  if s.imageReason im kind != 0 || s.sec.regions.getD kind 0 < im.length then s.finish cid .malformed
  else if kind = 4 && s.sec.recovery then s.finish cid .denied
  else
    let s := s.withSec fun b => { b with images := b.images.set kind im }
    { s with cal := { s.cal with failedStarts := 0 } }.finish cid .ok

def execImageWrite (t cid : Nat) (s : State) : Host.Outcome State Fault Refusal :=
  done ((s.at t).withCmd cid (·.isAdmin 0x96) (imageWrite cid))

/-! ### Score-signing keys (R660, R668, R669) -/

def keyId (k : Cmd) : Nat := fieldAt k.raw 52 4

/-- A big-endian 32-bit field. -/
def be32 (bs : List Byte) (off : Nat) : Nat := leNat (bytesAt bs off 4).reverse

/-- A key block's point and types (R659, R660, R668). -/
def keyBlockOk (b : List Byte) : Bool :=
  onP384 (bytesAt b 0 97) && be32 b 100 == 2 && be32 b 104 == 0xD && 5 ≤ be32 b 108 && be32 b 108 ≤ 8

/-- SCORE_KEY_ADD. -/
def scoreKeyAdd (cid : Nat) (k : Cmd) (s : State) : State :=
  let block := s.cmdRead k (cmdPtrA k.raw) 160
  let map := s.cmdRead k (cmdPtrB k.raw) 512
  if s.sec.keys.has (keyId k) then s.finish cid .busy
  else if 256 ≤ s.sec.keys.length then s.finish cid .quota
  else if keyId k = 0xFFFFFFFF || !keyBlockOk block || 2 ^ s.dom.fuses.maxDomains ≤ leNat map then s.finish cid .malformed
  else (s.withSec fun b => { b with keys := b.keys.set (keyId k) { block := block, domains := map } }).finish cid .ok

def execScoreKeyAdd (t cid : Nat) (s : State) : Host.Outcome State Fault Refusal :=
  done ((s.at t).withCmd cid (·.isAdmin 0x80) (scoreKeyAdd cid))

/-- SCORE_KEY_REMOVE. -/
def scoreKeyRemove (cid : Nat) (k : Cmd) (s : State) : State :=
  if !s.sec.keys.has (keyId k) then s.finish cid .notFound
  else (s.withSec fun b => { b with keys := b.keys.erase (keyId k) }).finish cid .ok

def execScoreKeyRemove (t cid : Nat) (s : State) : Host.Outcome State Fault Refusal :=
  done ((s.at t).withCmd cid (·.isAdmin 0x81) (scoreKeyRemove cid))

/-! ### Measurements (R671) -/

/-- DOM_FUSE_CFG (16 R541). -/
def Fuses.cfg (f : Fuses) : Nat := (f.maxDomains - 1) % 4096 * 2 ^ 20 + f.grantable % 32 * 2 ^ 15 + f.smPorts % 16 * 2 ^ 11

/-- Root slots fused, one bit a slot (R661, R675). -/
def Fuses.slotMask (f : Fuses) : Nat :=
  (f.slots.zipIdx.map fun e => if e.1.all (fun b => b == 0) then 0 else 2 ^ e.2).sum

/-- The seven blocks: DMTF type, Svn and digest. -/
def State.measurements (s : State) : List (Nat × Nat × List Byte) :=
  let f := s.dom.fuses
  let m (i : Nat) : List Byte := s.sec.measures.getD i (zeroBytes 48)
  let v (i : Nat) : Nat := s.sec.svnRun.getD i 0
  let fw := if s.sec.recovery then 3 else 0
  let keys := s.sec.keys.flatMap fun e => natLE 4 e.1 ++ e.2.block ++ e.2.domains
  let scores := s.enc.scores.flatMap fun e =>
    natLE 2 e.1 ++ bytesAt e.2.image 8 8 ++ bytesAt e.2.image 16 4 ++ sha384 (e.2.image.take (fieldAt e.2.image 112 8))
  [(0, 0, Config.romDigest), (1, v fw, m fw), (1, v 1, m 1), (1, v 2, m 2),
   (2, 0, sha384 (Config.hwRecord f.svnFloor f.slotMask [f.debugLocked, f.ftmLocked, s.dom.ftm] f.cfg)),
   (3, 0, sha384 keys), (4, 0, sha384 scores)]

/-- The blocks as 64-byte entries. -/
def State.measureEntries (s : State) : List (List Byte) :=
  s.measurements.zipIdx.map fun e =>
    natLE 1 (e.2 + 1) ++ natLE 1 e.1.1 ++ zeroBytes 2 ++ natLE 4 e.1.2.1 ++ zeroBytes 8 ++ (e.1.2.2 ++ zeroBytes 48).take 48

def execMeasureRead (t cid : Nat) (s : State) : Host.Outcome State Fault Refusal :=
  done ((s.at t).withCmd cid (·.isAdmin 0x82) fun k s =>
    (s.cmdWrite cid (cmdPtrA k.raw) 0 s.measureEntries.flatten).finish cid .ok)

/-! ### SPDM (R670 to R673; 14 R477) -/

def State.conn' (s : State) (p : SpdmPath) : SpdmConn := match p with
  | .doe => s.sec.doe
  | .mctp => s.sec.mctp

def State.setConn' (s : State) (p : SpdmPath) (c : SpdmConn) : State := match p with
  | .doe => s.withSec fun b => { b with doe := c }
  | .mctp => s.withSec fun b => { b with mctp := c }

/-- Whether a request reaches SEC: its path answers, and its mailbox is not busy (R676; 14 R477). -/
def State.spdmOpen (s : State) (r : SpdmRequest) : Bool := match r.path with
  | .doe => bitOf (s.reg pgSec 0x040) 1 && linkUp s && !(s.cxl.doeBusy.getD 1 false)
  | .mctp => bitOf (s.reg pgSec 0x040) 2

/-- Its session, where it names one, is open on its path; a handshake that is not finished admits only FINISH. -/
def State.sessionOk (s : State) (r : SpdmRequest) (finished : Bool) : Bool := match r.session with
  | none => true
  | some n => match s.sec.sessions.find? n with
    | none => false
    | some x => x.path == r.path && x.finished == finished

/-- Answer a request. Over the management port the answer asserts MGMT_ALERT_L in SMBus mode, and never in I3C mode (24 R732). -/
def State.answer (s : State) (r : SpdmRequest) (a : SpdmReply) : State :=
  let s := s.emit (.spdm r.path r.session a)
  if r.path = .mctp then { s with pwr := { s.pwr with alert := s.pwr.smbus } } else s

/-- Answer a request that SEC takes: by `f` where `ok` holds, else with an error. -/
def State.spdm (s : State) (r : SpdmRequest) (ok : Bool) (f : State → State) : State :=
  s.onlyIf (s.live && s.spdmOpen r) fun s => if ok then f s else s.answer r .error

/-- The connection has come as far as NEGOTIATE_ALGORITHMS. -/
def State.negotiated (s : State) (r : SpdmRequest) : Bool := (s.conn' r.path).algs && s.sessionOk r true

def execGetVersion (t : Nat) (r : SpdmRequest) (s : State) : Host.Outcome State Fault Refusal :=
  done ((s.at t).spdm r r.session.isNone fun s => (s.setConn' r.path { version := true }).answer r .version)

def execGetCapabilities (t : Nat) (r : SpdmRequest) (s : State) : Host.Outcome State Fault Refusal :=
  done ((s.at t).spdm r (r.session.isNone && (s.conn' r.path).version) fun s =>
    (s.setConn' r.path { s.conn' r.path with caps := true }).answer r .capabilities)

def execNegotiateAlgorithms (t : Nat) (r : SpdmRequest) (s : State) : Host.Outcome State Fault Refusal :=
  done ((s.at t).spdm r (r.session.isNone && (s.conn' r.path).caps) fun s =>
    (s.setConn' r.path { s.conn' r.path with algs := true }).answer r .algorithms)

def execGetDigests (t : Nat) (r : SpdmRequest) (s : State) : Host.Outcome State Fault Refusal :=
  done ((s.at t).spdm r (s.negotiated r) fun s => s.answer r .digests)

/-- The certificate slot in a request's first parameter; slot 0 alone exists (R670). -/
def slot0 (r : SpdmRequest) : Bool := fieldAt r.bytes 2 1 % 16 == 0

def execGetCertificate (t : Nat) (r : SpdmRequest) (s : State) : Host.Outcome State Fault Refusal :=
  done ((s.at t).spdm r (s.negotiated r && slot0 r) fun s => s.answer r .certificate)

/-- Where the last signed input of a transport and session is kept (R672). -/
def signKey (r : SpdmRequest) : Nat :=
  (match r.path with | .doe => 0 | .mctp => 1) * 2 ^ 32 + (r.session.map fun n => n + 1).getD 0

/-- Sign a fresh input with the Alias key. -/
def State.signFresh (s : State) (r : SpdmRequest) : State × Nat :=
  (s.withSec fun b => { b with lastSigned := b.lastSigned.set (signKey r) s.freeCtr }, s.freeCtr)

def execChallenge (t : Nat) (r : SpdmRequest) (s : State) : Host.Outcome State Fault Refusal :=
  done ((s.at t).spdm r (s.negotiated r && slot0 r) fun s =>
    let (s, n) := s.signFresh r
    s.answer r (.challengeAuth n))

/-- GET_MEASUREMENTS: a signature is asked for by bit 0 of the first parameter. -/
def execGetMeasurements (t : Nat) (r : SpdmRequest) (s : State) : Host.Outcome State Fault Refusal :=
  done ((s.at t).spdm r (s.negotiated r) fun s =>
    if bitOf (fieldAt r.bytes 2 1) 0 then
      let (s, n) := s.signFresh r
      s.answer r (.measurements s.measureEntries (some n))
    else s.answer r (.measurements s.measureEntries none))

/-- KEY_EXCHANGE: up to four sessions at once over both paths. -/
def execKeyExchange (t : Nat) (r : SpdmRequest) (s : State) : Host.Outcome State Fault Refusal :=
  done ((s.at t).spdm r (s.negotiated r && r.session.isNone && decide (s.sec.sessions.length < 4)) fun s =>
    let n := s.sec.nextSession
    (s.withSec fun b => { b with sessions := b.sessions.set n { path := r.path }, nextSession := n + 1 }).answer r (.keyExchange n))

def execFinish (t : Nat) (r : SpdmRequest) (s : State) : Host.Outcome State Fault Refusal :=
  done ((s.at t).spdm r (r.session.isSome && s.sessionOk r false) fun s =>
    (s.withSec fun b => { b with sessions := b.sessions.modify (r.session.getD 0) fun x => { x with finished := true } }).answer r .finished)

def execHeartbeat (t : Nat) (r : SpdmRequest) (s : State) : Host.Outcome State Fault Refusal :=
  done ((s.at t).spdm r (r.session.isSome && s.sessionOk r true) fun s => s.answer r .heartbeatAck)

def execKeyUpdate (t : Nat) (r : SpdmRequest) (s : State) : Host.Outcome State Fault Refusal :=
  done ((s.at t).spdm r (r.session.isSome && s.sessionOk r true) fun s => s.answer r .keyUpdateAck)

/-- End sessions: what was signed in them can no longer be countersigned. -/
def State.endSessions (s : State) (p : Nat → SpdmSess → Bool) : State :=
  let gone := (s.sec.sessions.filter fun e => p e.1 e.2).map fun e => e.1
  s.withSec fun b => { b with sessions := b.sessions.filter fun e => !gone.contains e.1,
                              lastSigned := b.lastSigned.filter fun e => e.1 % 2 ^ 32 = 0 || !gone.contains (e.1 % 2 ^ 32 - 1) }

def execEndSession (t : Nat) (r : SpdmRequest) (s : State) : Host.Outcome State Fault Refusal :=
  done ((s.at t).spdm r (r.session.isSome && s.sessionOk r true) fun s =>
    (s.answer r .endSessionAck).endSessions fun n _ => some n == r.session)

/-- CHUNK_SEND and CHUNK_GET: chunks of up to 4,096 bytes; the last one ends the transfer, and the request it completes takes
place in that request's own step. -/
def execChunkTransfer (t : Nat) (r : SpdmRequest) (s : State) : Host.Outcome State Fault Refusal :=
  done ((s.at t).spdm r (s.negotiated r && decide (fieldAt r.bytes 8 4 ≤ 4096)) fun s =>
    let c := s.conn' r.path
    let more := bytesAt r.bytes 12 (fieldAt r.bytes 8 4)
    (s.setConn' r.path { c with large := if bitOf (fieldAt r.bytes 2 1) 0 then [] else c.large ++ more }).answer r .chunkAck)

/-! ### LMS countersignatures (R666, R667, R672) -/

/-- The payload of a countersignature response. -/
def vendorPayload (status q : Nat) (sig : List Byte) : List Byte := natLE 1 status ++ zeroBytes 7 ++ natLE 8 q ++ sig

/-- N has reached 2^40. -/
def SecBlock.lmsExhausted (b : SecBlock) : Bool := 2 ^ 40 ≤ b.lmsNext

/-- Take the next leaf for a request, whose transport and session have signed before; N is below E. -/
def State.takeLeaf (s : State) (r : SpdmRequest) : State :=
  match s.sec.lastSigned.find? (signKey r) with
  | none => s.answer r (.vendor (vendorPayload 2 0 []))
  | some input =>
    let q := s.sec.lmsNext
    ((s.withSec fun b => { b with lmsNext := q + 1 }).bump pgSec 0x06C).answer r (.vendor (vendorPayload 0 q (Config.hssSignature q input)))

/-- SEC releases HSS signatures at all (R667). -/
def State.lmsAvailable (s : State) : Bool := s.sec.lmsReady && !s.sec.lmsExhausted && bitOf (s.reg pgSec 0x040) 0

def State.setDoeBusy (s : State) (i : Nat) (b : Bool) : State := { s with cxl := { s.cxl with doeBusy := s.cxl.doeBusy.set i b } }

/-- A request waits for a reservation to be committed; its mailbox stays busy. -/
def State.lmsQueue (s : State) (r : SpdmRequest) : State :=
  (s.withSec fun b => { b with lmsWait := b.lmsWait ++ [r], lmsCommitting := true }).when (r.path == SpdmPath.doe) (·.setDoeBusy 1 true)

/-- A VENDOR_DEFINED_REQUEST of R672, as SPDM lays its fields out. -/
def isCountersign (r : SpdmRequest) : Bool :=
  let n := fieldAt r.bytes 6 1
  fieldAt r.bytes 4 2 == 4 && n == 4 && fieldAt r.bytes 7 4 == Config.pen.toNat && fieldAt r.bytes (7 + n + 2) 1 == 1

def vendorRequest (r : SpdmRequest) (s : State) : State :=
  if !(s.sec.lastSigned.has (signKey r)) then s.answer r (.vendor (vendorPayload 2 0 []))
  else if !s.lmsAvailable then s.answer r (.vendor (vendorPayload 1 0 []))
  else if s.sec.lmsWait.isEmpty && !s.sec.lmsCommitting && s.sec.lmsNext < s.sec.lmsEnd then s.takeLeaf r
  else s.lmsQueue r

def execVendorDefinedRequest (t : Nat) (r : SpdmRequest) (s : State) : Host.Outcome State Fault Refusal :=
  done ((s.at t).spdm r (s.negotiated r && isCountersign r) (vendorRequest r))

/-- Serve the requests that waited for a commit. -/
def State.serveLms (s : State) : List SpdmRequest → State
  | [] => s
  | r :: rest =>
    let s := s.when (r.path == SpdmPath.doe) (·.setDoeBusy 1 false)
    let s :=
      if !s.lmsAvailable then s.answer r (.vendor (vendorPayload 1 0 []))
      else if s.sec.lmsNext < s.sec.lmsEnd then s.takeLeaf r
      else s.lmsQueue r
    State.serveLms s rest

/-- LMS_COMMIT (R666, R667): the Kind 4 record holding E + 1,024 commits, or its commit fails. -/
def lmsCommit (ok : Bool) (s : State) : State :=
  if !s.sec.lmsCommitting then s
  else
    let wait := s.sec.lmsWait
    let s := s.withSec fun b => { b with lmsCommitting := false, lmsWait := [] }
    if ok then
      let e := s.sec.lmsEnd + 1024
      ({ s.withSec (fun b => { b with lmsEnd := e }) with bft := { s.bft with lmsRec := some (natLE 8 e) } }).serveLms wait
    else
      let s := (s.sticky pgSec 0x044 4).bump pgSec 0x068
      wait.foldl (fun s r => (s.when (r.path == SpdmPath.doe) (·.setDoeBusy 1 false)).answer r (.vendor (vendorPayload 1 0 []))) s

def execLmsCommit (t : Nat) (ok : Bool) (s : State) : Host.Outcome State Fault Refusal :=
  done ((s.at t).onlyIf s.live (lmsCommit ok))

/-- LMS_TREES_READY (R667): the trees are built again after a start. -/
def execLmsTreesReady (t : Nat) (s : State) : Host.Outcome State Fault Refusal :=
  done ((s.at t).onlyIf s.live fun s => s.withSec fun b => { b with lmsReady := true })

/-- At each start N and E become the end of the newest Kind 4 record (R666). -/
def State.lmsStart (s : State) : State :=
  let e := (s.bft.lmsRec.map fun r => fieldAt r 0 8).getD 0
  s.withSec fun b => { b with lmsNext := e, lmsEnd := e, lmsReady := false, lmsCommitting := false, lmsWait := [] }

end Sys2Proof.Machine
end

