-- ==== Sys2Proof/Machine/Cxl.lean ====
section
/-!
DEFINITION. The CXL attachment: training and link-down, the HDM decoder, Function Level Reset, DOE mailboxes and IDE (14 R460 to
R483; 15 R514, R515; 19 R622, R623).
-/

namespace Sys2Proof.Machine

def State.withCxl (s : State) (f : CxlBlock → CxlBlock) : State := { s with cxl := f s.cxl }

/-! ### Completions that a warm start owes (15 R514) -/

/-- A queue's completion ring can be reached now. -/
def State.ringReachable (s : State) (q : Nat) : Bool :=
  linkUp s || ((s.queue? q).map fun v => s.view.inWin v.cqBase).getD true

/-- Post the completion of R514: OK or ABORTED with `n`, which is a ResultCount, or for an ENCODE_SEARCH 1 more than a decided
InsertOutcome (R506). -/
def State.postOwed (s : State) (cid : Nat) (k : Cmd) (ok : Bool) (n : Nat) : State :=
  let st : Status := if ok then .ok else .aborted
  match cmdOpcode k.raw with
  | 0x01 => s.post cid { status := st, search := true }
  | 0x04 => s.post cid { status := st, search := true, insertOutcome := if n = 0 then none else some (n - 1) }
  | _ => if k.isMut then s.finishMut cid (mutSource k.raw) st n else s.post cid { status := st, count := n }

/-- Post what a warm start owes one command. -/
def State.postWarm (s : State) (cid : Nat) (k : Cmd) : State :=
  match k.warm with
  | none => s
  | some (ok, n) => (s.bump pgQmg 0x084).postOwed cid k ok n

/-- The queues that R514 owes completions and whose rings are reachable. -/
def State.owedQueues (s : State) : List Nat :=
  ((s.qmg.cmds.filterMap fun e => match e.2.origin with
    | .queue q => if e.2.warm.isSome && s.ringReachable q then some q else none
    | _ => none)).eraseDups

/-- One message of a queue's vector, without moderation (19 R624). -/
def State.queueMessage (s : State) (q : Nat) : State :=
  match s.queue? q with
  | none => s
  | some v => if (s.cbd.fns.getD v.fn {}).enable then s.sendVec (vecKey v.fn v.vector) else s

/-- Post the completions that R514 owes, on every queue whose ring is reachable; then one message for each such queue. -/
def State.flushWarm (s : State) : State :=
  let qs := s.owedQueues
  let s' := (s.qmg.cmds.filter fun e => e.2.warm.isSome).foldl (fun s e => match e.2.origin with
    | .queue q => if qs.contains q then s.postWarm e.1 e.2 else s
    | _ => s) s
  qs.foldl (fun s q => s.queueMessage q) s'

/-! ### Training (R461 to R463) -/

/-- A width and rate at which the link works. -/
def trains (width rate : Nat) : Bool := [4, 8, 16].contains width && 1 ≤ rate && rate ≤ 3

/-- The mode a link comes up in: 68-byte flits only below 64 GT/s (R461, R463, R481). -/
def linkMode (rate : Nat) (cxl flit256 : Bool) : Nat := if !cxl then 1 else if flit256 || rate = 3 then 3 else 2

/-- The link comes up: held messages go, and owed completions post (19 R622; 15 R514). -/
def State.linkRise (s : State) (width rate : Nat) (cxl flit256 : Bool) : State :=
  let s := { s with cal := { s.cal with trained := (List.range 16).foldl (fun t l => t.set (0x3000 + l) s.freeCtr) s.cal.trained } }
  (s.withCxl fun b => { b with width := width, rate := rate, mode := linkMode rate cxl flit256, lastTrain := s.now }).flushWarm.releaseHeld

/-- The link goes down (R462, R470, R481, R482). `notice`: the event sends LinkDown where LinkDownNotice allows. -/
def State.linkFall (s : State) (notice : Bool) : State :=
  if !linkUp s then s
  else
    let s := s.withCxl fun b => { b with width := 0, rate := 0, mode := 0, ideIo := false, ideMem := false, idePendIo := false,
                                         idePendMem := false, lastTrain := s.now }
    (s.bump pgCxl 0x070).when (notice && bitOf (s.reg pgCxl 0x040) 0) (·.sendFault pgCxl .linkDown)

/-- One attempt at training; a link that cannot train stays down (R462). -/
def State.tryTrain (s : State) (width rate : Nat) (cxl flit256 first : Bool) : State :=
  if trains width rate then { s with pwr := { s.pwr with refsLost := s.pwr.refsLost.erase 0 } }.linkRise width rate cxl flit256
  else (s.withCxl fun b => { b with lastTrain := s.now }).when first (·.sendFault pgCxl .linkDown)

/-- The link may train: PERST_L does not hold it down (22 R678). Whether a training succeeds is told by its result (log entry 32). -/
def State.mayTrain (s : State) : Bool := !linkUp s && !s.cal.perstLow

/-- LINK_TRAIN (R461, R462). -/
def execLinkTrain (t width rate : Nat) (cxl flit256 : Bool) (s : State) : Host.Outcome State Fault Refusal :=
  done ((s.at t).onlyIf (s.live && s.mayTrain) fun s => s.tryTrain width rate cxl flit256 true)

/-- LINK_DOWN (R462, R482). -/
def execLinkDown (t : Nat) (s : State) : Host.Outcome State Fault Refusal :=
  done ((s.at t).onlyIf (s.live && linkUp s) fun s => s.linkFall true)

/-- LINK_TRAIN_RETRY: 100 ms after the last attempt (R462). -/
def execLinkTrainRetry (t width rate : Nat) (cxl flit256 : Bool) (s : State) : Host.Outcome State Fault Refusal :=
  done ((s.at t).onlyIf (s.live && s.mayTrain && decide (s.cxl.lastTrain + 100 * ms ≤ (s.at t).now)) fun s =>
    s.tryTrain width rate cxl flit256 false)

/-- HDM_DECODER_COMMIT (R471). -/
def hdmCommit (base size ways : Nat) (s : State) : State :=
  if size = s.winBytes && ways = 1 then s.withCxl fun b => { b with committed := true, base := base, errNotCommitted := false }
  else s.withCxl fun b => { b with errNotCommitted := true }

def execHdmDecoderCommit (t base size ways : Nat) (s : State) : Host.Outcome State Fault Refusal :=
  done ((s.at t).onlyIf (s.live && linkUp s) (hdmCommit base size ways))

/-! ### Function Level Reset (R467; 15 R515; 19 R623; 21 R673) -/

/-- MSI-X state of one function reset, its mask bits set again (log entry 8); its pending events are counted (19 R623). -/
def State.flrVectors (s : State) (fn : Nat) : State :=
  let mine := s.cbd.vecs.filter fun e => e.1 / 2048 == fn
  let lost := (mine.map fun e => e.2.pending).sum
  ({ s with cbd := { s.cbd with vecs := s.cbd.vecs.filter fun e => e.1 / 2048 != fn, fns := s.cbd.fns.erase fn,
                                inHost := if fn = 0 then [] else s.cbd.inHost } }).bump pgCbd 0x084 lost

/-- Every queue of one function moves to Stopped; completions of what it has fetched are not written (15 R515). -/
def State.flrQueues (s : State) (fn : Nat) : State :=
  { s with qmg := { s.qmg with queues := s.qmg.queues.mapVal fun q => if q.fn = fn then { q with state := .stopped, flrDrop := true } else q } }

/-- FLR_VF. -/
def execFlrVf (t fn : Nat) (s : State) : Host.Outcome State Fault Refusal :=
  done ((s.at t).onlyIf (s.live && decide (1 ≤ fn) && decide (fn ≤ 255)) fun s => (s.flrQueues fn).flrVectors fn)

/-- FLR_PF0: also Q0Enable, the sessions carried on DOE, and each mailbox's request in progress (21 R673). -/
def flrPf0 (s : State) : State :=
  let s := (s.flrQueues 0).flrVectors 0
  let s := s.setReg pgQmg 0x040 (s.reg pgQmg 0x040 &&& (allBits - 2))
  let s := s.endSessions fun _ x => x.path == SpdmPath.doe
  let s := s.withSec fun b => { b with doe := {}, lmsWait := b.lmsWait.filter fun r => r.path != SpdmPath.doe }
  s.withCxl fun b => { b with doeBusy := [false, false, false] }

def execFlrPf0 (t : Nat) (s : State) : Host.Outcome State Fault Refusal :=
  done ((s.at t).onlyIf s.live flrPf0)

/-! ### DOE mailboxes and IDE (R476 to R480) -/

/-- CDAT_REQUEST. -/
def execCdatRequest (t : Nat) (s : State) : Host.Outcome State Fault Refusal :=
  done ((s.at t).onlyIf (s.live && linkUp s && !(s.cxl.doeBusy.getD 0 false)) fun s =>
    s.emit (.cdat s.winBytes 350 350 100000 100000))

/-- IDE_KM_REQUEST: in a finished session on DOE, keys are programmed for a stream, or refreshed to take effect at its next key
switch (R478; 21 R670). -/
def ideKm (session : Nat) (mem refresh : Bool) (s : State) : State :=
  let s := s.emit (.ideKm session)
  if refresh then s.withCxl fun b => if mem then { b with idePendMem := b.ideMem } else { b with idePendIo := b.ideIo }
  else s.withCxl fun b => if mem then { b with ideMem := decide (2 ≤ b.mode), idePendMem := false } else { b with ideIo := true, idePendIo := false }

def execIdeKmRequest (t session : Nat) (mem refresh : Bool) (s : State) : Host.Outcome State Fault Refusal :=
  done ((s.at t).onlyIf (s.live && linkUp s && !(s.cxl.doeBusy.getD 2 false) &&
      s.sec.sessions.find? session == some { path := .doe, finished := true }) (ideKm session mem refresh))

/-- IDE_FAILURE (R479). -/
def ideFailure (mem : Bool) (s : State) : State :=
  let s := s.withCxl fun b => if mem then { b with ideMem := false, idePendMem := false } else { b with ideIo := false, idePendIo := false }
  ((s.bump pgCxl 0x06C).sticky pgCxl 0x044 8).sendFault pgCxl .ideFailure

def execIdeFailure (t : Nat) (mem : Bool) (s : State) : Host.Outcome State Fault Refusal :=
  done ((s.at t).onlyIf (s.live && linkUp s && (if mem then s.cxl.ideMem else s.cxl.ideIo)) (ideFailure mem))

/-- DOE_ABORT (R477): the mailbox's request in progress ends; a commit it asked for runs on. -/
def doeAbort (mailbox : Nat) (s : State) : State :=
  let s := s.setDoeBusy mailbox false
  if mailbox = 1 then s.withSec fun b => { b with lmsWait := b.lmsWait.filter fun r => r.path != SpdmPath.doe } else s

def execDoeAbort (t mailbox : Nat) (s : State) : Host.Outcome State Fault Refusal :=
  done ((s.at t).onlyIf (s.live && linkUp s && decide (mailbox < 3)) (doeAbort mailbox))

end Sys2Proof.Machine
end

