-- ==== Sys2Proof/Machine/Egress.lean ====
section
/-!
DEFINITION. Block SHP: the order in which messages leave a port, shapers, gates, and the policing of arriving requests (18 R583
to R606).
-/

namespace Sys2Proof.Machine

/-! ### Lengths and buckets (R586, R590, R592) -/

/-- The length a service message is charged (R586). -/
def State.charge (s : State) (m : Msg) : Nat := m.frame + bitsOf (s.reg pgShp 0x048) 5 0

/-- A bucket's level now, in thousandths of a byte: rate in MB/s is thousandths of a byte per ns. -/
def bucketLevel (b : Option Bucket) (rate burst now : Nat) : Int :=
  match b with
  | none => burst * 1000
  | some b => min (burst * 1000) (b.level + rate * (now - b.at_))

def State.portRate (s : State) (p : Nat) : Nat := s.regAt pgShp 0x064 p
def State.portBurst (s : State) (p : Nat) : Nat := s.regAt pgShp 0x068 p
def State.subRate (s : State) (d : Nat) : Nat := s.regAt pgShp 0x0B8 d
def State.subBurst (s : State) (d : Nat) : Nat := s.regAt pgShp 0x0BC d

def State.portLevel (s : State) (p : Nat) : Int := bucketLevel (s.shpPort p).bucket (s.portRate p) (s.portBurst p) s.now

def State.subLevel (s : State) (p d : Nat) : Int := bucketLevel ((s.shpPort p).subs.find? d) (s.subRate d) (s.subBurst d) s.now

/-- Subtract a length from a port's bucket, and count it (R592). -/
def State.chargePort (s : State) (p len : Nat) : State :=
  let q := s.shpPort p
  s.setShpPort p { q with bucket := some { level := s.portLevel p - len * 1000, at_ := s.now }, txBytes := q.txBytes + len }

/-- SHAPER_BUCKET_REFILL: the level a bucket has refilled to (R590, R592). -/
def shaperRefill (p : Nat) (subscriber : Option Nat) (s : State) : State :=
  let q := s.shpPort p
  match subscriber with
  | none => s.setShpPort p { q with bucket := some { level := s.portLevel p, at_ := s.now } }
  | some d => s.setShpPort p { q with subs := q.subs.set d { level := s.subLevel p d, at_ := s.now } }

def execShaperBucketRefill (t port : Nat) (subscriber : Option Nat) (s : State) : Host.Outcome State Fault Refusal :=
  done ((s.at t).onlyIf (s.live && decide (port < 4)) (shaperRefill port subscriber))

/-! ### Gates (R598 to R602) -/

def gclIdx (p bank : Nat) : Nat := p * 2 + bank

/-- One span of a gate list's cycle: where it starts and ends, its entry, and its mask. -/
structure Span where
  start : Nat
  stop  : Nat
  entry : Nat
  mask  : Nat
  deriving DecidableEq, Repr

/-- The spans of entries `i` on, from offset `o` of a cycle (R599): the last mask holds to the end, a span is cut at it. -/
def State.spansGo (s : State) (idx cycle count : Nat) : Nat → Nat → Nat → List Span
  | 0, _, _ => []
  | fuel + 1, i, o =>
    let dur := max 64 (s.regAt pgShp 0x078 (idx * 256 + i))
    let stop := if i + 1 = count then cycle else min cycle (o + dur)
    let x : Span := { start := o, stop := stop, entry := i, mask := bitsOf (s.regAt pgShp 0x074 (idx * 256 + i)) 7 0 }
    if cycle ≤ stop then [x] else x :: State.spansGo s idx cycle count fuel (i + 1) stop

/-- The place in the cycle and its spans; none while every gate is open (R599). -/
def State.gateSpans (s : State) (p : Nat) : Option (Nat × List Span) :=
  let idx := gclIdx p (s.shpPort p).bank
  let base := s.regAt pgShp 0x080 idx + 2 ^ 32 * s.regAt pgShp 0x084 idx
  let cycle := max 1000 (s.regAt pgShp 0x088 idx)
  let count := min 256 (bitsOf (s.regAt pgShp 0x08C idx) 8 0)
  if !bitOf (s.reg pgShp 0x040) 2 || count = 0 || s.tapeTime < base then none
  else some ((s.tapeTime - base) % cycle, s.spansGo idx cycle count count 0 0)

/-- How long a class stays open over a run of span lengths; none where no closing follows. -/
def openRun (cls : Nat) : List (Nat × Nat) → Option Nat
  | [] => none
  | (len, mask) :: rest => if bitOf mask cls then (openRun cls rest).map (len + ·) else some 0

/-- The longest run of a class over spans, `run` being the one in progress. -/
def longestRun (cls : Nat) : List Span → Nat → Nat
  | [], run => run
  | x :: rest, run => if bitOf x.mask cls then longestRun cls rest (run + (x.stop - x.start)) else max run (longestRun cls rest 0)

/-- How a service message stands to its gate (R600). -/
inductive Fit where
  | go | overrun | wait | closed
  deriving DecidableEq, Repr

/-- Transmission time in ps (R588). -/
def State.txPs (s : State) (p : Nat) (m : Msg) : Nat := m.flits * (if (s.port p).lanes.length = 4 then 4234 else 8468)

/-- Whether a message of a class may start now, at a gate list's place `o` (R600). One that no open interval holds starts as the
port's first of such an interval. -/
def fitIn (o : Nat) (spans : List Span) (cls ps tapeTime lastStart : Nat) : Fit :=
  let ahead := spans.filter fun x => o < x.stop
  let lens := (ahead.map fun x => (x.stop - max o x.start, x.mask)) ++ ((spans ++ spans).map fun x => (x.stop - x.start, x.mask))
  let back := ((spans.filter fun x => x.start ≤ o).reverse.map fun x => (min o x.stop - x.start, x.mask)) ++
    ((spans ++ spans).reverse.map fun x => (x.stop - x.start, x.mask))
  match openRun cls lens with
  | none => .go
  | some 0 => .closed
  | some n =>
    if ps ≤ n * 1000 then .go
    else if ps ≤ longestRun cls (spans ++ spans) 0 * 1000 then .wait
    else match openRun cls back with
      | none => .wait
      | some ago => if lastStart + ago < tapeTime || (lastStart = 0 && ago ≤ tapeTime) then .overrun else .wait

def State.fit (s : State) (p : Nat) (m : Msg) : Fit :=
  match s.gateSpans p with
  | none => .go
  | some (o, spans) => fitIn o spans m.cls (s.txPs p m) s.tapeTime (s.shpPort p).lastStart

/-- The gate entry in force (R599). -/
def State.gateEntry (s : State) (p : Nat) : Nat :=
  match s.gateSpans p with
  | none => 0
  | some (o, spans) => ((spans.find? fun x => x.start ≤ o && o < x.stop).map fun x => x.entry).getD 0

/-- A class gate is open now. -/
def State.gateOpen (s : State) (p cls : Nat) : Bool :=
  match s.gateSpans p with
  | none => true
  | some (o, spans) => ((spans.find? fun x => x.start ≤ o && o < x.stop).map fun x => bitOf x.mask cls).getD true

/-- The gates have moved: the entry in force, and a message whose gate closed while it is sent (R599, R601). -/
def State.gatesMoved (s : State) (p : Nat) : State :=
  let q := { s.shpPort p with entry := s.gateEntry p }
  match q.sending with
  | none => s.setShpPort p q
  | some x =>
    if s.now < x.ends && !x.late && !s.gateOpen p x.cls then
      (s.setShpPort p { q with sending := some { x with late := true } }).bump pgShp 0x09C
    else s.setShpPort p q

/-- GATE_ENTRY_CHANGE. -/
def execGateEntryChange (t port : Nat) (s : State) : Host.Outcome State Fault Refusal :=
  done ((s.at t).onlyIf (s.live && decide (port < 4)) fun s => s.gatesMoved port)

/-- Make a bank of a port active (R602): SHP_GCL_SWAP and cue action 0x04. -/
def State.swapBank (s : State) (p bank : Nat) : State :=
  (s.setShpPort p { s.shpPort p with bank := bank }).gatesMoved p

/-- SHP_GCL_SWAP: the selected bank of the selected port. -/
def execShpGclSwap (t fn : Nat) (val : Word) (s : State) : Host.Outcome State Fault Refusal :=
  done ((s.at t).onlyIf (s.live && fn == 0 && val == 1) fun s =>
    s.swapBank (bitsOf (s.reg pgShp 0x060) 1 0) (bitsOf (s.reg pgShp 0x070) 16 16))

/-! ### Choosing (R587 to R595) -/

/-- Deficit round robin: from queue `cur`, whose turn runs on while its deficit covers its message. -/
def drrGo (keys : List Nat) (len quantum : Nat → Nat) : Nat → Table Nat → Nat → Option (Nat × Table Nat)
  | 0, _, _ => none
  | fuel + 1, defs, cur =>
    if keys.contains cur && decide (len cur ≤ defs.getD cur 0) then some (cur, defs.set cur (defs.getD cur 0 - len cur))
    else
      let next := (keys.find? fun k => cur < k).getD (keys.headD 0)
      drrGo keys len quantum fuel (defs.set next (defs.getD next 0 + quantum next)) next

/-- A message of at most 65,599 bytes needs at most 33 turns of 2,048 bytes. -/
def drr (keys : List Nat) (len quantum : Nat → Nat) (defs : Table Nat) (cur : Nat) : Option (Nat × Table Nat) :=
  if keys.isEmpty then none else drrGo keys len quantum (34 * keys.length + 1) defs cur

/-- The hierarchy runs (R594). -/
def State.hierarchical (s : State) : Bool := bitOf (s.reg pgShp 0x040) 0 && !s.shp.tableErr

/-- R588 allows a message to start. -/
def State.mayStart (s : State) (p : Nat) (m : Msg) : Bool :=
  s.canSend p m && (s.fit p m == .go || s.fit p m == .overrun)

/-- The oldest message of each subscriber and class at a port, keyed subscriber × 8 + class. -/
def State.heads (s : State) (p : Nat) : Table Queued :=
  (s.shpPort p).service.foldl (fun (t : Table Queued) x =>
    let k := s.subOf x.msg * 8 + x.msg.cls
    if t.has k then t else t.set k x) []

/-- The class profile of a subscriber: StrictMask, and a class's quantum (R591). -/
def State.strictMask (s : State) (d : Nat) : Nat := bitsOf (s.regAt pgShp 0x0D4 (bitsOf (s.regAt pgShp 0x0B4 d) 19 16)) 7 0

def State.classQuantum (s : State) (d cls : Nat) : Nat :=
  let prof := bitsOf (s.regAt pgShp 0x0B4 d) 19 16
  max 1 (bitsOf (s.regAt pgShp (if cls < 4 then 0x0D8 else 0x0DC) prof) (8 * (cls % 4) + 7) (8 * (cls % 4))) * 2048

/-- What one subscriber would send: the message, and its class deficits then (R591). -/
def State.subChoice (s : State) (p d : Nat) (ok : Table Queued) : Option (Queued × Table Nat) :=
  let mine := ok.filter fun e => e.1 / 8 == d
  match List.find? (fun e => bitOf (s.strictMask d) (e.1 % 8)) mine with
  | some e => some (e.2, (s.shpPort p).classDef)
  | none =>
    let len (k : Nat) : Nat := ((Table.find? mine k).map fun x => s.charge x.msg).getD 0
    match drr (mine.map fun e => e.1) len (fun k => s.classQuantum d (k % 8)) (s.shpPort p).classDef
        (d * 8 + (s.shpPort p).lastClass.getD d 0) with
    | none => none
    | some (k, defs) => (Table.find? mine k).map fun x => (x, defs)

/-- The choice of the hierarchy at a port (R590, R591). -/
def State.chooseHier (s : State) (p : Nat) : Option (Queued × ShpPort) :=
  let q := s.shpPort p
  let ok := (s.heads p).filter fun e => s.mayStart p e.2.msg
  let subs := (ok.map fun e => e.1 / 8).eraseDups.filter fun d => s.subRate d = 0 || 0 ≤ s.subLevel p d
  let len (d : Nat) : Nat := ((s.subChoice p d ok).map fun x => s.charge x.1.msg).getD 0
  let quantum (d : Nat) : Nat := max 1 (bitsOf (s.regAt pgShp 0x0B4 d) 31 24) * 2048
  match drr subs len quantum q.subDef q.lastSub with
  | none => none
  | some (d, subDef) => (s.subChoice p d ok).map fun x =>
    (x.1, { q with subDef := subDef, lastSub := d, classDef := x.2, lastClass := q.lastClass.set d x.1.msg.cls,
                   subs := q.subs.set d { level := s.subLevel p d - s.charge x.1.msg * 1000, at_ := s.now } })

/-- The weight of a message type in the fall-back (R595). -/
def State.typeWeight (s : State) (ty : Nat) : Nat :=
  max 1 (match ty with
  | 1 => bitsOf (s.reg pgShp 0x050) 7 0
  | 2 => bitsOf (s.reg pgShp 0x050) 15 8
  | 3 => bitsOf (s.reg pgShp 0x050) 23 16
  | 4 => bitsOf (s.reg pgShp 0x050) 31 24
  | 5 => bitsOf (s.reg pgShp 0x054) 7 0
  | _ => bitsOf (s.reg pgShp 0x054) 15 8)

/-- The oldest message of a type that may start. -/
def State.typeHead (s : State) (p ty : Nat) : Option Queued :=
  (s.shpPort p).service.find? fun x => x.msg.type == ty && s.mayStart p x.msg

/-- The choice of the fall-back at a port (R595). -/
def State.chooseFall (s : State) (p : Nat) : Option (Queued × ShpPort) :=
  let q := s.shpPort p
  let types := [1, 2, 3, 4, 5, 8].filter fun ty => (s.typeHead p ty).isSome
  match drr types (fun ty => ((s.typeHead p ty).map fun x => s.charge x.msg).getD 0) (fun ty => s.typeWeight ty * 2048) q.typeDef q.lastType with
  | none => none
  | some (ty, defs) => (s.typeHead p ty).map fun x => (x, { q with typeDef := defs, lastType := ty })

/-- Deficits that a queue loses as it empties (R590). -/
def State.loseDeficits (s : State) (p : Nat) (m : Msg) : State :=
  let q := s.shpPort p
  let d := s.subOf m
  let q := if q.service.any fun x => s.subOf x.msg == d then q else { q with subDef := q.subDef.erase d }
  let q := if q.service.any fun x => s.subOf x.msg == d && x.msg.cls == m.cls then q else { q with classDef := q.classDef.erase (d * 8 + m.cls) }
  let q := if q.service.any fun x => x.msg.type == m.type then q else { q with typeDef := q.typeDef.erase m.type }
  s.setShpPort p q

/-- Count the messages that an open gate leaves too little time for, once each (R600). -/
def State.noteWaits (s : State) (p : Nat) : State :=
  let q := s.shpPort p
  let hs := ((s.heads p).filter fun e => !e.2.waited && s.fit p e.2.msg == .wait).map fun e => e.2.order
  (s.setShpPort p { q with service := q.service.map fun x => if hs.contains x.order then { x with waited := true } else x }).bump pgShp
    0x094 hs.length

/-- Note when a message that waits for nothing but credit began to wait (17 R580). -/
def State.noteStall (s : State) (p : Nat) : State :=
  let q := s.shpPort p
  let short := ((q.tape ++ q.fault ++ q.service).any fun x => decide ((s.port p).credits.getD x.msg.vc 0 < x.msg.flits)) ||
    !(s.port p).segs.isEmpty
  match (s.port p).stallFrom with
  | none => if short then s.setPort p { s.port p with stallFrom := some s.now } else s
  | some a =>
    if short then s
    else (s.setPort p { s.port p with stallFrom := none }).bump (pgFab p) 0x0A8 (ceilDiv (s.now - a) us)

/-- Start a service message that has been chosen (R588 to R592, R600). -/
def State.startService (s : State) (p : Nat) (x : Queued) (q : ShpPort) : State :=
  let overruns := s.fit p x.msg == .overrun
  let q := { q with service := q.service.filter fun y => y.order != x.order, lastStart := s.tapeTime,
                    sending := some { cls := x.msg.cls, vc := x.msg.vc, ends := s.now + ceilDiv (s.txPs p x.msg) 1000 } }
  let s := ((s.setShpPort p q).chargePort p (s.charge x.msg)).sendData p x.msg
  let s := if overruns then (s.bump pgShp 0x098).sticky pgShp 0x044 8 else s
  s.loseDeficits p x.msg

/-- The service message being sent, if it has not ended. -/
def State.busyWith (s : State) (p : Nat) : Option Sending :=
  match (s.shpPort p).sending with
  | none => none
  | some x => if s.now < x.ends then some x else none

/-- What a port sends next (R587). -/
def State.transmit (s : State) (p : Nat) : State :=
  let q := s.shpPort p
  let tape := q.tape.find? fun x => s.canSend p x.msg
  let fault := q.fault.find? fun x => s.canSend p x.msg && !((s.busyWith p).any fun y => y.vc == 3)
  match tape, fault with
  | some x, _ =>
    ((s.setShpPort p { q with tape := q.tape.filter fun y => y.order != x.order }).chargePort p x.msg.frame).sendData p x.msg
  | none, some x =>
    ((s.setShpPort p { q with fault := q.fault.filter fun y => y.order != x.order }).chargePort p x.msg.frame).sendData p x.msg
  | none, none =>
    if (s.busyWith p).isSome || (s.portRate p != 0 && decide (s.portLevel p < 0)) then s
    else
      let s := s.noteWaits p
      match (if s.hierarchical then s.chooseHier p else s.chooseFall p) with
      | none => s
      | some (x, q) => s.startService p x q

/-- Hand over what has waited for room: forwarded messages, then the connections' (R596, R597). -/
def State.takeRoom (s : State) : State :=
  let s := s.fab.forwards.foldl (fun (s : State) e =>
    match s.routePort e.2.dest with
    | none => s
    | some p =>
      if s.shpRoom p e.2 then
        let s := { s with fab := { s.fab with forwards := s.fab.forwards.erase e } }
        (s.shpQueue p e.2).emit (.credit e.1 e.2.vc e.2.flits)
      else s) s
  ((s.fab.conns.filter fun e => !e.2.queued.isEmpty).map fun e => e.1).foldl (fun s n => s.pump n) s

/-- MESSAGE_TRANSMIT. -/
def execMessageTransmit (t port : Nat) (s : State) : Host.Outcome State Fault Refusal :=
  done ((s.at t).onlyIf (s.live && (s.port port).up && s.accepts pgShp && s.accepts (pgFab port)) fun s => ((s.transmit port).noteStall port).takeRoom)

/-- SHAPER_TABLE_ERROR (R594). -/
def execShaperTableError (t : Nat) (s : State) : Host.Outcome State Fault Refusal :=
  done ((s.at t).onlyIf s.live fun s =>
    ({ s with shp := { s.shp with tableErr := true } }.sticky pgShp 0x044 0x20).sendFault pgShp .shaperTable)

/-! ### Ingress policing (R603 to R605) -/

/-- The marker of RFC 2698 as R604 writes it: colour 0 green, 1 yellow, 2 red, and the buckets then, in thousandths of a byte. -/
def markColour (pre : Nat) (tc tp : Int) (len : Nat) : Nat × Int × Int :=
  let b : Int := len * 1000
  if 2 ≤ pre || tp < b then (2, tc, tp)
  else if pre = 1 || tc < b then (1, tc, tp - b)
  else (0, tc - b, tp - b)

/-- Meter a QUERY_SCATTER: the class it goes on with, or none where it is refused (R603 to R605). -/
def State.police (s : State) (m : Msg) : State × Option Nat :=
  let named := s.regAt pgShp 0x0C0 (s.subOf m)
  if !bitOf (s.reg pgShp 0x040) 3 || !bitOf named 15 then (s, some m.cls)
  else
    let n := bitsOf named 9 0
    let mode := s.regAt pgShp 0x0E4 n
    let cir := s.regAt pgShp 0x0E8 n
    let pir := max cir (s.regAt pgShp 0x0EC n)
    let level (f : Bucket × Bucket → Bucket) (rate burst : Nat) : Int := bucketLevel ((s.shp.policers.find? n).map f) rate burst s.now
    let pre := if bitOf mode 0 then bitsOf mode (17 + 2 * m.cls) (16 + 2 * m.cls) else 0
    let (colour, tc, tp) := markColour pre (level (fun b => b.1) cir (s.regAt pgShp 0x0F0 n)) (level (fun b => b.2) pir (s.regAt pgShp 0x0F4 n))
      (s.charge m)
    let key := n * 4 + colour
    let s := { s with shp := { s.shp with
      policers := s.shp.policers.set n ({ level := tc, at_ := s.now }, { level := tp, at_ := s.now }),
      colours := s.shp.colours.set key (min 0xFFFFFFFF (s.shp.colours.getD key 0 + 1)) } }
    match bitsOf mode (2 * colour + 3) (2 * colour + 2) with
    | 0 => (s, some m.cls)
    | 1 => (s, some (bitsOf mode 10 8))
    | _ => ((s.bump pgShp 0x104).sticky pgShp 0x044 0x10, none)

end Sys2Proof.Machine
end

