-- ==== Sys2Proof/Machine/Links.lean ====
section
/-!
DEFINITION. Fabric ports: lanes and modules, bring-up and negotiation, flits with retry and credits, routing (17 R543 to R558).
-/

namespace Sys2Proof.Machine

/-- A message without the port it arrived on. -/
def wire (f : FabMsg) : Msg := { header := f.header, payload := f.payload }

/-- Register bits of FAB_CTRL (R581). -/
def State.fabCtrl (s : State) (p bit : Nat) : Bool := bitOf (s.reg (pgFab p) 0x040) bit

/-! ### Link state (R548) -/

/-- A port whose link has gone down: lanes, flit sequences, credits and what was being received are gone. -/
def FabPort.fallen (f : FabPort) (now : Nat) : FabPort :=
  { modulePresent := f.modulePresent, wasUp := f.wasUp, failed := f.failed, delay := f.delay, tried := now }

/-- A port's link goes down. -/
def State.portFall (s : State) (p : Nat) : State :=
  (s.setPort p ((s.port p).fallen s.now)).setShpPort p { s.shpPort p with sending := none }

/-- The fault of the first failure after having been up (R548). -/
def State.portFault (s : State) (p : Nat) : State :=
  if (s.port p).wasUp then (s.setPort p { s.port p with wasUp := false }).sendFault (pgFab p) .fabricLinkDown else s

/-- FABRIC_LINK_DOWN (R548). -/
def execFabricLinkDown (t port : Nat) (s : State) : Host.Outcome State Fault Refusal :=
  done ((s.at t).onlyIf (s.live && (s.port port).up) fun s => (s.portFall port).portFault port)

/-- PORT_DISABLE (R581): a write of FAB_CTRL that clears PortEnable. -/
def portDisable (p : Nat) (val : Nat) (s : State) : State :=
  let s := (s.writeFields (pgFab p) 0x040 val).portFall p
  s.setPort p { s.port p with wasUp := false }

def execPortDisable (t fn port : Nat) (val : Word) (s : State) : Host.Outcome State Fault Refusal :=
  done ((s.at t).onlyIf (s.live && fn == 0 && decide (port < 4) && !bitOf val.toNat 0) (portDisable port val.toNat))

/-- The port goes down for a retrain: its flits stay to be replayed (R548, R555). -/
def State.retrain (s : State) (p : Nat) : State :=
  (s.setPort p { s.port p with up := false, negotiated := false, retraining := true, replays := 0, nakSent := false }).bump (pgFab p) 0x09C

/-! ### Negotiation (R549, R552) -/

/-- Stepping A0's own offer: generation mask, minors and FeatureMask (R549). -/
def ownMask : Nat := 1
def ownMinors : List Nat := [0, 0, 0]
def ownFeatures : Nat := 0

/-- The chosen generation and minor; none when the masks share no bit. -/
def Offer.choose (o : Offer) : Option (Nat × Nat) :=
  ([3, 2, 1].find? fun g => bitOf ownMask (g - 1) && bitOf o.mask (g - 1)).map fun g =>
    (g, min (ownMinors.getD (g - 1) 0) (o.minors.getD (g - 1) 0))

/-- A partner lacks a bit of the feature floor (R552). -/
def State.lacksFloor (s : State) (o : Offer) : Bool := (s.fab.floor ||| o.feature) != o.feature

/-- The offer in a VERSION_OFFER payload (R565). -/
def offerOf (bs : List Byte) : Offer :=
  { mask := fieldAt bs 0 1, minors := (List.range 3).map fun i => fieldAt bs (1 + i) 1, feature := fieldAt bs 8 8,
    node := fieldAt bs 16 2 % 1024, incarnation := fieldAt bs 24 8 }

/-- The node's own VERSION_OFFER on a port. -/
def State.offerMsg (s : State) (p : Nat) : Msg :=
  mkMsg 9 0 15 0 0xFFFF s.nodeId 0 0 0 0
    (natLE 1 ownMask ++ ownMinors.flatMap (natLE 1) ++ zeroBytes 4 ++ natLE 8 ownFeatures ++ natLE 2 s.nodeId ++ natLE 1 p ++ zeroBytes 5 ++
      natLE 8 s.fab.incarnation)

/-- Take a partner's offer on a link: whether the link may come or stay up (R549, R552). -/
def State.takeOffer (s : State) (p : Nat) (o : Offer) : State × Bool :=
  match o.choose with
  | none => (s.setPort p { s.port p with offer := some o, negotiated := false, gen := 0, minor := 0 }, false)
  | some (g, m) =>
    let s := s.setPort p { s.port p with offer := some o, negotiated := true, gen := g, minor := m }
    if s.lacksFloor o then (s.sendFault (pgFab p) .versionFloor, false) else (s, true)

/-- VERSION_OFFER_RECEIVE: an offer not seen before is answered. -/
def versionOffer (p : Nat) (payload : List Byte) (s : State) : State :=
  let o := offerOf payload
  let known := (s.port p).offer == some o
  let (s, ok) := s.takeOffer p o
  let s := if known then s else (s.shpOffer p (s.offerMsg p)).1
  if ok then s else s.portFall p |>.setPort p { (s.port p).fallen s.now with offer := some o }

def execVersionOfferReceive (t port : Nat) (payload : List Byte) (s : State) : Host.Outcome State Fault Refusal :=
  done ((s.at t).onlyIf (s.live && (s.port port).up && payload.length == 32) (versionOffer port payload))

/-! ### Delay (R551) -/

/-- The mean of half the sixteen round trips. -/
def meanDelay (xs : List Int) : Int := xs.foldl (· + ·) 0 / 32

/-- DELAY_PROBE: answered with the times of its receipt and of the answer. -/
def execDelayProbe (t port tag : Nat) (s : State) : Host.Outcome State Fault Refusal :=
  done ((s.at t).onlyIf (s.live && (s.port port).negotiated) fun s =>
    s.emit (.control port 3 (natLE 8 tag ++ natLE 8 s.now ++ natLE 8 s.now)))

/-- DELAY_ECHO: one of sixteen exchanges. -/
def delayEcho (p : Nat) (x : Int) (s : State) : State :=
  let f := s.port p
  let xs := f.samples ++ [x]
  if xs.length < 16 then s.setPort p { f with samples := xs } else s.setPort p { f with samples := [], delay := meanDelay xs }

def execDelayEcho (t port : Nat) (t1 t2 t3 t4 : Int) (s : State) : Host.Outcome State Fault Refusal :=
  done ((s.at t).onlyIf (s.live && (s.port port).negotiated) (delayEcho port (t4 - t1 - (t3 - t2))))

/-! ### Lanes and modules (R545 to R547) -/

/-- The lanes of a port after bring-up (R545). -/
def FabPort.withLanes (f : FabPort) (good : List Nat) : FabPort :=
  let ls := (List.range 5).filter good.contains
  { f with lanes := ls.take (if 4 ≤ ls.length then 4 else 2), understudy := if ls.length = 5 then ls[4]? else none,
           displaced := [], failed := (List.range 5).filter fun l => !good.contains l }

/-- LANE_SWAP (R546). -/
def laneSwap (p logical : Nat) (s : State) : State :=
  let f := s.port p
  match f.understudy, f.lanes[logical]? with
  | some u, some old =>
    (((s.setPort p { f with lanes := f.lanes.set logical u, understudy := none, displaced := f.displaced ++ [old] }).bump (pgFab p)
      0x0A0).sticky (pgFab p) 0x044 0x10).sendFault (pgFab p) .laneSwap
  | _, _ => s

def execLaneSwap (t port logical : Nat) (s : State) : Host.Outcome State Fault Refusal :=
  done ((s.at t).onlyIf (s.live && (s.port port).up && s.fabCtrl port 1) (laneSwap port logical))

/-- LANE_RETRAIN_END (R546). -/
def laneRetrainEnd (p lane : Nat) (ok : Bool) (s : State) : State :=
  let f := { s.port p with displaced := (s.port p).displaced.erase lane }
  if ok then s.setPort p { f with understudy := some lane }
  else (s.setPort p { f with failed := f.failed ++ [lane] }).sendFault (pgFab p) .laneFailed

def execLaneRetrainEnd (t port lane : Nat) (ok : Bool) (s : State) : Host.Outcome State Fault Refusal :=
  done ((s.at t).onlyIf (s.live && (s.port port).displaced.contains lane) (laneRetrainEnd port lane ok))

/-- MODULE_PRESENCE_CHANGE (R547). -/
def modulePresenceChange (p : Nat) (isPresent supported : Bool) (s : State) : State :=
  let s := s.setPort p { s.port p with modulePresent := isPresent }
  if isPresent && !supported then s.sendFault (pgFab p) .moduleUnsupported else s

def execModulePresenceChange (t port : Nat) (isPresent supported : Bool) (s : State) : Host.Outcome State Fault Refusal :=
  done ((s.at t).onlyIf (s.live && decide (port < 4)) (modulePresenceChange port isPresent supported))

/-! ### Bring-up (R548) -/

/-- A bring-up step has failed: the port retries 100 ms later. -/
def State.bringUpFails (s : State) (p : Nat) : State := (s.portFall p).portFault p

/-- Steps 1 to 6 of R548. A port that retrains keeps its flit sequences, and replays what no AckSeq has covered. -/
def State.bringUp (s : State) (p : Nat) (b : PortBringUp) (first : Bool) : State :=
  let s := s.setPort p { s.port p with modulePresent := b.modulePresent, tried := s.now }
  if !b.modulePresent then s.bringUpFails p
  else if !b.moduleSupported then
    let s := s.bringUpFails p
    if first then s.sendFault (pgFab p) .moduleUnsupported else s
  else
    let f := (s.port p).withLanes b.goodLanes
    if f.lanes.length < 2 then (s.setPort p f).bringUpFails p
    else
      let s := (s.setPort p f).emit (.fabric p (s.offerMsg p))
      match b.offer with
      | none => s.bringUpFails p
      | some bs =>
        match s.takeOffer p (offerOf bs) with
        | (s, false) =>
          let f := s.port p
          let s := s.bringUpFails p
          s.setPort p { s.port p with offer := f.offer, negotiated := f.negotiated, gen := f.gen, minor := f.minor }
        | (s, true) =>
          if b.delays.length != 16 then s.bringUpFails p
          else
            let delay := meanDelay (b.delays.map fun d => let (t1, t2, t3, t4) := d; t4 - t1 - (t3 - t2))
            let f := { s.port p with up := true, wasUp := true, retraining := false, samples := [], delay := delay,
                                     credits := (List.range 8).map fun v => b.partnerCredits.getD v 0 }
            let s := s.setPort p f
            let s := { s with pwr := { s.pwr with refsLost := s.pwr.refsLost.erase (1 + p / 2) } }
            let s := { s with cal := (List.range 5).foldl (fun (c : CalBlock) l =>
              let target := 0x100 + 8 * p + l
              { c with trained := c.trained.set target s.freeCtr, current := c.current.erase target }) s.cal }
            let s := if f.replay.isEmpty then s
              else (s.bump (pgFab p) 0x098 f.replay.length).emit (.replay p (f.replay.map fun e => e.2))
            (s.flushSegs p).takeRoom

def execPortBringUp (t port : Nat) (b : PortBringUp) (s : State) : Host.Outcome State Fault Refusal :=
  done ((s.at t).onlyIf (s.live && !s.sec.recovery && decide (port < 4) && s.fabCtrl port 0 && !(s.port port).up) fun s => s.bringUp port b true)

def execPortBringUpRetry (t port : Nat) (b : PortBringUp) (s : State) : Host.Outcome State Fault Refusal :=
  done ((s.at t).onlyIf (s.live && !s.sec.recovery && decide (port < 4) && s.fabCtrl port 0 && !(s.port port).up &&
    decide ((s.port port).tried + 100 * ms ≤ (s.at t).now)) fun s => s.bringUp port b false)

/-! ### Flits (R553 to R557) -/

def flitOk (flit : List Byte) : Bool := flit.length == 256 && crc32 (flit.take 252) == fieldAt flit 252 4

/-- Take a flit's AckSeq and the credit it returns (R554 to R556). -/
def FabPort.takeAck (f : FabPort) (flit : List Byte) : FabPort :=
  let ack := fieldAt flit 4 2
  let f := match f.replay.findIdx? fun e => e.1 == ack with
    | none => f
    | some i => { f with replay := f.replay.drop (i + 1), replays := 0 }
  let vc := fieldAt flit 6 1
  if bitOf vc 3 then { f with credits := f.credits.set (vc % 8) (f.credits.getD (vc % 8) 0 + fieldAt flit 7 1) } else f

/-- What follows credit that arrives on a port. -/
def State.credited (s : State) (p : Nat) : State := (s.flushSegs p).noteStall p

/-- Return VC 1 credit that was withheld, once the admission queue has room (R557; 04 R111). -/
def State.returnOwed (s : State) (p : Nat) : State :=
  let f := s.port p
  if f.owed = 0 || s.admqFull then s else (s.setPort p { f with owed := 0 }).emit (.credit p 1 f.owed)

/-- IDLE_FLIT_RECEIVE (R554). -/
def idleFlit (p : Nat) (flit : List Byte) (s : State) : State :=
  if !flitOk flit then s.bump (pgFab p) 0x094
  else if fieldAt flit 0 1 != 0 then s
  else ((s.setPort p ((s.port p).takeAck flit)).credited p).returnOwed p

def execIdleFlitReceive (t port : Nat) (flit : List Byte) (s : State) : Host.Outcome State Fault Refusal :=
  done ((s.at t).onlyIf (s.live && (s.port port).up) (idleFlit port flit))

/-- Send a NAK, and discard Data flits until the expected one arrives (R555). -/
def State.sendNak (s : State) (p : Nat) : State :=
  let f := s.port p
  (s.setPort p { f with nakSent := true }).emit (.control p 0 (natLE 2 ((f.rxSeq + 65535) % 65536)))

/-- NAK_RECEIVE (R555): replay from AckSeq + 1; after eight replays without progress, retrain. -/
def nakReceive (p ackSeq : Nat) (s : State) : State :=
  let f := s.port p
  let f := match f.replay.findIdx? fun e => e.1 == ackSeq with
    | none => f
    | some i => { f with replay := f.replay.drop (i + 1), replays := 0 }
  if f.replay.isEmpty then s.setPort p f
  else
    let s := ((s.setPort p { f with replays := f.replays + 1 }).bump (pgFab p) 0x098).emit (.replay p (f.replay.map fun e => e.2))
    if 8 ≤ f.replays + 1 then s.retrain p else s

def execNakReceive (t port ackSeq : Nat) (s : State) : Host.Outcome State Fault Refusal :=
  done ((s.at t).onlyIf (s.live && (s.port port).up) (nakReceive port ackSeq))

/-! ### Forwarding (R558, R596) -/

/-- A message for another node: it goes on with one hop less, or is discarded and counted. -/
def State.forward (s : State) (p : Nat) (m : Msg) : State :=
  let drop := s.bump (pgFab p) 0x0A4
  if m.hops = 0 || m.major != 1 || 9 < m.type then drop
  else match s.routePort m.dest with
    | none => drop
    | some out =>
      let m := { m with header := overlay m.header 3 (natLE 1 (fieldAt m.header 3 1 - 16)) }
      if m.type = 0 then s.sendSegment m
      else match s.shpOffer out m with
        | (s, true) => s
        | (s, false) => { s with fab := { s.fab with forwards := s.fab.forwards ++ [(p, m)] } }

/-- A message as it stands on the wire: 32 header bytes and PayloadBytes of payload (R562). -/
def Msg.whole (m : Msg) : Bool := m.header.length == 32 && m.payload.length == m.bytes && m.bytes ≤ 65504

def execMessageForward (t : Nat) (m : FabMsg) (s : State) : Host.Outcome State Fault Refusal :=
  done ((s.at t).onlyIf (s.live && (s.port m.port).up && (wire m).whole && (wire m).dest != s.nodeId && (wire m).dest != 0xFFFF) fun s =>
    s.forward m.port (wire m))

end Sys2Proof.Machine
end

