-- ==== Sys2Proof/Machine/Fabric.lean ====
section
/-!
DEFINITION. Fabric messages: connections, scatter and gather, replication, shard transfer, cue transfer, leases and fencing (17
R559 to R579).
-/

namespace Sys2Proof.Machine

def State.withFab (s : State) (f : FabBlock → FabBlock) : State := { s with fab := f s.fab }

/-! ### Replies (R564, R577) -/

/-- The RESULT_GATHER that answers a request; a FENCED outcome is counted (R577). -/
def State.reply (s : State) (m : Msg) (cls : Nat) (c : Comp) : State :=
  let s := if c.status = .fenced then s.bump (pgFab 0) 0x0CC else s
  s.sendMsg (replyMsg s m.src m.requestId cls m.domain c (c.watermark.getD s.wlk.watermark) [])

def State.replyStatus (s : State) (m : Msg) (st : Status) : State := s.reply m m.cls { status := st }

/-- A payload that says nothing but a status. -/
def statusPayload (st : Status) : List Byte := zeroBytes 4 ++ natLE 2 st.code ++ zeroBytes 26

def Status.all : List Status :=
  [.ok, .short, .watermarkTimeout, .stale, .fenced, .busy, .version, .quota, .denied, .malformed, .tooLong, .mediaExhausted, .mediaError,
   .uncorrected, .aborted, .alreadyDone, .notFound]

def statusOf (code : Nat) : Status := (Status.all.find? fun x => x.code == code).getD .malformed

/-! ### Replication: what resumes it (R570, R571, R576) -/

def State.setRepl (s : State) (coll : Nat) (r : Repl) : State := s.withFab fun f => { f with repls := f.repls.set coll r }

/-- Everything held is to be sent again, after a Probe (R571). -/
def Repl.restart (r : Repl) : Repl := { r with probing := true, held := r.held.map fun h => { h with sent := false } }

/-- A Probe of the collection is on its way. -/
def State.probeOut (s : State) (coll : Nat) : Bool := s.fab.reqs.any fun e => e.2.what == .probe coll

/-- Send the Probes that replication waits for (R571). -/
def State.sendProbes (s : State) : State :=
  match s.twin? with
  | none => s
  | some twin =>
    if !s.leaseHeld then s
    else s.fab.repls.foldl (fun (s : State) e =>
      if e.2.probing && !e.2.broken && !s.probeOut e.1 then s.sendRepl twin e.1 e.2 0x08 false true 0 [] else s) s

/-! ### Shard transfer: the sender (R573) -/

/-- Bytes `off` to `off + n` of a part. -/
def State.partBytes (s : State) (x : Ship) (p : ShipPart) (off n : Nat) : List Byte :=
  match p.volume with
  | some v => s.volBytes v off n
  | none => bytesAt x.image off n

/-- Send the next segment of a SHARD_SEND; the one after goes when this one has been answered. -/
def State.shipNext (s : State) (cid : Nat) : State :=
  match s.fab.ships.find? cid with
  | none => s
  | some x => match x.parts with
    | [] => { s with fab := { s.fab with ships := s.fab.ships.erase cid } }.finish cid .ok
    | p :: rest =>
      let segs := max 1 (ceilDiv p.bytes 65440)
      let data := s.partBytes x p (x.seg * 65440) (min 65440 (p.bytes - x.seg * 65440))
      let crc := data.foldl (crcByte 0x82F63B78) x.crc
      let last := x.seg + 1 = segs
      let head := natLE 4 p.id ++ natLE 4 x.seg ++ natLE 4 segs ++ natLE 8 (x.seg * 65440) ++
        natLE 4 (if last then crc ^^^ 0xFFFFFFFF else 0) ++ zeroBytes 40
      let x' := if last then { x with parts := rest, seg := 0, crc := 0xFFFFFFFF } else { x with seg := x.seg + 1, crc := crc }
      let req := s.fab.nextReq
      let s := s.withFab fun f => { f with ships := f.ships.set cid x', nextReq := (req + 1) % 2 ^ 32,
                                           reqs := f.reqs.set req { node := x.node, what := .ship cid } }
      let (ty, cls) := if p.volume.isSome then (5, bitsOf (s.reg pgShp 0x04C) 10 8) else (4, bitsOf (s.reg pgShp 0x04C) 6 4)
      s.sendMsg (s.ownMsg ty cls x.node req x.domain s.fab.epoch (head ++ data))

/-- A segment has been answered. -/
def State.shipReply (s : State) (cid : Nat) (st : Status) : State :=
  match s.fab.ships.find? cid with
  | none => s
  | some x =>
    if st = .ok && !x.parts.isEmpty then s.shipNext cid
    else { s with fab := { s.fab with ships := s.fab.ships.erase cid } }.finish cid st

/-- The newest committed checkpoint of a collection (R573; 13 R450). -/
def State.newestCkpt (s : State) (coll : Nat) : Option Checkpoint :=
  (s.bft.ckpts.filter fun e => e.1 % 65536 == coll).foldl (fun best e =>
    match best with
    | none => some e.2
    | some b => if b.seq < e.2.seq then some e.2 else some b) none

/-- SHARD_SEND: the volumes the collection uses, then its image (R573). -/
def shardSend (cid : Nat) (k : Cmd) (s : State) : State :=
  let n := fieldAt k.raw 8 4
  let node := fieldAt k.raw 12 2
  if 1024 ≤ node then s.finish cid .malformed
  else match s.openColl? n, s.newestCkpt n with
    | some _, some ck =>
      let image := Config.imageBytes ck
      let vols := (ck.coll.fullVolume.toList ++ (ck.coll.binding.map fun b => b.volume).toList).eraseDups
      let parts := vols.filterMap fun v => (s.bft.volumes.find? v).map fun x => ({ volume := some v, id := v, bytes := x.gib * 2 ^ 30 } : ShipPart)
      let x : Ship := { node := node, domain := ck.coll.owner, image := image, parts := parts ++ [{ volume := none, id := n, bytes := image.length }] }
      ((s.withFab fun f => { f with ships := f.ships.set cid x }).setCmd cid { k with phase := .waiting }).shipNext cid
    | _, _ => s.finish cid .notFound

def execShardSend (t cid : Nat) (s : State) : Host.Outcome State Fault Refusal :=
  done ((s.at t).withCmd cid (·.isAdmin 0x75) (shardSend cid))

/-! ### Connections (R559 to R561) -/

/-- A request ends with its connection (R561). -/
def State.endRequest (s : State) (r : Req) : State :=
  match r.what with
  | .shard n i => s.shardReply n i (statusPayload .busy)
  | .replicate c | .probe c => match s.fab.repls.find? c with
    | none => s
    | some x => s.setRepl c x.restart
  | .ship cid => s.shipReply cid .busy
  | .cues cid => s.finish cid .busy

/-- Every request outstanding on a connection ends, and what was being received over it is dropped (R561, R573). -/
def State.endRequests (s : State) (node : Nat) : State :=
  let mine := s.fab.reqs.filter fun e => e.2.node == node
  let s := s.withFab fun f => { f with reqs := f.reqs.filter fun e => e.2.node != node,
                                       transfers := f.transfers.filter fun e => e.1 / 2 ^ 33 != node }
  mine.foldl (fun s e => s.endRequest e.2) s

/-- A connection leaves Open or Opening (R561). -/
def State.connFall (s : State) (node : Nat) (dst : ConnState) : State :=
  (s.setConn node { state := dst, offer := (s.conn node).offer, openedAt := s.now }).endRequests node

/-- Enter Open: both directions number from 1 (R559, R560). -/
def State.connOpen (s : State) (node : Nat) (o : Offer) (gen minor : Nat) : State :=
  (s.setConn node { state := .open, offer := o, gen := gen, minor := minor, queued := (s.conn node).queued, progressAt := s.now }).sendProbes.pump node

/-- A transport segment addressed to this node, with its op (R560). -/
def State.onSegment (s : State) (f : FabMsg) (op : Nat) (g : Msg → State → State) : State :=
  let m := wire f
  if !(s.port f.port).up || !m.whole || m.dest != s.nodeId || m.type != 0 then s
  else if m.major != 1 then s.bump (pgFab f.port) 0x0A4
  else if m.payload.length = 32 && fieldAt m.payload 0 1 = op then g m s
  else s

/-- What a segment's sender offers. -/
def segOffer (m : Msg) : Offer :=
  { mask := fieldAt m.payload 1 1, minors := (List.range 3).map fun i => fieldAt m.payload (2 + i) 1, feature := fieldAt m.payload 8 8,
    node := m.src, incarnation := fieldAt m.payload 16 8 }

def segPeer (m : Msg) : Nat := fieldAt m.payload 24 8

/-- TRANSPORT_ACK: messages up to the header's Seq are acknowledged (R559, R560). -/
def transportAck (m : Msg) (s : State) : State :=
  let c := s.conn m.src
  if c.state != .open || segPeer m != s.fab.incarnation then s
  else match c.unacked.findIdx? fun e => e.1 == m.seq with
    | none => s
    | some i => (s.setConn m.src { c with unacked := c.unacked.drop (i + 1), resends := 0, progressAt := s.now }).pump m.src

def execTransportAck (t : Nat) (m : FabMsg) (s : State) : Host.Outcome State Fault Refusal :=
  done ((s.at t).onlyIf s.live fun s => s.onSegment m 0 transportAck)

/-- Negotiation fails on a connection: both ends stay Closed (R552, R560). -/
def State.connRefused (s : State) (node : Nat) (o : Offer) : State :=
  let s := s.connFall node .closed
  if o.choose.isSome then s.sendFault (pgFab 0) .versionFloor 0 0 true else s

/-- Answer an Open (R549, R552, R560). -/
def State.answerOpen (s : State) (m : Msg) : State :=
  let o := segOffer m
  match o.choose with
  | none => (s.connRefused m.src o).sendSegment (s.segment m.src 3 0 0)
  | some (g, minor) =>
    if s.lacksFloor o then (s.connRefused m.src o).sendSegment (s.segment m.src 3 0 0)
    else
      let s := s.sendSegment (s.segment m.src 2 0 o.incarnation)
      if (s.conn m.src).state = .open then s else s.connOpen m.src o g minor

/-- TRANSPORT_OPEN (R560, R561). -/
def transportOpen (m : Msg) (s : State) : State :=
  let c := s.conn m.src
  match c.state with
  | .opening => if s.nodeId < m.src then s else s.answerOpen m
  | .open => (if c.offer.incarnation = (segOffer m).incarnation then s else s.connFall m.src .down).answerOpen m
  | _ => s.answerOpen m

def execTransportOpen (t : Nat) (m : FabMsg) (s : State) : Host.Outcome State Fault Refusal :=
  done ((s.at t).onlyIf s.live fun s => s.onSegment m 1 transportOpen)

/-- TRANSPORT_OPEN_REPLY (R560). -/
def transportOpenReply (m : Msg) (s : State) : State :=
  let o := segOffer m
  if (s.conn m.src).state != .opening || segPeer m != s.fab.incarnation then s
  else match o.choose with
    | none => s.connRefused m.src o
    | some (g, minor) => if s.lacksFloor o then s.connRefused m.src o else s.connOpen m.src o g minor

def execTransportOpenReply (t : Nat) (m : FabMsg) (s : State) : Host.Outcome State Fault Refusal :=
  done ((s.at t).onlyIf s.live fun s => s.onSegment m 2 transportOpenReply)

/-- TRANSPORT_CLOSE: an Open connection goes Down; an opening that the other end refuses stays Closed (R560, R561). -/
def transportClose (m : Msg) (s : State) : State :=
  match (s.conn m.src).state with
  | .open => s.connFall m.src .down
  | .opening => s.connFall m.src .closed
  | _ => s

def execTransportClose (t : Nat) (m : FabMsg) (s : State) : Host.Outcome State Fault Refusal :=
  done ((s.at t).onlyIf s.live fun s => s.onSegment m 3 transportClose)

/-- Messages put back at the head of their queue at a port, those still queued apart (R559; 18 R589). -/
def State.requeue (s : State) (p : Nat) (ms : List Msg) : State :=
  let q := s.shpPort p
  let fresh := ms.filter fun m => !((q.tape ++ q.fault ++ q.service).any fun x => x.msg == m)
  let es (keep : Msg → Bool) : List Queued := ((fresh.filter keep).zipIdx).map fun e => { order := s.shp.order + e.2, msg := e.1 }
  let taped := es Msg.isTape
  let s := { s with shp := { s.shp with order := s.shp.order + taped.length } }
  let faults := (((fresh.filter Msg.isFault).zipIdx).map fun e => ({ order := s.shp.order + e.2, msg := e.1 } : Queued))
  let s := { s with shp := { s.shp with order := s.shp.order + faults.length } }
  let rest := (((fresh.filter fun m => !m.isTape && !m.isFault).zipIdx).map fun e => ({ order := s.shp.order + e.2, msg := e.1 } : Queued))
  let s := { s with shp := { s.shp with order := s.shp.order + rest.length } }
  s.setShpPort p { q with tape := taped ++ q.tape, fault := faults ++ q.fault, service := rest ++ q.service }

/-- CONNECTION_RESEND (R559). -/
def connectionResend (node : Nat) (s : State) : State :=
  let c := s.conn node
  if c.state != .open || c.unacked.isEmpty || decide (s.now < c.progressAt + s.reg (pgFab 0) 0x074 * us) then s
  else if 16 ≤ c.resends then (s.connFall node .down).sendFault (pgFab 0) .connectionDown 0 0 true
  else
    let s := (s.setConn node { c with resends := c.resends + 1, progressAt := s.now }).bump (pgFab 0) 0x0C8 c.unacked.length
    match s.routePort node with
    | none => s.bump (pgFab 0) 0x0A4 c.unacked.length
    | some p => s.requeue p (c.unacked.map fun e => e.2)

def execConnectionResend (t partner : Nat) (s : State) : Host.Outcome State Fault Refusal :=
  done ((s.at t).onlyIf s.live (connectionResend partner))

/-- CONNECTION_OPEN_RETRY: every 100 ms while Opening or Down (R559, R560). -/
def connectionOpenRetry (node : Nat) (s : State) : State :=
  let c := s.conn node
  if (c.state == .opening || c.state == .down) && decide (c.openedAt + 100 * ms ≤ s.now) then s.openConn node else s

def execConnectionOpenRetry (t partner : Nat) (s : State) : Host.Outcome State Fault Refusal :=
  done ((s.at t).onlyIf s.live (connectionOpenRetry partner))

/-- CONN_RESET: Close, Down, and a new opening (R560, R579). -/
def connReset (cid : Nat) (k : Cmd) (s : State) : State :=
  let n := fieldAt k.raw 8 2
  if 1024 ≤ n then s.finish cid .malformed
  else (((s.sendSegment (s.segment n 3 0 0)).connFall n .down).openConn n).finish cid .ok

def execConnReset (t cid : Nat) (s : State) : Host.Outcome State Fault Refusal :=
  done ((s.at t).withCmd cid (·.isAdmin 0x76) (connReset cid))

/-! ### Numbered messages (R559, R562) -/

/-- The next message of an Open connection is accepted, and acknowledged; any other is discarded. -/
def State.accepted (s : State) (m : Msg) : Option State :=
  let c := s.conn m.src
  if c.state = .open && m.seq = c.seqRx then
    let s := s.setConn m.src { c with seqRx := (c.seqRx + 1) % 2 ^ 32 }
    some (s.sendSegment (s.segment m.src 0 m.seq c.offer.incarnation))
  else none

/-- A routed message of a type that arrives for this node. -/
def State.onMessage (s : State) (f : FabMsg) (type : Nat) (g : Nat → Msg → State → State) : State :=
  let m := wire f
  if !(s.port f.port).up || !m.whole || m.dest != s.nodeId || m.type != type then s
  else if m.major != 1 then s.bump (pgFab f.port) 0x0A4
  else match s.accepted m with
    | none => s
    | some s => g f.port m s

/-! ### Scatter (R567 to R569; 18 R603 to R605) -/

/-- Police a request, and go on with it in its class; one that is refused is answered BUSY. -/
def State.policed (s : State) (m : Msg) (g : Nat → State → State) : State :=
  match s.police m with
  | (s, none) => s.reply m m.cls { status := .busy, search := fieldAt m.payload 0 1 == 0 }
  | (s, some cls) => g cls s

/-- A new command that a message carries. -/
def State.carried (s : State) (k : Cmd) : State × Nat :=
  (({ s with qmg := { s.qmg with nextCid := s.qmg.nextCid + 1 } }).letIn s.qmg.nextCid k, s.qmg.nextCid)

/-- The shard is not, or no longer, this node's (04 R139). -/
def State.notOurs (s : State) (coll i : Nat) : Bool :=
  match s.fab.shardMaps.find? coll with
  | none => false
  | some m => match m[i]? with
    | none => true
    | some e => e.1 != s.nodeId && e.2.1 != s.nodeId

/-- The search that an admitted QUERY_SCATTER carries (R567, R568). -/
def State.shardSearch (s : State) (cid : Nat) (pl : List Byte) (coll shard asOf : Nat) : State :=
  match s.coll? coll with
  | none => s.finish cid .notFound
  | some c =>
    let dn := fieldAt pl 16 4
    let pn := fieldAt pl 20 4
    let raw := bytesAt pl 32 64
    let nav := bytesAt pl 96 (dn - 64)
    let predicate := bytesAt pl (32 + roundUp dn 16) pn
    let full := bytesAt pl (32 + roundUp dn 16 + roundUp pn 16) (fieldAt pl 24 4)
    if s.notOurs coll shard then s.refuseSearch cid .busy none
    else if dn != 64 + 2 * c.navDim then s.refuseSearch cid .malformed none
    else s.admitSearch cid coll asOf raw predicate (s.descOf c raw nav full predicate) false none

/-- QUERY_SCATTER_SEARCH (R568): R509 from step 3 on, under the header's Domain. -/
def queryScatterSearch (p : Nat) (m : Msg) (s : State) : State :=
  if fieldAt m.payload 0 1 != 0 then s
  else s.policed m fun cls s =>
    let coll := fieldAt m.payload 4 4
    let shard := fieldAt m.payload 2 2
    let asOf := fieldAt m.payload 8 8
    let raw := natLE 1 1 ++ natLE 1 0 ++ natLE 1 (16 + cls) ++ natLE 1 0 ++ natLE 4 m.requestId ++ natLE 4 coll ++ zeroBytes 4 ++ natLE 8 asOf ++
      zeroBytes 40
    let (s, cid) := s.carried { origin := .scatterSearch p m.src m.requestId shard cls, domain := m.domain, raw := raw, data := m.payload,
                                winBase := s.view.base, winSize := s.view.size }
    if (s.cmd? cid).isSome then s.shardSearch cid m.payload coll shard asOf else s

def execQueryScatterSearch (t : Nat) (m : FabMsg) (s : State) : Host.Outcome State Fault Refusal :=
  done ((s.at t).onlyIf (s.live && fieldAt m.payload 0 1 == 0) fun s => s.onMessage m 1 queryScatterSearch)

/-- A command that no fabric message may carry (R569). -/
def State.notCarried (s : State) (k : Cmd) : Bool :=
  [0x18, 0x19, 0x1A, 0x28, 0x20, 0x30, 0x31].contains (cmdOpcode k.raw) ||
  (s.areas k).any fun a => a.result && decide (65472 < a.len)

/-- QUERY_SCATTER_COMMAND (R569). -/
def queryScatterCommand (p : Nat) (m : Msg) (s : State) : State :=
  if fieldAt m.payload 0 1 != 1 then s
  else if !s.fabCtrl p 2 then s.bump (pgFab p) 0x0A4
  else s.policed m fun cls s =>
    let k : Cmd := { origin := .scatterCommand p m.src m.requestId cls, domain := m.domain, raw := bytesAt (m.payload ++ zeroBytes 128) 64 64,
                     data := m.payload, winBase := s.view.base, winSize := s.view.size }
    let cid := s.qmg.nextCid
    if cmdFormat k.raw = 1 && s.notCarried k then
      (({ s with qmg := { s.qmg with nextCid := cid + 1 } }).setCmd cid k).finish cid .malformed
    else (s.carried k).1

def execQueryScatterCommand (t : Nat) (m : FabMsg) (s : State) : Host.Outcome State Fault Refusal :=
  done ((s.at t).onlyIf (s.live && fieldAt m.payload 0 1 == 1) fun s => s.onMessage m 1 queryScatterCommand)

/-! ### Fencing (R576, R577) -/

/-- A higher epoch than E is taken, and the lease lapses at once (R577). -/
def State.takeEpoch (s : State) (e : Nat) : State :=
  if e ≤ s.fab.epoch then s
  else (s.withFab fun f => { f with epoch := e, expiry := min f.expiry s.tapeTime }).sendFault (pgFab 0) .leaseFenced 0 0 true

/-- The epoch check of a message that carries its sender's E; it is answered FENCED while the lease is Lapsed too. -/
def State.unfenced (s : State) (m : Msg) (g : State → State) : State :=
  let old := m.epoch < s.fab.epoch
  let s := s.takeEpoch m.epoch
  if old || !s.leaseHeld then s.replyStatus m .fenced else g s

/-! ### Replicated mutations (R570, R571) -/

/-- The command that a MUTATION_REPLICATE carries. -/
def replCmd (p : Nat) (m : Msg) : Cmd :=
  let pl := m.payload
  { origin := .replicate p m.src m.requestId m.cls, domain := m.domain, data := pl,
    raw := natLE 1 (fieldAt pl 6 1) ++ natLE 1 (fieldAt pl 7 1 % 2) ++ natLE 1 16 ++ natLE 1 0 ++ natLE 4 m.requestId ++ natLE 4 (fieldAt pl 0 4) ++
      natLE 2 (fieldAt pl 4 2) ++ zeroBytes 2 ++ natLE 8 (fieldAt pl 8 8) ++ natLE 8 32 ++ zeroBytes 16 ++ natLE 4 (fieldAt pl 16 4) ++ zeroBytes 12 }

/-- MUTATION_REPLICATE_RECEIVE: a Probe is answered; mutations are applied as a mutation command (R571). -/
def mutationReplicate (p : Nat) (m : Msg) (s : State) : State :=
  s.unfenced m fun s =>
    let k := replCmd p m
    let src := mutSource k.raw
    if bitOf (fieldAt m.payload 7 1) 1 then
      let v := (s.source? src).getD {}
      s.reply m m.cls { status := .ok, detail := v.next, watermark := some v.w }
    else if !k.isMut then s.replyStatus m .malformed
    else if (s.admission k).isNone && !bitOf (s.privs m.domain) 3 then (s.noteDenied m.domain (cmdOpcode k.raw) 4).replyStatus m .denied
    else
      let (s, cid) := s.carried k
      if s.canMutate cid (cmdOpcode k.raw) then mutate cid s else s

def execMutationReplicateReceive (t : Nat) (m : FabMsg) (s : State) : Host.Outcome State Fault Refusal :=
  done ((s.at t).onlyIf s.live fun s => s.onMessage m 3 mutationReplicate)

/-- What the Twin's reply says of its source: W and StampedAtNext (R571). -/
def State.replReply (s : State) (coll : Nat) (pl : List Byte) (probe : Bool) : State :=
  match s.fab.repls.find? coll with
  | none => s
  | some r =>
    let w := fieldAt pl 16 8
    if (statusOf (fieldAt pl 4 2)).carries then
      let held := r.held.filter fun h => w < h.pos
      if !probe then s.setRepl coll { r with twinW := w, held := held }
      else
        let done := (held.filter fun h => h.pos == w + 1).take (fieldAt pl 12 4)
        let held := held.drop done.length
        (s.setRepl coll { r with twinW := w, probing := false, held := held.map fun h => { h with sent := false } }).replicate coll
          (max s.wlk.watermark s.givenWatermark)
    else if fieldAt pl 4 2 = Status.fenced.code || probe then s.setRepl coll r.restart
    else s

/-- REPL_IDLE_SEND (R570): at most once every FAB_REPL_IDLE_US. A collection that waits for a Probe's reply sends the Probe. -/
def replIdleSend (coll : Nat) (s : State) : State :=
  match s.fab.repls.find? coll, s.twin? with
  | some r, some twin =>
    let w := s.wlk.watermark
    if r.broken || !s.leaseHeld || decide (s.now < r.idleAt + s.reg (pgFab 0) 0x07C * us) then s
    else if r.probing then s.sendProbes
    else if r.held.any fun h => !h.sent && decide (h.pos ≤ w) then s.replicate coll w
    else if w ≤ r.sentTo then s
    else (s.setRepl coll { r with idleAt := s.now, sentTo := w }).sendRepl twin coll r 0x08 true false w []
  | _, _ => s

def execReplIdleSend (t coll : Nat) (s : State) : Host.Outcome State Fault Refusal :=
  done ((s.at t).onlyIf s.live (replIdleSend coll))

/-- REPL_SET (R570, R579). -/
def replSet (cid : Nat) (k : Cmd) (s : State) : State :=
  let n := fieldAt k.raw 8 4
  let src := fieldAt k.raw 12 2
  if 256 ≤ src then s.finish cid .malformed
  else match s.openColl? n with
    | none => s.finish cid .notFound
    | some c =>
      if !bitOf (fieldAt k.raw 49 1) 0 then (s.withFab fun f => { f with repls := f.repls.erase n }).finish cid .ok
      else
        let w := s.wlk.watermark
        let r : Repl := match s.fab.repls.find? n with
          | none => { source := src, domain := c.owner, twinW := w, sentTo := w }
          | some r => { r with source := src, broken := false, twinW := if r.broken then w else r.twinW }
        (s.setRepl n r).finish cid .ok

def execReplSet (t cid : Nat) (s : State) : Host.Outcome State Fault Refusal :=
  done ((s.at t).withCmd cid (·.isAdmin 0x72) (replSet cid))

/-! ### Shard transfer: the receiver (R573) -/

def transferKey (src kind id : Nat) : Nat := src * 2 ^ 33 + kind * 2 ^ 32 + id

/-- Take one segment: the transfer as it then stands, or what is wrong with it. -/
def takeSegment (old : Option Transfer) (domain : Nat) (pl : List Byte) : Except Status Transfer :=
  let i := fieldAt pl 4 4
  let segs := fieldAt pl 8 4
  let x : Transfer := if i = 0 then { domain := domain, segs := segs } else old.getD { domain := domain, segs := 0 }
  if pl.length < 64 || segs != x.segs || x.next != i || x.domain != domain || segs ≤ i || fieldAt pl 12 8 != x.data.length then .error .malformed
  else
    let x := { x with next := i + 1, data := x.data ++ pl.drop 64 }
    if x.next = segs && crc32c x.data != fieldAt pl 20 4 then .error .uncorrected else .ok x

/-- Write a received volume: its units take pages of the Cold stream (13 R422, R423). -/
def State.installVolume (s : State) (n domain : Nat) (data : List Byte) : State × Status :=
  let gib := ceilDiv data.length (2 ^ 30)
  if 16384 ≤ n then (s, .malformed)
  else if s.bft.volumes.has n then (s, .busy)
  else match s.takeBase domain gib with
    | (s, false) => (s, .quota)
    | (s, true) =>
      let units := (List.range (ceilDiv data.length 16384)).map fun u => (u, bytesAt data (u * 16384) 16384)
      let full := units.filter fun u => u.2.any fun b => b != 0
      match s.allotMany 1 full.length with
      | none => (s, .mediaExhausted)
      | some (s, pages) =>
        let s := s.withBft fun f => { f with volumes := f.volumes.set n { owner := domain, gib := gib } }
        ((full.zip pages).foldl (fun (s : State) e =>
          let cells := (e.1.2.zipIdx.filter fun b => b.1 != 0).map fun b => (b.2, b.1)
          (s.mapUnit (unitKey n e.1.1) e.2 { page := e.2, data := cells }).pageEnded e.2) s, .ok)

/-- The last segment of an image matches: install the volumes that came with it, then the collection; all or nothing. -/
def State.installShard (s : State) (src domain id : Nat) (data : List Byte) : State × Status :=
  let vols := s.fab.transfers.filter fun e => e.1 / 2 ^ 32 == src * 2 + 1 && e.2.domain == domain && e.2.next == e.2.segs
  match Config.imageOf data with
  | none => (s, .malformed)
  | some ck =>
    if ck.coll.owner != domain then (s, .denied)
    else if 65536 ≤ id || (s.domain domain).state != .active then (s, .notFound)
    else
      let (s', st) := vols.foldl (fun (a : State × Status) e =>
        if a.2 = .ok then a.1.installVolume (e.1 % 2 ^ 32) domain e.2.data else a) (s, .ok)
      if st != .ok then (s, st)
      else match s'.installColl id ck with
        | (s', .ok) => (s', .ok)
        | (_, st) => (s, st)

/-- Drop every transfer from a node under a domain. -/
def State.dropTransfers (s : State) (src domain : Nat) : State :=
  s.withFab fun f => { f with transfers := f.transfers.filter fun e => !(e.1 / 2 ^ 33 == src && e.2.domain == domain) }

/-- A segment of a shard transfer arrives: of kind 0 for the image, 1 for a volume. -/
def shipReceive (kind : Nat) (m : Msg) (s : State) : State :=
  s.unfenced m fun s =>
    let id := fieldAt m.payload 0 4
    let key := transferKey m.src kind id
    match takeSegment (s.fab.transfers.find? key) m.domain m.payload with
    | .error st => (s.dropTransfers m.src m.domain).replyStatus m st
    | .ok x =>
      if kind = 0 && x.next = x.segs then
        let (s, st) := s.installShard m.src m.domain id x.data
        (s.dropTransfers m.src m.domain).replyStatus m st
      else (s.withFab fun f => { f with transfers := f.transfers.set key x }).replyStatus m .ok

/-- WINGS_SHIP_RECEIVE. -/
def execWingsShipReceive (t : Nat) (m : FabMsg) (s : State) : Host.Outcome State Fault Refusal :=
  done ((s.at t).onlyIf s.live fun s => s.onMessage m 4 fun _ => shipReceive 0)

/-- BULK_SEG_RECEIVE. -/
def execBulkSegReceive (t : Nat) (m : FabMsg) (s : State) : Host.Outcome State Fault Refusal :=
  done ((s.at t).onlyIf s.live fun s => s.onMessage m 5 fun _ => shipReceive 1)

/-! ### Cue transfer (R574) -/

/-- The payload of a CUE_SYNC: each entry's number in 8 bytes, then its image. -/
def State.cuePayload (s : State) (first n : Nat) : List Byte :=
  (List.range n).flatMap fun i => natLE 8 (first + i) ++ (s.cueEntry (first + i)).bytes

/-- CUE_SEND. -/
def cueSend (cid : Nat) (k : Cmd) (s : State) : State :=
  let first := fieldAt k.raw 52 2
  let n := fieldAt k.raw 49 1
  if n = 0 || 8 < n || 4096 < first + n then s.finish cid .malformed
  else match s.twin? with
    | none => s.finish cid .notFound
    | some twin =>
      let req := s.fab.nextReq
      let s := s.withFab fun f => { f with nextReq := (req + 1) % 2 ^ 32, reqs := f.reqs.set req { node := twin, what := .cues cid } }
      (s.setCmd cid { k with phase := .waiting }).sendMsg (s.ownMsg 8 (bitsOf (s.reg pgShp 0x04C) 14 12) twin req 0 s.fab.epoch (s.cuePayload first n))

def execCueSend (t cid : Nat) (s : State) : Host.Outcome State Fault Refusal :=
  done ((s.at t).withCmd cid (·.isAdmin 0x77) (cueSend cid))

/-- CUE_SYNC_RECEIVE: each entry is written under R50 and R60; the status is that of the first refused. -/
def cueSync (m : Msg) (s : State) : State :=
  s.unfenced m fun s =>
    if s.twin? != some m.src then s.replyStatus m .denied
    else
      let n := m.payload.length / 40
      let (s, st) := (List.range n).foldl (fun (a : State × Status) i =>
        let e := bytesAt m.payload (40 * i) 40
        if 4096 ≤ fieldAt e 0 8 then (a.1, if a.2 = .ok then .malformed else a.2)
        else
          let (s, st) := a.1.writeCue (fieldAt e 0 8) (entryOf (e.drop 8))
          (s, if a.2 = .ok then st else a.2)) (s, .ok)
      s.replyStatus m st

def execCueSyncReceive (t : Nat) (m : FabMsg) (s : State) : Host.Outcome State Fault Refusal :=
  done ((s.at t).onlyIf s.live fun s => s.onMessage m 8 fun _ => cueSync)

/-! ### Leases (R575, R576) -/

/-- The effect of a Grant; replication that was paused resumes once the lease is Held (R575, R576). -/
def State.grant (s : State) (e dur : Nat) : State :=
  let was := s.leaseHeld
  let s := if e < s.fab.epoch then s
    else if e = s.fab.epoch then s.withFab fun f => { f with expiry := max f.expiry (s.tapeTime + dur) }
    else s.withFab fun f => { f with epoch := e, expiry := s.tapeTime + dur }
  if was || !s.leaseHeld then s
  else (s.withFab fun f => { f with repls := f.repls.mapVal Repl.restart }).sendProbes

/-- The Report that answers a Grant or Query (R575). -/
def State.report (s : State) (m : Msg) : State :=
  s.sendMsg (s.ownMsg 6 0 m.src m.requestId m.domain s.fab.epoch
    (natLE 4 (s.reg (pgFab 0) 0x04C) ++ natLE 1 2 ++ zeroBytes 3 ++ natLE 8 0 ++ natLE 8 s.fab.expiry ++ natLE 1 (boolNat s.leaseHeld) ++ zeroBytes 7))

/-- A LEASE of one op arrives, for this group where it is a Grant or a Query, on a port that accepts leases. -/
def State.onLease (s : State) (f : FabMsg) (op : Nat) (g : Msg → State → State) : State :=
  s.onMessage f 6 fun p m s =>
    if s.fabCtrl p 3 && fieldAt m.payload 4 1 == op && (op == 2 || fieldAt m.payload 0 4 == s.reg (pgFab 0) 0x04C) then g m s else s

/-- LEASE_GRANT_RECEIVE: a duration outside the range of R575 is no Grant. -/
def leaseGrantMsg (m : Msg) (s : State) : State :=
  let dur := fieldAt m.payload 8 8
  if 1000000 ≤ dur && dur ≤ 10000000000 then (s.grant m.epoch dur).report m else s

def execLeaseGrantReceive (t : Nat) (m : FabMsg) (s : State) : Host.Outcome State Fault Refusal :=
  done ((s.at t).onlyIf s.live fun s => s.onLease m 0 leaseGrantMsg)

/-- LEASE_QUERY_RECEIVE. -/
def execLeaseQueryReceive (t : Nat) (m : FabMsg) (s : State) : Host.Outcome State Fault Refusal :=
  done ((s.at t).onlyIf s.live fun s => s.onLease m 1 fun m s => s.report m)

/-- LEASE_REPORT_RECEIVE: the transport takes it; the manual gives it no other effect. -/
def execLeaseReportReceive (t : Nat) (m : FabMsg) (s : State) : Host.Outcome State Fault Refusal :=
  done ((s.at t).onlyIf s.live fun s => s.onLease m 2 fun _ s => s)

/-- LEASE_LAPSE: the lease is Lapsed from X on by R575 itself; nothing else changes. -/
def execLeaseLapse (t : Nat) (s : State) : Host.Outcome State Fault Refusal := done (s.at t)

/-- ADMIN LEASE_GRANT (R575, R579). -/
def leaseGrant (cid : Nat) (k : Cmd) (s : State) : State :=
  let dur := fieldAt k.raw 52 4
  if dur < 1000 || 10000000 < dur then s.finish cid .malformed
  else (s.grant (cmdPos k.raw) (dur * us)).finish cid .ok

def execLeaseGrant (t cid : Nat) (s : State) : Host.Outcome State Fault Refusal :=
  done ((s.at t).withCmd cid (·.isAdmin 0x73) (leaseGrant cid))

/-! ### Replies received (R564; 01 R26) -/

/-- RESULT_GATHER_RECEIVE: the reply completes the request it answers; a reply that answers none is discarded. -/
def resultGather (m : Msg) (s : State) : State :=
  match s.fab.reqs.find? m.requestId with
  | none => s
  | some r =>
    if r.node != m.src then s
    else
      let st := statusOf (fieldAt m.payload 4 2)
      let fenced := st == .fenced && decide (s.fab.epoch < m.epoch)
      let s := (s.withFab fun f => { f with reqs := f.reqs.erase m.requestId })
      let s := if fenced then s.takeEpoch m.epoch else s
      match r.what with
      | .shard n i => s.shardReply n i m.payload
      | .replicate c => (if fenced then s.sticky (pgFab 0) 0x044 0x80 else s).replReply c m.payload false
      | .probe c => (if fenced then s.sticky (pgFab 0) 0x044 0x80 else s).replReply c m.payload true
      | .ship cid => s.shipReply cid st
      | .cues cid => s.finish cid st

def execResultGatherReceive (t : Nat) (m : FabMsg) (s : State) : Host.Outcome State Fault Refusal :=
  done ((s.at t).onlyIf s.live fun s => s.onMessage m 2 fun _ => resultGather)

/-! ### Data flits (R555, R556) -/

/-- A whole message has come over a port: it goes where its type and destination say. -/
def State.deliver (s : State) (p : Nat) (m : Msg) : State :=
  let f : FabMsg := { port := p, header := m.header, payload := m.payload }
  if !m.whole then s
  else if m.dest = 0xFFFF then
    match m.type with
    | 7 => tapeBeaconReceive p m.payload s
    | 9 => if m.payload.length = 32 then versionOffer p m.payload s else s
    | _ => s.bump (pgFab p) 0x0A4
  else if m.dest != s.nodeId then s.forward p m
  else match m.type with
    | 0 => (((s.onSegment f 0 transportAck).onSegment f 1 transportOpen).onSegment f 2 transportOpenReply).onSegment f 3 transportClose
    | 1 => s.onMessage f 1 fun p m s =>
        match fieldAt m.payload 0 1 with
        | 0 => queryScatterSearch p m s
        | 1 => queryScatterCommand p m s
        | _ => s
    | 2 => s.onMessage f 2 fun _ => resultGather
    | 3 => s.onMessage f 3 mutationReplicate
    | 4 => s.onMessage f 4 fun _ => shipReceive 0
    | 5 => s.onMessage f 5 fun _ => shipReceive 1
    | 6 => match fieldAt m.payload 4 1 with
      | 0 => s.onLease f 0 leaseGrantMsg
      | 1 => s.onLease f 1 fun m s => s.report m
      | _ => s.onLease f 2 fun _ s => s
    | 8 => s.onMessage f 8 fun _ => cueSync
    | _ => s.bump (pgFab p) 0x0A4

/-- The last flit of a message on a channel: the message is delivered and its buffer's credit returns, unless R557 or 18 R596
holds it. -/
def State.endMessage (s : State) (p vc : Nat) (bytes : List Byte) : State :=
  let header := bytes.take 32
  let m : Msg := { header := header, payload := bytesAt bytes 32 (fieldAt header 20 4) }
  let n := bytes.length / 240
  let s' := s.deliver p m
  if vc = 3 || vc = 7 || s.fab.forwards.length < s'.fab.forwards.length then s'
  else if vc = 1 && s'.admqFull then s'.setPort p { s'.port p with owed := (s'.port p).owed + n }
  else s'.emit (.credit p vc n)

/-- DATA_FLIT_RECEIVE (R544, R553 to R557). -/
def dataFlit (p : Nat) (flit : List Byte) (uncorrectable : Bool) (s : State) : State :=
  let f := s.port p
  if uncorrectable then (((s.bump (pgFab p) 0x090).bump (pgFab p) 0x094).sendNak p)
  else if !flitOk flit then (s.bump (pgFab p) 0x094).sendNak p
  else if fieldAt flit 0 1 != 1 then s
  else
    let s := ((s.setPort p (f.takeAck flit)).credited p).returnOwed p
    let f := s.port p
    if fieldAt flit 2 2 != f.rxSeq then (if f.nakSent then s else s.sendNak p)
    else
      let flags := fieldAt flit 1 1
      let vc := flags % 8
      let bytes := (if bitOf flags 3 then [] else f.rx.getD vc []) ++ bytesAt flit 8 240
      let s := (s.setPort p { f with rxSeq := (f.rxSeq + 1) % 65536, nakSent := false,
                                     rx := if bitOf flags 4 then f.rx.erase vc else f.rx.set vc bytes }).bump64 (pgFab p) 0x0B8
      let s := if vc = 3 || vc = 7 then s.emit (.credit p vc 1) else s
      if bitOf flags 4 then s.endMessage p vc bytes else s

def execDataFlitReceive (t port : Nat) (flit : List Byte) (uncorrectable : Bool) (s : State) : Host.Outcome State Fault Refusal :=
  done ((s.at t).onlyIf (s.live && (s.port port).up) (dataFlit port flit uncorrectable))

/-! ### The other ADMIN operations (R552, R558, R566, R579) -/

/-- ROUTE_SET. -/
def routeSet (cid : Nat) (k : Cmd) (s : State) : State :=
  let n := fieldAt k.raw 8 2
  let p := fieldAt k.raw 49 1
  let a := fieldAt k.raw 50 1
  if 1024 ≤ n || 4 ≤ p || (4 ≤ a && a != 0xFF) then s.finish cid .malformed
  else (s.withFab fun f => { f with routes := f.routes.set n (p, a, fieldAt k.raw 51 1) }).finish cid .ok

def execRouteSet (t cid : Nat) (s : State) : Host.Outcome State Fault Refusal :=
  done ((s.at t).withCmd cid (·.isAdmin 0x70) (routeSet cid))

/-- SHARDMAP_SET. -/
def shardmapSet (cid : Nat) (k : Cmd) (s : State) : State :=
  let n := fieldAt k.raw 8 4
  let count := fieldAt k.raw 52 2
  let es := (List.range count).map fun i =>
    let e := s.cmdRead k (cmdPtrA k.raw + 8 * i) 8
    (fieldAt e 0 2, fieldAt e 2 2, bitOf (fieldAt e 4 1) 0)
  if count = 0 || 1024 < count then s.finish cid .malformed
  else if (s.openColl? n).isNone then s.finish cid .notFound
  else if es.any fun e => 1024 ≤ e.1 || 1024 ≤ e.2.1 then s.finish cid .malformed
  else (s.withFab fun f => { f with shardMaps := f.shardMaps.set n es }).finish cid .ok

def execShardmapSet (t cid : Nat) (s : State) : Host.Outcome State Fault Refusal :=
  done ((s.at t).withCmd cid (·.isAdmin 0x71) (shardmapSet cid))

/-- FEATURE_FLOOR (R552). -/
def featureFloor (cid : Nat) (k : Cmd) (s : State) : State :=
  let v := cmdPos k.raw
  let lacks (mask : Nat) : Bool := (v ||| mask) != mask
  if v ||| s.fab.floor != v then s.finish cid .malformed
  else if lacks ownFeatures || s.fab.ports.any (fun f => f.up && lacks (f.offer.getD {}).feature) ||
      s.fab.conns.any (fun e => e.2.state == .open && lacks e.2.offer.feature) then s.finish cid .version
  else (s.withFab fun f => { f with floor := v }).finish cid .ok

def execFeatureFloor (t cid : Nat) (s : State) : Host.Outcome State Fault Refusal :=
  done ((s.at t).withCmd cid (·.isAdmin 0x74) (featureFloor cid))

end Sys2Proof.Machine
end

