-- ==== Sys2Proof/Machine/Reset.lean ====
section
/-!
DEFINITION. What a reset ends: the work of one command in the engines, the completion that 15 R514 gives it, and the reset of one
block instance (20 R640, R641; 23 R714).
-/

namespace Sys2Proof.Machine

/-! ### Ending the work of a command -/

/-- A command that waits lets go: what it closed is open again, what it stopped goes on (15 R514: wholly before). -/
def State.undoWait (s : State) (n : Nat) : State :=
  let free (c : Option Nat) : Option Nat := if c = some n then none else c
  let preds := (s.enc.scores.filter fun e => e.2.isClosed == some n).map fun e => e.1
  let heirs := s.enc.scores.filter fun e => preds.any fun p => e.2.adopts == some p
  let s := heirs.foldl (fun s e =>
    let s := (s.giveHeart e.2.owner e.2.extents).giveTop e.2.owner e.2.frames
    { s with enc := { s.enc with scores := s.enc.scores.erase e.1 } }) s
  { s with
    wlk := { s.wlk with colls := s.wlk.colls.mapVal fun c => { c with isClosed := free c.isClosed } }
    bft := { s.bft with volumes := s.bft.volumes.mapVal (fun v => { v with isClosed := free v.isClosed }), waits := s.bft.waits.erase n }
    gth := { s.gth with tables := s.gth.tables.mapVal fun t => { t with isClosed := free t.isClosed, switchers := t.switchers.erase n } }
    enc := { s.enc with scores := s.enc.scores.mapVal fun v => { v with isClosed := free v.isClosed } }
    qmg := { s.qmg with queues := s.qmg.queues.mapVal fun q => { q with draining := free q.draining, holdBy := free q.holdBy } }
    dom := { s.dom with doms := s.dom.doms.mapVal fun d => { d with retirers := d.retirers.erase n } }
    fab := { s.fab with ships := s.fab.ships.erase n,
                        reqs := s.fab.reqs.filter fun e => e.2.what != .ship n && e.2.what != .cues n }
    cst := { s.cst with uniques := s.cst.uniques.erase n }
    cal := { s.cal with windows := s.cal.windows.mapVal (fun w => { w with serves := w.serves.erase n }) } }

/-- A search leaves the walker, its scores in flight discarded (04 R147). -/
def State.endSearch (s : State) (n : Nat) : State :=
  if (s.search? n).isNone then s
  else
    let s := s.dropSearch n
    { s with wlk := { s.wlk with
      convoys := (s.wlk.convoys.mapVal fun (v : Convoy) => { v with pairs := v.pairs.filter fun p => p.1 != n }).filter fun e => !e.2.pairs.isEmpty } }

/-- A command's events leave their batches; a batch left with none is gone (08 R294). -/
def State.endEncode (s : State) (n : Nat) : State :=
  match s.enc.cmds.find? n with
  | none => s
  | some c =>
    let cut (b : Batch) : Batch := { b with events := b.events.filter fun e => e.cid != n }
    let s := s.withEnc fun x =>
      { x with cmds := x.cmds.erase n, encoded := x.encoded.erase n, vectors := x.vectors.erase n,
               closed := (x.closed.map cut).filter (fun b => !b.events.isEmpty),
               running := (x.running.mapVal cut).filter fun e => !e.2.events.isEmpty }
    s.trimPool c.score

/-- A command's reads end; pages it had allotted for merges stay unwritten, and its programs run on in the devices (13 R428). -/
def State.endFlash (s : State) (n : Nat) : State :=
  let mine := s.bft.ops.filter fun e => match e.2.task with
    | .read c _ | .merge c _ _ _ _ => c == n
    | _ => false
  mine.foldl (fun s e => match e.2.task with
    | .merge _ _ target _ _ => (s.endOp e.1).pageEnded target
    | _ => s.endOp e.1) s

/-- The runs of a command let their units go (06 R227). -/
def State.endRuns (s : State) (n : Nat) : State :=
  let s := s.withPnm fun b => { b with closing := b.closing.erase n }
  (s.pnm.runs.filter fun e => e.2.cid == n).foldl (fun s e => s.dropRun e.1) s

/-- The Entrance that a command started is abandoned (03 R106). -/
def State.endEntrance (s : State) (n : Nat) : State :=
  (s.wlk.colls.filter fun e => match e.2.entering with
    | some (some c, _, _) => c == n
    | _ => false).foldl (fun s e => s.abandonEntrance e.1) s

/-- The work of a command ends in every block. -/
def State.endWork (s : State) (n : Nat) : State :=
  ((((((s.endSearch n).endEncode n).endFlash n).endRuns n).endEntrance n).undoWait n)

/-! ### What R514 says of a command -/

/-- Whether a command's effect was committed, so that it completes OK (R514, R689): a retirement, whose state the domain table
keeps (16 R525); WARM_START itself; a switch that has moved the pointer. What else is outstanding has not taken effect. -/
def State.committed (s : State) (n : Nat) (k : Cmd) : Bool :=
  (cmdOpcode k.raw == 0x38 && cmdAdminOp k.raw == 0x90 && k.phase != .admitted) ||
  s.dom.doms.any fun e => e.2.retirers.contains n

/-- The completion of R514: OK or ABORTED, with the items stamped or events committed; for an ENCODE_SEARCH 1 more than a
decided InsertOutcome. -/
def State.owed (s : State) (n : Nat) (k : Cmd) : Bool × Nat :=
  (s.committed n k,
   if k.isMut || cmdOpcode k.raw = 0x03 then k.progress
   else if cmdOpcode k.raw = 0x04 then ((((s.search? n).bind fun q => q.encoded).bind fun e => e.insertOutcome).map fun o => o + 1).getD 0
   else 0)

/-! ### The work of a block instance -/

/-- The fabric port that a message for a node leaves on is `p`. -/
def State.leavesOn (s : State) (node p : Nat) : Bool := s.routePort node == some p

/-- The commands that have work in the instance on a page (R640). -/
def State.worksIn (s : State) (page : Nat) : List Nat :=
  let ops (ok : FlashOp → Bool) : List Nat := (s.bft.ops.filter fun e => ok e.2).filterMap fun e => e.2.task.cid?
  let windows (lo hi : Nat) : List Nat := (s.cal.windows.filter fun e => decide (lo ≤ e.1) && decide (e.1 < hi)).flatMap fun e => e.2.serves
  let all : List Nat := match blockAt page with
    | none => []
    | some (b, i) => match b with
      | .qmg => (s.qmg.cmds.filter fun e => e.2.phase == .waiting && cmdOpcode e.2.raw == 0x20).map (fun e => e.1) ++
          (s.wlk.searches.filter fun e => e.2.stage == .ringWait || e.2.stage == .evidence).map fun e => e.1
      | .cal => windows 0 0x10000
      | .hmc => windows (0x1000 + 64 * i) (0x1040 + 64 * i)
      | .pnm => (s.pnm.runs.filter fun e => e.2.stack == i).map (fun e => e.2.cid) ++ (s.wlk.convoys.filter fun e =>
          e.2.issued && granuleStack e.2.row == i).flatMap fun e => e.2.queries
      | .wlk => s.wlk.searches.map fun e => e.1
      | .cst => s.cst.uniques.map fun e => e.1
      | .enc => ((s.enc.running.find? i).map batchCids).getD []
      | .gth => s.gth.tables.flatMap fun e => e.2.switchers.filter fun n => s.qmg.cmds.has n
      | .bft => ops (fun _ => true) ++ s.bft.waits.map fun e => e.1
      | .fch => ops (fun o => blockChan (pageBlock o.page) == i) ++ windows (0x2000 + i) (0x2001 + i)
      | .fab => windows (0x100 + 8 * i) (0x108 + 8 * i) ++ (s.fab.ships.filter fun e => s.leavesOn e.2.node i).map fun e => e.1
      | _ => []
  all.eraseDups

/-- The instance's own queues and engines go idle (R640): DOE mailboxes, the port's partly received messages, egress queues, a
running batch or window. Fabric messages lost so are sent again by their connections (17 R559). -/
def State.idleBlock (s : State) (page : Nat) : State :=
  match blockAt page with
  | none => s
  | some (b, i) => match b with
    | .cxl => s.withCxl fun c => { c with doeBusy := [false, false, false] }
    | .fab => s.setPort i { s.port i with rx := [], segs := [] }
    | .shp => { s with shp := { s.shp with ports := s.shp.ports.map fun q => { q with tape := [], fault := [], service := [], sending := none } } }
    | .hmc => { s with cal := { s.cal with windows := s.cal.windows.filter fun e => !(decide (0x1000 + 64 * i ≤ e.1) && decide (e.1 < 0x1040 + 64 * i)) } }
    | .fch => { s with cal := { s.cal with windows := s.cal.windows.erase (0x2000 + i) } }
    | .cal => { s with cal := { s.cal with windows := [] } }
    | .enc => s.withEnc fun x => { x with running := x.running.erase i }
    | _ => s

/-- Start the reset of the instance on a page; one that runs is joined (R640; 23 R714). -/
def State.startReset (s : State) (page : Nat) : State :=
  if s.flt.resets.has page then s else { s with flt := { s.flt with resets := s.flt.resets.set page s.now } }

/-- The reset of an instance ends: its commands complete, and it takes requests again (R640). -/
def blockResetDone (page : Nat) (s : State) : State :=
  if !s.flt.resets.has page then s
  else
    let ends := (s.worksIn page).filterMap fun n => (s.cmd? n).map fun k => (n, k, s.owed n k)
    let s := (ends.foldl (fun s e => s.endWork e.1) s).idleBlock page
    let s := { s with flt := { s.flt with resets := s.flt.resets.erase page } }
    ends.foldl (fun s e => s.postOwed e.1 e.2.1 e.2.2.1 e.2.2.2) s

/-- BLOCK_RESET_DONE (R640). -/
def execBlockResetDone (t page : Nat) (s : State) : Host.Outcome State Fault Refusal :=
  done ((s.at t).onlyIf s.live (blockResetDone page))

end Sys2Proof.Machine
end

