-- ==== Sys2Proof/Machine/Faults.lean ====
section
/-!
DEFINITION. Faults: the fault collector, reactions, ALIVE_OUT and the Drydown, Prompter supervision, margins and wear notices,
fault injection (20 R628 to R658; 24 R733).
-/

namespace Sys2Proof.Machine

def State.withFlt (s : State) (f : FltBlock → FltBlock) : State := { s with flt := f s.flt }

/-! ### Fault messages (R628 to R631) -/

def FaultMsg.block (m : FaultMsg) : Nat := m.w0 % 256
def FaultMsg.inst (m : FaultMsg) : Nat := bitsOf m.w0 15 8
def FaultMsg.kind (m : FaultMsg) : Nat := bitsOf m.w0 23 16
def FaultMsg.severity (m : FaultMsg) : Nat := bitsOf m.w0 26 24

/-- The kinds of R631. -/
def kindCodes : List Nat :=
  List.range' 0x01 6 ++ List.range' 0x10 8 ++ List.range' 0x20 5 ++ List.range' 0x30 3 ++ List.range' 0x40 9 ++ List.range' 0x50 6 ++
    List.range' 0x60 4

/-- Block, kind and severity are none of the reserved ones (R629 to R631). -/
def FaultMsg.known (m : FaultMsg) : Bool :=
  Block.all.any (fun b => b.code == m.block) && kindCodes.contains m.kind && m.severity ≤ 4

/-- The instance is one the block has (R652); FAB also sends 0xFF. -/
def FaultMsg.present (m : FaultMsg) : Bool :=
  Block.all.any fun b => b.code == m.block && (decide (m.inst < b.pages.2) || (b == .fab && m.inst == 0xFF))

/-- The page whose common header the message latches and counts in: instance 0's for a node-wide fault, and the one page of the
Prompters whichever Prompter sends (R629, R646). -/
def FaultMsg.page (m : FaultMsg) : Nat := if m.inst = 0xFF || m.block = pgPrm then m.block else m.block + m.inst

/-! ### Latches and counts (R633, R634) -/

def State.latchAt (s : State) (page : Nat) : Latch := s.flt.latches.getD page {}

/-- The latch after one more fault; `takes`: the fault may latch there or set Overflow. -/
def Latch.note (l : Latch) (m : FaultMsg) (takes : Bool) (most : Nat) : Latch :=
  { msg := if takes && l.msg.w0 = 0 then m else l.msg, overflow := l.overflow || (takes && l.msg.w0 != 0), count := min most (l.count + 1) }

/-- FLT records a message: the block's latch where the reaction includes Interrupt, the global latch, the kind counter. -/
def State.recordFault (s : State) (m : FaultMsg) (takes : Bool) : State :=
  s.withFlt fun f =>
    { f with latches := f.latches.set m.page ((s.latchAt m.page).note m takes 0xFFFF), glob := f.glob.note m true 0xFFFF,
             kindCnt := f.kindCnt.set m.kind (min 0xFFFFFFFF (f.kindCnt.getD m.kind 0 + 1)) }

/-! ### Reactions (R637 to R643) -/

/-- The reaction mask (R637). -/
def State.reaction (s : State) (m : FaultMsg) : Nat :=
  let o := s.regAt pgFlt 0x078 m.kind
  if bitOf o 5 then bitsOf o 4 0 else bitsOf (s.reg m.page 0x034) (5 * m.severity + 4) (5 * m.severity)

def State.prompter (s : State) (p : Nat) : Prompter := s.prm.getD p {}

def State.setPrompter (s : State) (p : Nat) (v : Prompter) : State := { s with prm := s.prm.set p v }

/-- A non-maskable trap to one Prompter (R617, R638). -/
def State.trap (s : State) (p : Nat) : State :=
  (s.setPrompter p { s.prompter p with trapped := true, waiting := false }).emit (.trap p)

/-- The trap of a reaction: to the lowest-numbered Prompter not held in reset (R638). -/
def State.trapLowest (s : State) : State :=
  match (List.range 8).find? fun p => (s.prompter p).heldFrom.isNone with
  | some p => s.trap p
  | none => s

/-- A Prompter is reset and held (R641, R647). -/
def State.resetPrompter (s : State) (p : Nat) : State :=
  if 8 ≤ p then s
  else s.setPrompter p { s.prompter p with running := false, heldFrom := some s.now, missed := false, waiting := false }

/-- BlockReset (R640, R641). -/
def State.resetFor (s : State) (m : FaultMsg) : State :=
  if m.inst = 0xFF || [pgFlt, pgCbd, pgSec].contains m.block then s
  else if m.block = pgPrm then s.resetPrompter m.inst
  else s.startReset m.page

/-- StopAlive (R642, R643): the node enters the fault state, or its Drydown restarts. -/
def State.stopAlive (s : State) : State :=
  s.withFlt fun f => { f with faulted := true, dryFrom := if f.stuck then none else some s.tapeTime }

/-- A start has failed: a cold start begins at once (22 R684, R685). FailedStarts stands at what its step 2 wrote. -/
def State.failStart (s : State) : State :=
  { s with cal := { s.cal with phase := .starting true, cause := 5, startFrom := s.now, tripWait := false,
                               failedStarts := min 255 (s.cal.failedStarts + 1) } }

/-- The Fault source's message of a ChipReset fault, without moderation (R639). -/
def State.chipMessage (s : State) (page : Nat) : State :=
  let src := page * 8
  if bitOf (s.route src) 31 && linkUp s then levelSourceAssert src (s.armVec (vecKey 0 (bitsOf (s.route src) 10 0))) else s

/-- ChipReset (R639; 24 R743). -/
def State.chipReset (s : State) (m : FaultMsg) : State :=
  match s.cal.phase with
  | .running =>
    let s := s.chipMessage m.page
    if s.flt.chipReset.isSome then s else s.withFlt fun f => { f with chipReset := some s.now }
  | .starting _ => if s.cal.tripWait && m.kind = 0x55 then s else s.failStart
  | _ => s

/-- Whether every Prompter has missed its heartbeat without a reset between (R646). -/
def State.allMissed (s : State) : Bool := s.prm.all fun p => p.missed

/-- FLT takes one message (R632 to R643). -/
def State.takeFault (s : State) (m : FaultMsg) : State :=
  let r := s.reaction m
  let reset := bitOf r 3 || (m.kind == 0x50 && s.allMissed)
  let s := s.recordFault m (bitOf r 0)
  let s := s.when (bitOf r 1) (·.trapLowest)
  let s := s.when (bitOf r 2) (·.resetFor m)
  let s := s.when (bitOf r 4) (·.stopAlive)
  s.when reset (·.chipReset m)

/-- The node has power, clocks and no reset input low: faults arrive, in a start too. -/
def State.awake (s : State) : Bool := s.cal.phase != .held && s.cal.phase != .tripped

/-- FAULT_MESSAGE (R632): the message that arrived first and waits; with none waiting, a message that arrives now. -/
def faultMessage (m : FaultMsg) (s : State) : State :=
  match s.flt.inbox with
  | x :: rest => (s.withFlt fun f => { f with inbox := rest }).takeFault x
  | [] => if m.known && (m.present || (m.block == pgPrm && decide (m.inst < 8))) then s.takeFault m else s

def execFaultMessage (t : Nat) (w0 w1 w2 w3 : Word) (s : State) : Host.Outcome State Fault Refusal :=
  done ((s.at t).onlyIf s.awake (faultMessage { w0 := w0.toNat, w1 := w1.toNat, w2 := w2.toNat, w3 := w3.toNat }))

/-! ### Clearing (R635, R656) -/

/-- FLT_CNT_CLEAR. -/
def execFltCntClear (t fn page : Nat) (val : Word) (s : State) : Host.Outcome State Fault Refusal :=
  done ((s.at t).onlyIf (s.live && fn == 0 && bitOf val.toNat 30) fun s => s.withFlt fun f => { f with latches := f.latches.erase page })

/-- FLT_GCNT_CLEAR. -/
def execFltGcntClear (t fn : Nat) (val : Word) (s : State) : Host.Outcome State Fault Refusal :=
  done ((s.at t).onlyIf (s.live && fn == 0 && bitOf val.toNat 30) fun s => s.withFlt fun f => { f with glob := {} })

/-! ### The Drydown (R643 to R645) -/

/-- The Drydown has lasted FLT_DRY_US of tracked tape time. -/
def State.dryTime (s : State) : Bool :=
  match s.flt.dryFrom with
  | some d => s.flt.faulted && !s.flt.stuck && decide (d + s.reg pgFlt 0x05C * us ≤ s.tapeTime)
  | none => false

/-- The recoveries of the window before now. -/
def State.recentRecoveries (s : State) : Nat :=
  (s.flt.recovered.filter fun x => decide (s.tapeTime ≤ x + s.reg pgFlt 0x060 * ms)).length

/-- A Drydown ends (R644). -/
def State.endDrydown (s : State) : State :=
  if s.recentRecoveries < s.reg pgFlt 0x064 then
    s.withFlt fun f => { f with faulted := false, dryFrom := none, recovered := s.tapeTime :: f.recovered,
                                recoverCnt := min 0xFFFF (f.recoverCnt + 1), lastToggle := s.now }
  else (s.withFlt fun f => { f with stuck := true, dryFrom := none }).sendFault pgFlt .recoveryLimit

/-- DRYDOWN_END. -/
def execDrydownEnd (t : Nat) (s : State) : Host.Outcome State Fault Refusal :=
  done ((s.at t).onlyIf (s.live && bitOf (s.reg pgFlt 0x040) 0 && (s.at t).dryTime) (·.endDrydown))

/-- DRYDOWN_ENABLE_SET: a write of FLT_CTRL that sets DrydownEnable. -/
def execDrydownEnableSet (t fn : Nat) (val : Word) (s : State) : Host.Outcome State Fault Refusal :=
  done ((s.at t).onlyIf (s.live && fn == 0 && bitOf val.toNat 0) fun s =>
    (s.writeFields pgFlt 0x040 val.toNat).when s.dryTime (·.endDrydown))

/-- FLT_RELEASE (R644): not counted as a recovery. -/
def execFltRelease (t fn : Nat) (val : Word) (s : State) : Host.Outcome State Fault Refusal :=
  done ((s.at t).onlyIf (s.live && fn == 0 && val == 1 && s.flt.faulted) fun s =>
    s.withFlt fun f => { f with faulted := false, stuck := false, dryFrom := none, lastToggle := s.now })

/-- ALIVE_TOGGLE (R642). ALIVE_OUT has stopped since a ChipReset fault (R639). -/
def execAliveToggle (t : Nat) (s : State) : Host.Outcome State Fault Refusal :=
  done ((s.at t).onlyIf (s.live && !s.flt.faulted && s.flt.chipReset.isNone && decide (s.flt.lastToggle + 500 * us ≤ (s.at t).now)) fun s =>
    (s.withFlt fun f => { f with alive := !f.alive, lastToggle := s.now }).emit (.pin "ALIVE_OUT" (!s.flt.alive)))

/-! ### Injection (R651, R652) -/

/-- FLT_INJ_GO. -/
def fltInjGo (s : State) : State :=
  let w0 := s.reg pgFlt 0x090
  let m : FaultMsg := { w0 := w0 ||| 0x08000000, w1 := s.reg pgFlt 0x094, w2 := s.reg pgFlt 0x098, w3 := s.reg pgFlt 0x09C }
  if m.known && m.present then (s.withFlt fun f => { f with inbox := f.inbox ++ [m] }).sticky pgFlt 0x044 8 else s

def execFltInjGo (t fn : Nat) (val : Word) (s : State) : Host.Outcome State Fault Refusal :=
  done ((s.at t).onlyIf (s.awake && fn == 0 && val == 1 && s.dom.ftm) fltInjGo)

/-! ### Prompter supervision (R646, R647) -/

/-- A fault of one Prompter, its number as Instance. -/
def State.prompterFault (s : State) (k : Kind) (p detail : Nat) : State :=
  let m := faultMsg s pgPrm k detail 0 false
  s.withFlt fun f => { f with inbox := f.inbox ++ [{ m with w0 := m.w0 + p * 256 }] }

/-- PROMPTER_HEARTBEAT. -/
def execPrompterHeartbeat (t prompter : Nat) (s : State) : Host.Outcome State Fault Refusal :=
  done ((s.at t).onlyIf (s.live && decide (prompter < 8) && (s.prompter prompter).running) fun s =>
    s.setPrompter prompter { s.prompter prompter with beat := s.now, trapped := false })

/-- PROMPTER_HANG: no heartbeat for FLT_WDOG_US; the interval begins again. -/
def prompterHang (p : Nat) (s : State) : State :=
  ((s.setPrompter p { s.prompter p with missed := true, beat := s.now }).bump pgPrm 0x048).prompterFault .prompterHang p 0

def execPrompterHang (t prompter : Nat) (s : State) : Host.Outcome State Fault Refusal :=
  done ((s.at t).onlyIf (s.live && decide (prompter < 8) && (s.prompter prompter).running &&
    decide ((s.prompter prompter).beat + s.reg pgFlt 0x070 * us ≤ (s.at t).now)) (prompterHang prompter))

/-- PROMPTER_RESET_RELEASE: the others have restarted its rare paths, within 10 ms. -/
def execPrompterResetRelease (t prompter : Nat) (s : State) : Host.Outcome State Fault Refusal :=
  done ((s.at t).onlyIf (s.live && decide (prompter < 8) && (s.prompter prompter).heldFrom.isSome) fun s =>
    s.setPrompter prompter { s.prompter prompter with running := true, heldFrom := none, beat := s.now })

/-- What a control decision may not name: kind 0, a walker context, by the search that holds it; kind 1, an extent, raw by its
handle; kind 2, a Top frame. -/
def State.decisionBad (s : State) (kind target : Nat) : Bool :=
  match kind with
  | 0 => s.wlk.searches.any fun e => e.1 == target && e.2.stage != .queued
  | 1 => s.tier.raw.has target || s.tier.withheld.contains target
  | _ => s.tier.frames.has target

/-- CONTROL_DECISION (R647): a decision that passes is applied by its scheduler, which changes no state of this manual. -/
def controlDecision (p code target kind : Nat) (s : State) : State :=
  if s.decisionBad kind target then ((s.bump pgPrm 0x04C).prompterFault .controlMismatch p code).trap p else s

def execControlDecision (t prompter code target kind : Nat) (s : State) : Host.Outcome State Fault Refusal :=
  done ((s.at t).onlyIf (s.live && decide (prompter < 8) && (s.prompter prompter).running) (controlDecision prompter code target kind))

/-! ### Margins (R648, R649, R658) -/

/-- A signed register. -/
def State.signedReg (s : State) (page off : Nat) : Int := signedOf 32 (s.reg page off)

/-- Whether a notice is raised by a measurement, and what holds then (R649). -/
def Notice.take (n : Notice) (now : Nat) (bad : Bool) : Bool × Notice :=
  if bad then (!n.raised, { raised := true })
  else
    let from_ := n.goodFrom.getD now
    (false, { raised := n.raised && decide (now < from_ + 60 * oneSec), goodFrom := some from_ })

/-- One measurement of measure `m`, for the block on `page`; `high`: a value at or above the threshold is bad. -/
def State.measure (s : State) (page : Nat) (k : Kind) (m : Nat) (threshold value : Int) (detail : Nat) (high : Bool) : State :=
  if threshold = 0 then s
  else
    let key := m * 65536 + detail / 65536
    let old := (s.pwr.margins.find? key).getD { last := value, worst := value }
    let new : Margin := { last := value, worst := if high then max old.worst value else min old.worst value }
    let place := page * 2 ^ 20 + key
    let (raised, n) := (s.pwr.notices.getD place {}).take s.now (if high then decide (threshold ≤ value) else decide (value ≤ threshold))
    let s := { s with pwr := { s.pwr with margins := s.pwr.margins.set key new, notices := s.pwr.notices.set place n } }
    s.when raised fun s => (s.bump pgPwr 0x22C).sendFault page k detail

/-- A lane that locks: of the CXL link (port 4), or of a fabric port, its Understudy included. -/
def State.laneLocked (s : State) (port lane : Nat) : Bool :=
  if port = 4 then decide (lane < s.cxl.width)
  else decide (port < 4) && (s.port port).up && ((s.port port).lanes.contains lane || (s.port port).understudy == some lane)

/-- EYE_MEASURE. -/
def eyeMeasure (port lane height width : Nat) (s : State) : State :=
  let page := if port = 4 then pgCxl else pgFab port
  let place := port * 2 ^ 28 + lane * 2 ^ 24
  let s := s.measure page .eyeMargin 0 (s.reg pgPwr 0x200) height (place + height % 65536) false
  s.measure page .eyeMargin 1 (s.reg pgPwr 0x204) width (place + 65536 + width % 65536) false

def execEyeMeasure (t port lane height width : Nat) (s : State) : Host.Outcome State Fault Refusal :=
  done ((s.at t).onlyIf (s.live && s.laneLocked port lane) (eyeMeasure port lane height width))

/-- OPTICAL_POWER_READ. -/
def opticalPowerRead (port lane : Nat) (cdbm : Int) (s : State) : State :=
  s.measure (pgFab port) .opticalPower 2 (s.signedReg pgPwr 0x208) cdbm (port * 2 ^ 24 + lane % 256 * 2 ^ 16 + toTwos 16 cdbm) false

def execOpticalPowerRead (t port lane : Nat) (cdbm : Int) (s : State) : Host.Outcome State Fault Refusal :=
  done ((s.at t).onlyIf (s.live && decide (port < 4) && (s.port port).modulePresent) (opticalPowerRead port lane cdbm))

/-- Heart read timing, from a strobe sweep in a rehearsal window. -/
def State.heartMargin (s : State) (stack pseudo ps : Nat) : State :=
  s.measure (pgHmc stack) .heartMargin 3 (s.reg pgPwr 0x20C) ps (pseudo * 65536 + ps % 65536) false

/-- SUPPLY_DROOP_SAMPLE: the deepest droop of a core rail in a millisecond. -/
def execSupplyDroopSample (t rail mv : Nat) (s : State) : Host.Outcome State Fault Refusal :=
  done ((s.at t).onlyIf (s.live && decide (rail < 6)) fun s =>
    s.measure pgPwr .supplyDroop 4 (s.reg pgPwr 0x210) mv (rail * 65536 + mv % 65536) true)

/-! ### External fault inputs (24 R733) -/

/-- FAULT_INPUT_EDGE: a falling edge on FAULT_IN_L. -/
def execFaultInputEdge (t input : Nat) (s : State) : Host.Outcome State Fault Refusal :=
  done ((s.at t).onlyIf (s.awake && decide (input < 2)) fun s => s.faultInEdge.sendFault pgFlt .externalFault input)

end Sys2Proof.Machine
end

