-- ==== Sys2Proof/Machine/Calibration.lean ====
section
/-!
DEFINITION. The calibration set and its operations, rehearsal windows, CALIBRATE and SELFTEST, maintenance (22 R690 to R699).
-/

namespace Sys2Proof.Machine

def State.withCal (s : State) (f : CalBlock → CalBlock) : State := { s with cal := f s.cal }

/-! ### The set (R690, R691) -/

/-- One past the end of `n` seed entries from `off`. -/
def seedsEnd (set : List Byte) : Nat → Nat → Nat
  | 0, off => off
  | n + 1, off => seedsEnd set n (off + roundUp (16 + 2 * fieldAt set (off + 12) 2) 16)

/-- The layout of R691 holds: major version 1, SetBytes, and every section within it. -/
def setWhole (set : List Byte) : Bool :=
  let n := fieldAt set 4 4
  let seeds := fieldAt set 20 4
  fieldAt set 0 1 / 16 == 1 && 64 ≤ n && n ≤ 1048576 && n ≤ set.length && seeds ≤ 64 &&
    fieldAt set 24 4 + 32768 ≤ n && fieldAt set 28 4 + 1152 ≤ n && fieldAt set 32 4 + 256 ≤ n && seedsEnd set seeds (fieldAt set 36 4) ≤ n

def setTag (set : List Byte) : Nat := fieldAt set 8 8

/-- A stored record is valid (R690). -/
def setValid (set : List Byte) : Bool := setWhole set && setTag set == Config.deviceTag.toNat

/-- Step 8 of a start: the newest stored record, where it is valid and BOOT_SEL is not 3, else the default set (R679, R690). -/
def State.loadSet (s : State) (record : Option (List Byte)) : State :=
  let good := record.filter fun r => setValid r && bitsOf s.cal.straps 1 0 != 3
  s.withCal fun c => { c with inForce := good.getD [], defaults := good.isNone }

/-- The set in force. -/
def State.setNow (s : State) : List Byte := if s.cal.inForce.isEmpty then Config.defaultSet else s.cal.inForce

/-- The current value of a target (R696): what a window left, else what its last training did. -/
def State.currentOf (s : State) (target : Nat) : Nat :=
  match s.cal.current.find? target with
  | some v => v
  | none => Config.trainedValue (s.cal.trained.getD target s.cal.lastTrain) target

/-- The Heart section as the current values give it. -/
def State.heartNow (s : State) : List Byte := (List.range 512).flatMap fun i => natLE 64 (s.currentOf (0x1000 + i))

/-- The SerDes section as the current values give it: 20 fabric lanes, then 16 CXL lanes. -/
def State.serdesNow (s : State) : List Byte :=
  ((List.range 20).flatMap fun i => natLE 32 (s.currentOf (0x100 + 8 * (i / 5) + i % 5))) ++
    (List.range 16).flatMap fun l => natLE 32 (s.currentOf (0x3000 + l))

/-- What CAL_READ writes (R692). -/
def State.readSet (s : State) : List Byte :=
  let set := s.setNow
  overlay (overlay (set.take (fieldAt set 4 4)) (fieldAt set 24 4) s.heartNow) (fieldAt set 28 4) s.serdesNow

/-- CAL_READ. -/
def execCalRead (t cid : Nat) (s : State) : Host.Outcome State Fault Refusal :=
  done ((s.at t).withCmd cid (·.isAdmin 0x93) fun k s => (s.cmdWrite cid (cmdPtrA k.raw) 0 s.readSet).finish cid .ok)

/-- CAL_LOAD. -/
def calLoad (cid : Nat) (k : Cmd) (s : State) : State :=
  let n := fieldAt (s.cmdRead k (cmdPtrA k.raw) 64) 4 4
  let set := s.cmdRead k (cmdPtrA k.raw) (min n 1048576)
  if !setWhole set then s.finish cid .malformed
  else if setTag set != Config.deviceTag.toNat then s.finish cid .denied
  else (s.withCal fun c => { c with inForce := set, defaults := false }).finish cid .ok

def execCalLoad (t cid : Nat) (s : State) : Host.Outcome State Fault Refusal :=
  done ((s.at t).withCmd cid (·.isAdmin 0x94) (calLoad cid))

/-- The seed entries of a set. -/
def seedList (set : List Byte) : Nat → Nat → List (List Byte)
  | 0, _ => []
  | n + 1, off =>
    let len := roundUp (16 + 2 * fieldAt set (off + 12) 2) 16
    bytesAt set off len :: seedList set n (off + len)

/-- The seed entry of a Score's current E_L values. -/
def scoreSeed (v : Score) : List Byte :=
  let n := imgLayers v.image
  let e (i : Nat) : Nat := ((v.scales.find? i).map fun r => r.eL).getD 0
  padTo 16 (bytesAt v.image 8 8 ++ bytesAt v.image 16 4 ++ natLE 2 n ++ zeroBytes 2 ++
    (List.range n).flatMap fun i => natLE 1 (e (2 * i)) ++ natLE 1 (e (2 * i + 1)))

/-- The seed entries with a Score's own first set; none when 64 are full. -/
def withSeed (seeds : List (List Byte)) (x : List Byte) : Option (List (List Byte)) :=
  match seeds.findIdx? fun y => y.take 12 == x.take 12 with
  | some i => some (seeds.set i x)
  | none => if seeds.length < 64 then some (seeds ++ [x]) else none

/-- A set laid out again with other seed entries: header, Heart, SerDes, trims, seeds (log entry 31). -/
def relaid (set : List Byte) (seeds : List (List Byte)) : List Byte :=
  let body := bytesAt set (fieldAt set 24 4) 32768 ++ bytesAt set (fieldAt set 28 4) 1152 ++ bytesAt set (fieldAt set 32 4) 256 ++ seeds.flatten
  let flags := fieldAt set 1 1
  bytesAt set 0 1 ++ natLE 1 (flags - boolNat (bitOf flags 0)) ++ bytesAt set 2 2 ++ natLE 4 (64 + body.length) ++ bytesAt set 8 8 ++
    natLE 4 (fieldAt set 16 4 + 1) ++ natLE 4 seeds.length ++ natLE 4 64 ++ natLE 4 32832 ++ natLE 4 33984 ++ natLE 4 34240 ++
    zeroBytes 24 ++ body

/-- CAL_SAVE (R692, R693): with `commits` false the record cannot be committed, and the stored set stays. -/
def calSave (cid : Nat) (k : Cmd) (commits : Bool) (s : State) : State :=
  let set := s.readSet
  let seeds := seedList set (min 64 (fieldAt set 20 4)) (fieldAt set 36 4)
  let save (seeds : List (List Byte)) (s : State) : State :=
    if commits then (s.withBft fun f => { f with calRec := some (relaid set seeds), seq := f.seq + 1 }).finish cid .ok
    else s.finish cid .mediaError
  if bitOf (fieldAt k.raw 49 1) 0 then
    match s.score? (fieldAt k.raw 50 2) with
    | none => s.finish cid .notFound
    | some v => match withSeed seeds (scoreSeed v) with
      | none => s.finish cid .quota
      | some seeds => save seeds s
  else save seeds s

def execCalSave (t cid : Nat) (commits : Bool) (s : State) : Host.Outcome State Fault Refusal :=
  done ((s.at t).withCmd cid (·.isAdmin 0x95) fun k s => calSave cid k commits s)

/-! ### Maintenance (R699) -/

/-- MAINT_ENTER: its first take sets Maintenance; it completes once the other domains' work admitted before it has posted. -/
def maintEnter (cid : Nat) (k : Cmd) (s : State) : State :=
  let s := s.withCal fun c => { c with maintenance := true }
  if s.qmg.cmds.any fun e => decide (e.1 < cid) && e.2.domain != 0 && (s.cueHolding e.1).isNone then s.setCmd cid { k with phase := .waiting }
  else s.finish cid .ok

def execMaintEnter (t cid : Nat) (s : State) : Host.Outcome State Fault Refusal :=
  done ((s.at t).withCmd cid (fun k => cmdOpcode k.raw == 0x38 && cmdAdminOp k.raw == 0x91) (maintEnter cid))

/-- MAINT_EXIT. -/
def execMaintExit (t cid : Nat) (s : State) : Host.Outcome State Fault Refusal :=
  done ((s.at t).withCmd cid (·.isAdmin 0x92) fun _ s => (s.withCal fun c => { c with maintenance := false }).finish cid .ok)

/-! ### Targets and windows (R694 to R696) -/

inductive Target where
  | lane (port lane : Nat)
  | pseudo (stack channel : Nat)
  | flash (channel : Nat)
  deriving DecidableEq, Repr

/-- What a target number names (R694). -/
def targetOf (n : Nat) : Option Target :=
  if 0x100 ≤ n && n < 0x120 && n % 8 ≤ 4 then some (.lane ((n - 0x100) / 8) (n % 8))
  else if 0x1000 ≤ n && n < 0x1200 then some (.pseudo ((n - 0x1000) / 64) (n % 64))
  else if 0x2000 ≤ n && n < 0x2020 then some (.flash (n - 0x2000))
  else none

/-- A window of some target among `lo` to `hi` is open. -/
def State.windowIn (s : State) (lo hi : Nat) : Bool := s.cal.windows.any fun e => decide (lo ≤ e.1) && decide (e.1 < hi)

/-- The BUSY cases of R695 and R696. -/
def State.targetBusy (s : State) : Target → Bool
  | .lane p _ => !(s.port p).up || (s.port p).retraining || (s.port p).understudy.isNone || s.windowIn (0x100 + 8 * p) (0x108 + 8 * p)
  | .pseudo n _ => s.windowIn (0x1000 + 64 * n) (0x1040 + 64 * n)
  | .flash f => s.windowIn (0x2000 + f) (0x2001 + f)

/-- A CALIBRATE or SELFTEST that waits for a window of the target. -/
def Cmd.waitsFor (k : Cmd) (n : Nat) : Bool :=
  k.phase == .waiting && [0x30, 0x31].contains (cmdOpcode k.raw) && fieldAt k.raw 8 2 == n

/-- Open a window of `len` µs on a target that is free (R694, R695), serving the commands `who`. -/
def State.openWindow (s : State) (n : Nat) (x : Target) (len : Nat) (sweep : Bool) (who : List Nat) : State :=
  let swap : Option Nat := match x with
    | .lane p l => if (s.port p).understudy = some l then none else (s.port p).lanes.findIdx? fun y => y == l
    | _ => none
  let s := match x, swap with
    | .lane p _, some i => laneSwap p i s
    | _, _ => s
  let s := who.foldl (fun s cid => match s.cmd? cid with
    | some k => s.setCmd cid { k with phase := .started }
    | none => s) s
  s.withCal fun c => { c with windows := c.windows.set n { ends := s.now + len * us, sweep := sweep, swapped := swap.isSome, serves := who } }

/-- A window that a cue opens: it serves every command that waits for its target (R694, R698; 02 R51, R59). -/
def State.openRehearsal (s : State) (arg : Nat) : State × Status :=
  let n := bitsOf arg 15 0
  let len := bitsOf arg 31 16
  match targetOf n with
  | none => (s, .malformed)
  | some x =>
    if len = 0 || 50 < len then (s, .malformed)
    else if s.targetBusy x then (s, .busy)
    else (s.openWindow n x len false ((s.qmg.cmds.filter fun e => e.2.waitsFor n).map fun e => e.1), .ok)

/-- The tape time of the next armed rehearsal window on a target; all ones when none is armed (R698). -/
def State.nextWindow (s : State) (n : Nat) : Nat :=
  (s.cue.entries.filter fun e => e.2.action == 5 && e.2.armed && !e.2.onPosition && bitsOf e.2.arg 15 0 == n).foldl
    (fun m e => min m e.2.value) 0xFFFFFFFFFFFFFFFF

/-- The 32-byte record of R697. -/
def State.testRecord (s : State) (k : Cmd) (st : Status) (errors margin : Nat) : List Byte :=
  natLE 1 0x10 ++ natLE 1 (fieldAt k.raw 48 1) ++ zeroBytes 2 ++ natLE 2 st.code ++ zeroBytes 2 ++ natLE 4 errors ++ natLE 4 margin ++
    natLE 8 (s.nextWindow (fieldAt k.raw 8 2)) ++ zeroBytes 8

/-- Complete a CALIBRATE or SELFTEST with its record. -/
def State.finishTest (s : State) (cid : Nat) (k : Cmd) (st : Status) (errors margin : Nat) : State :=
  (s.cmdWrite cid (cmdPtrB k.raw) 0 (s.testRecord k st errors margin)).finish cid st

/-! ### CALIBRATE and SELFTEST (R697, R698) -/

/-- Bytes of the window's memory, and of raw extents, that lie in a pseudo-channel read zero after a march (R697; 12 R391, R393). -/
def State.marchMemory (s : State) (stack pseudo : Nat) : State :=
  let inWin (w : Nat) : Bool := granuleStack (w % 2 ^ 28 / 1024) == stack && granuleUnit (w % 2 ^ 28 / 1024) / 8 == pseudo
  let inRaw (a : Nat) : Bool := a / 2 ^ 28 / 512 == stack && a % 2 ^ 28 / 1024 / 4096 == pseudo
  { s with win := s.win.filter (fun e => !inWin e.1),
           tier := { s.tier with rawBytes := s.tier.rawBytes.filter (fun e => !inRaw e.1),
                                 badBlocks := s.tier.badBlocks.filter fun b => !inWin (b * 64) } }

/-- Navigation vectors whose rows lie in the pseudo-channel are zero after a march (R699). -/
def Coll.marched (c : Coll) (stack pseudo : Nat) : Coll :=
  { c with slots := c.slots.map fun e =>
      if granuleStack (c.rowOf e.1) = stack && granuleUnit (c.rowOf e.1) / 8 = pseudo then (e.1, { e.2 with nav := e.2.nav.map fun _ => 0 }) else e }

/-- March patterns over every row of a pseudo-channel. -/
def State.march (s : State) (stack pseudo : Nat) : State :=
  let s := s.marchMemory stack pseudo
  { s with wlk := { s.wlk with colls := s.wlk.colls.mapVal fun c => c.marched stack pseudo } }

/-- A destructive test runs: it ends with what it has found. -/
def State.destroy (s : State) (cid : Nat) (k : Cmd) (x : Target) (errors : Nat) : State :=
  match x with
  | .pseudo n c => (s.march n c).finishTest cid k .ok errors 0
  | .lane p _ => (s.portFall p).finishTest cid k .ok errors 0
  | .flash _ => s

/-- A CALIBRATE or SELFTEST is taken: refused, run at once as a window, or left to wait for one. `fits`: the target is of the
test's kind; `errors`: what a destructive test will find. -/
def testCmd (cid : Nat) (k : Cmd) (fits : Target → Bool) (destructive sweep : Bool) (errors : Nat) (s : State) : State :=
  let n := fieldAt k.raw 8 2
  let len := fieldAt k.raw 52 2
  match (targetOf n).filter fits with
  | none => s.finish cid .malformed
  | some x =>
    if !destructive && (len = 0 || 50 < len) then s.finish cid .malformed
    else if destructive && !s.cal.maintenance then s.finishTest cid k .busy 0 0
    else if !bitOf (cmdFlags k.raw) 0 then s.setCmd cid { k with phase := .waiting, detail := errors }
    else if (if destructive then s.cal.windows.has n || (match x with
        | .lane p _ => !(s.port p).up
        | .pseudo i _ => s.windowIn (0x1000 + 64 * i) (0x1040 + 64 * i)
        | .flash _ => true) else s.targetBusy x) then s.finishTest cid k .busy 0 0
    else if destructive then s.destroy cid k x errors
    else s.openWindow n x len sweep [cid]

def Target.isLane : Target → Bool
  | .lane _ _ => true
  | _ => false

def Target.isPseudo : Target → Bool
  | .pseudo _ _ => true
  | _ => false

/-- A port is named by its lane 0. -/
def Target.isPort : Target → Bool
  | .lane _ 0 => true
  | _ => false

def Cmd.isTest (k : Cmd) (kind : Nat) : Bool := k.isNew 0x31 && fieldAt k.raw 48 1 == kind

/-- CALIBRATE. -/
def execCalibrate (t cid : Nat) (s : State) : Host.Outcome State Fault Refusal :=
  done ((s.at t).withCmd cid (·.isNew 0x30) fun k s => testCmd cid k (fun _ => true) false false 0 s)

/-- LANE_BIST. -/
def execLaneBist (t cid : Nat) (s : State) : Host.Outcome State Fault Refusal :=
  done ((s.at t).withCmd cid (·.isTest 0) fun k s => testCmd cid k Target.isLane false true 0 s)

/-- HEART_SWEEP. -/
def execHeartSweep (t cid : Nat) (s : State) : Host.Outcome State Fault Refusal :=
  done ((s.at t).withCmd cid (·.isTest 1) fun k s => testCmd cid k Target.isPseudo false true 0 s)

/-- HEART_MARCH. -/
def execHeartMarch (t cid errors : Nat) (s : State) : Host.Outcome State Fault Refusal :=
  done ((s.at t).withCmd cid (·.isTest 2) fun k s => testCmd cid k Target.isPseudo true false errors s)

/-- PORT_LOOPBACK. -/
def execPortLoopback (t cid errors : Nat) (s : State) : Host.Outcome State Fault Refusal :=
  done ((s.at t).withCmd cid (·.isTest 3) fun k s => testCmd cid k Target.isPort true false errors s)

/-! ### The end of a window (R695, R696, R698) -/

/-- A command that the window served completes. -/
def State.serveEnd (s : State) (cid : Nat) (x : Target) (st : Status) (r : WindowResult) : State :=
  match s.cmd? cid with
  | none => s
  | some k =>
    if cmdOpcode k.raw = 0x31 && 2 ≤ fieldAt k.raw 48 1 then s.destroy cid k x k.detail
    else s.finishTest cid k st r.errorCount r.margin

/-- What a window on a lane leaves of its port (R695): the displaced lane is the Understudy; an adapted Understudy that has
become better than the worst active lane by CAL_SWAP_MV takes its place. -/
def State.laneEnd (s : State) (p l : Nat) (w : Window) (r : WindowResult) : State :=
  if w.swapped then s.setPort p { s.port p with understudy := some l, displaced := (s.port p).displaced.erase l }
  else if !w.sweep && r.trained && decide ((s.reg pgCal 0x060 : Int) < r.eyeGain) then
    match (s.port p).lanes.findIdx? fun y => y == r.worstLane with
    | some i =>
      let s := laneSwap p i s
      s.setPort p { s.port p with understudy := some r.worstLane, displaced := (s.port p).displaced.erase r.worstLane }
    | none => s
  else s

/-- REHEARSAL_WINDOW_END. -/
def rehearsalWindowEnd (n : Nat) (r : WindowResult) (s : State) : State :=
  match s.cal.windows.find? n, targetOf n with
  | some w, some x =>
    let ok := r.trained || w.sweep
    let s := s.withCal fun c => { c with windows := c.windows.erase n, current := if r.trained && !w.sweep then c.current.set n r.newValue else c.current }
    let s := match x with
      | .pseudo i c => s.heartMargin i c r.margin
      | .lane p l => s.laneEnd p l w r
      | .flash _ => s
    let s := s.bump pgCal 0x064
    let s := s.when (!ok) fun s => (s.bump pgCal 0x068).sticky pgCal 0x044 0x20
    w.serves.foldl (fun s cid => s.serveEnd cid x (if ok then .ok else .mediaError) r) s
  | _, _ => s

def execRehearsalWindowEnd (t target : Nat) (r : WindowResult) (s : State) : Host.Outcome State Fault Refusal :=
  done ((s.at t).onlyIf s.live (rehearsalWindowEnd target r))

end Sys2Proof.Machine
end

