-- ==== Sys2Proof/Machine/Cues.lean ====
section
/-!
DEFINITION. Cues firing: when one is due, the order, lateness, the actions and DOM's checks of them, the firing record (02 R51 to
R62, R749); and the ENTRANCE command (03 R101; 02 R53).
-/

namespace Sys2Proof.Machine

/-! ### The ENTRANCE command -/

/-- ENTRANCE: placed in the Cue Table where its position is still to come, else begun at once. -/
def entrance (cid : Nat) (k : Cmd) (s : State) : State :=
  let coll := fieldAt k.raw 8 4
  if s.toSchedule k then s.schedule cid k 0x02 coll
  else match s.startEntrance coll (some cid) with
    | (s, .ok) => s.setCmd cid { k with phase := .started }
    | (s, st) => s.finish cid st

def execEntrance (t cid : Nat) (s : State) : Host.Outcome State Fault Refusal :=
  done ((s.at t).withCmd cid (fun k => k.isNew 0x0B && (s.at t).accepts pgWlk) (entrance cid))

/-! ### Due cues (R47, R55, R56) -/

/-- The point up to which an entry's trigger runs: the tracked position or the tracked time. -/
def State.trackedFor (s : State) (e : CueEntry) : Nat := if e.onPosition then s.tapePos else s.tapeTime

/-- An entry is due; under the House Clock no position cue is (R47). -/
def State.isDue (s : State) (e : CueEntry) : Bool :=
  e.trigger != 0 && e.armed && !(e.onPosition && s.tapeLost) && decide (e.value ≤ s.trackedFor e)

/-- The first entry of a kind of trigger in order of TriggerValue, then of number. -/
def firstCue (es : Table CueEntry) : Option (Nat × CueEntry) :=
  es.foldl (fun m e => match m with
    | none => some e
    | some b => if e.2.value < b.2.value then some e else some b) none

/-- The cue that fires next (R56): position cues first. -/
def State.nextCue (s : State) : Option (Nat × CueEntry) :=
  let due := s.cue.entries.filter fun e => s.isDue e.2
  match firstCue (due.filter fun e => e.2.onPosition) with
  | some e => some e
  | none => firstCue (due.filter fun e => !e.2.onPosition)

/-- A cue may fire now (R55, R61): CueEnable is set, and fewer than 16 have fired in the last microsecond. -/
def State.mayFire (s : State) : Bool :=
  s.live && bitOf (s.reg pgCue 0x040) 0 && decide ((s.cue.fired.filter fun a => decide (s.now < a + us)).length < 16)

/-! ### DOM's checks of an action (R51, R52; 16 R533, R522) -/

/-- The owner of the collection or table that an action names, where it names one that exists. -/
def State.cueObject (s : State) (e : CueEntry) : Option Nat :=
  let n := bitsOf e.arg 31 0
  if e.action = 3 then (s.openTab? n).map fun t => t.owner else (s.openColl? n).map fun c => c.owner

/-- The refusal of an action, with the reason that DOM latches; none for a NOT_FOUND. -/
def State.cueRefusal (s : State) (e : CueEntry) : Option (Option Nat × Status) :=
  if (s.domain e.owner).state != .active then some (some 1, .denied)
  else if 4 ≤ e.action then (if e.owner = 0 then none else some (some 2, .denied))
  else match s.cueObject e with
    | none => some (none, .notFound)
    | some d => if d = e.owner then none else some (some 5, .denied)

/-! ### The actions (R51) -/

/-- Cue action 0x03: the switch joins the table's line, and takes effect at once where nothing holds it (10 R334, R335). -/
def State.cueSwitch (s : State) (table version : Nat) : State × Status :=
  let ticket := 2 ^ 40 + s.freeCtr
  match s.startSwitch table version ticket with
  | (s, some st) => (s, st)
  | (s, none) =>
    let s := match s.tab? table with
      | none => s
      | some t => s.setTab table { t with cueTarget := t.cueTarget.set ticket (version + 2 ^ 32 * s.qmg.nextCid) }
    (if s.accepts pgGth then (s.switchNow table version ticket s.qmg.nextCid).1 else s, .ok)

/-- Perform an action; the snapshot of a position cue is cut at its TriggerValue, that of a time cue at the tracked position. -/
def State.cueAct (s : State) (e : CueEntry) : State × Status :=
  let a := e.arg
  match e.action with
  | 0x01 => s.cutSnapshot (bitsOf a 31 0) (if e.onPosition then e.value else s.tapePos)
  | 0x02 => s.startEntrance (bitsOf a 31 0) none
  | 0x03 => s.cueSwitch (bitsOf a 31 0) (bitsOf a 63 32)
  | 0x04 => (s.swapBank (bitsOf a 1 0) (bitsOf a 8 8), .ok)
  | 0x05 => s.openRehearsal a
  | 0x06 => s.setQuota (bitsOf a 11 0) (bitsOf a 13 12) (bitsOf a 63 32)
  | 0x07 => s.activate (bitsOf a 11 0)
  | 0x08 => match s.retire (bitsOf a 11 0) none with
    | (s, some st) => (s, st)
    | (s, none) => (s, .ok)
  | _ => (s, .malformed)

/-- Check an action and perform it. -/
def State.cueRun (s : State) (e : CueEntry) : State × Status :=
  match s.cueRefusal e with
  | none => s.cueAct e
  | some (none, st) => (s, st)
  | some (some reason, st) => (s.noteDenied e.owner (Config.cueOpcode e.action) reason, st)

/-! ### The firing (R57 to R62) -/

/-- A firing is late (R57). -/
def State.isLate (s : State) (e : CueEntry) : Bool :=
  if e.onPosition then decide (e.value < s.tapePos) else decide (e.value + s.reg pgCue 0x04C < s.tapeTime)

/-- Period points passed beyond the first (R58). -/
def State.missedPeriods (s : State) (e : CueEntry) : Nat := if e.periodic then (s.trackedFor e - e.value) / max 1 e.period else 0

/-- The entry after it has fired: a held command's entry is free, a one-shot is disarmed, a periodic one goes on (R53, R58). -/
def State.afterFiring (s : State) (e : CueEntry) : CueEntry :=
  if e.holds.isSome then {}
  else if e.periodic then { e with value := e.value + (s.missedPeriods e + 1) * e.period }
  else { e with flags := e.flags - 1 }

/-- The firing record (R62). -/
def firingRecord (s : State) (n : Nat) (e : CueEntry) (st : Status) : List Byte :=
  natLE 2 n ++ natLE 1 e.action ++
    natLE 1 (boolNat (s.isLate e) + 2 * boolNat s.tapeLost + 4 * boolNat e.periodic + 8 * boolNat e.holds.isSome) ++
    natLE 2 st.code ++ natLE 2 (min 65535 (s.missedPeriods e)) ++ natLE 8 e.value ++ natLE 8 s.tapePos ++ natLE 8 s.tapeTime

/-- Write a record to the cue log ring; a full ring drops it (R62, R64). -/
def State.cueLog (s : State) (bs : List Byte) : State :=
  let size := s.reg pgCue 0x0B8
  let head := s.cue.logHead % size
  if (head + 1) % size = s.reg pgCue 0x0C0 % size then s.bump pgCue 0x0C4
  else
    let base := (s.reg pgCue 0x0B0 + 2 ^ 32 * s.reg pgCue 0x0B4) / 32 * 32
    (s.writeBytes s.view (base + 32 * head) bs).withCue fun b => { b with logHead := (head + 1) % size }

/-- Fire entry `n`: the action, the entry, the held command's completion, the record, the counts. -/
def State.fire (s : State) (n : Nat) (e : CueEntry) : State :=
  let late := s.isLate e
  let old := s
  let s := (s.setCueEntry n (s.afterFiring e)).withCue fun b =>
    { b with fired := s.now :: b.fired.filter fun a => decide (s.now < a + us) }
  let (s, st) := s.cueRun e
  let s := match e.holds with
    | none => s
    | some cid => match s.cmd? cid with
      | none => s
      | some k => (s.setCmd cid { k with late := late }).finish cid st
  let s := s.cueLog (firingRecord old n e st)
  if late then (s.sticky pgCue 0x044 0x80).bump pgCue 0x07C else s

/-- Fire the next due cue, where its action satisfies `p`; otherwise nothing fires. -/
def State.fireNext (s : State) (p : Nat → Bool) : State :=
  if !s.mayFire then s
  else match s.nextCue with
    | none => s
    | some (n, e) => if p e.action then s.fire n e else s

/-- CUE_FIRE: the next due cue, whatever its action. -/
def execCueFire (t : Nat) (s : State) : Host.Outcome State Fault Refusal := done ((s.at t).fireNext fun _ => true)

/-- CUE_SNAPSHOT: the next due cue, where its action is 0x01; so on for the other actions. -/
def execCueSnapshot (t : Nat) (s : State) : Host.Outcome State Fault Refusal := done ((s.at t).fireNext (· == 1))

def execCueEntrance (t : Nat) (s : State) : Host.Outcome State Fault Refusal := done ((s.at t).fireNext (· == 2))

def execCueTableSwitch (t : Nat) (s : State) : Host.Outcome State Fault Refusal := done ((s.at t).fireNext (· == 3))

def execCueGateSwap (t : Nat) (s : State) : Host.Outcome State Fault Refusal := done ((s.at t).fireNext (· == 4))

def execCueRehearsalWindow (t : Nat) (s : State) : Host.Outcome State Fault Refusal := done ((s.at t).fireNext (· == 5))

def execCueQuotaChange (t : Nat) (s : State) : Host.Outcome State Fault Refusal := done ((s.at t).fireNext (· == 6))

def execCueDomainActivate (t : Nat) (s : State) : Host.Outcome State Fault Refusal := done ((s.at t).fireNext (· == 7))

def execCueDomainRetire (t : Nat) (s : State) : Host.Outcome State Fault Refusal := done ((s.at t).fireNext (· == 8))

end Sys2Proof.Machine
end

