-- ==== Sys2Proof/Machine/Objects.lean ====
section
/-!
DEFINITION. Watch rules as the Stage Manager writes and deletes them (05 R180 to R182), and the end of closed objects (23 R750; 09
R312; 10 R331; 13 R422).
-/

namespace Sys2Proof.Machine

/-! ### Watch rules -/

/-- The collection is held whole on this node: no shard map divides it (01 R27). -/
def State.heldWhole (s : State) (coll : Nat) : Bool :=
  match s.fab.shardMaps.find? coll with
  | none => true
  | some m => m.length == 1 && m.all fun e => e.1 == s.nodeId || e.2.1 == s.nodeId

/-- The refusals of a rule write, in their order (R180, R182; 00 R15; 16 R520, R528). -/
def State.ruleRefusal (s : State) (d : Nat) (r : List Byte) : Option Status :=
  if fieldAt r 0 1 / 16 != 1 then some .version
  else if s.dom.fuses.maxDomains ≤ d then some .malformed
  else if (s.domain d).state != .active then some .notFound
  else match s.openColl? (ruleColl r), s.openColl? (rulePrecedent r) with
    | some c, some p =>
      if c.owner != d || p.owner != d then some .denied
      else if !ruleInRange r || (schemaField p.schema (ruleLabelField r)).1 != 3 || !s.heldWhole (rulePrecedent r) then some .malformed
      else if 1024 ≤ s.rulesOf d then some .quota
      else none
    | _, _ => some .notFound

def State.setRules (s : State) (t : Table (List Byte)) : State := { s with dom := { s.dom with rules := t } }

/-- RULE_WRITE. -/
def ruleWrite (cid : Nat) (k : Cmd) (s : State) : State :=
  let d := fieldAt k.raw 8 2
  let r := s.cmdRead k (cmdPtrA k.raw) 64
  match s.ruleRefusal d r with
  | some st => s.finish cid st
  | none => (s.setRules (s.dom.rules.set (d * 65536 + fieldAt r 2 2) r)).finish cid .ok

def execRuleWrite (t cid : Nat) (s : State) : Host.Outcome State Fault Refusal :=
  done ((s.at t).withCmd cid (·.isAdmin 0x58) (ruleWrite cid))

/-- RULE_DELETE (16 R520); NOT_FOUND for a rule that the domain does not hold. -/
def ruleDelete (cid : Nat) (k : Cmd) (s : State) : State :=
  let key := fieldAt k.raw 8 2 * 65536 + fieldAt k.raw 52 2
  if s.dom.fuses.maxDomains ≤ fieldAt k.raw 8 2 then s.finish cid .malformed
  else if s.dom.rules.has key then (s.setRules (s.dom.rules.erase key)).finish cid .ok else s.finish cid .notFound

def execRuleDelete (t cid : Nat) (s : State) : Host.Outcome State Fault Refusal :=
  done ((s.at t).withCmd cid (·.isAdmin 0x59) (ruleDelete cid))

/-! ### Closed objects -/

/-- OBJECT_DRAINED: the object is closed, and the last command admitted before has completed. -/
def objectDrained (kind : ObjKind) (n : Nat) (s : State) : State :=
  match kind with
  | .collection => s.drainColl n
  | .table => s.drainTab n
  | .volume => s.drainVolume n
  | .score => s.drainScore n

def execObjectDrained (t : Nat) (kind : ObjKind) (n : Nat) (s : State) : Host.Outcome State Fault Refusal :=
  done ((s.at t).onlyIf s.live (objectDrained kind n))

end Sys2Proof.Machine
end

