-- ==== Sys2Proof/Machine/Start.lean ====
section
/-!
DEFINITION. Reset inputs, the cold start, the warm start, failed starts (22 R678 to R689; 20 R639, R643, R645), and what earlier
chapters keep across each.
-/

namespace Sys2Proof.Machine

/-! ### Flash across a start (13 R444, R445, R451 to R453) -/

/-- An operation in progress when the devices are quiesced or lose power; `landed`: a program has ended in its page. -/
def State.landOp (s : State) (o : FlashOp) (landed : Bool) : State :=
  if o.page = noPage then s
  else match o.task with
    | .prog _ key data => if landed then s.mapUnit key o.page { page := o.page, data := data } else s
    | .erase =>
      let b := pageBlock o.page
      s.setBlk b { s.blk b with use := .free, erases := (s.blk b).erases + 1, valid := [] }
    | _ => s

/-- Every open stripe closes at its last programmed page, and every closing stripe is verified (R436, R453). -/
def State.closeStripes (s : State) : State :=
  let s := s.withBft fun f =>
    { f with ops := [], streams := [], waits := [], stalled := false,
             closing := (f.streams.foldl (fun (t : Table Stripe) e => t.set t.nextKey { e.2 with limit := some e.2.next }) f.closing).mapVal
               fun st => { st with ended := st.total f.pagesPerBlock } }
  ((s.bft.closing.map fun e => e.1).foldl (fun s n => s.verifyNext n) s).gcNext

/-- The devices' operations end, each as `landed` says, and the stripes close. -/
def State.settleFlash (s : State) (landed : Nat → Bool) : State :=
  let ops := s.bft.ops
  (ops.foldl (fun s e => s.landOp e.2 (landed e.1)) (s.withBft fun f => { f with ops := [] })).closeStripes

/-- The record store: 16 free blocks, each on a different channel, taken at the first cold start (R451). -/
def State.takeStore (s : State) : State :=
  if s.bft.blocks.any fun e => e.2.use == .store then s
  else (((List.range 32).filterMap s.bft.chanFree).take 16).foldl (fun s b => s.setBlk b { s.blk b with use := .store }) s

/-- Exported capacity in GiB (R444). -/
def exportedGib (goodBlocks pagesPerBlock sparePct : Nat) : Nat := goodBlocks * pagesPerBlock / 65536 * (100 - sparePct) / 100

/-- Good blocks of the LUNs that answer. -/
def goodOf (blocks : Table FlashBlock) (luns : List Nat) (blocksPerLun : Nat) : Nat :=
  luns.length * (blocksPerLun - 1) - (blocks.filter fun e => e.2.use == .retired && luns.contains (e.1 / 65536)).length

/-- The LUNs that come online: those that answer on channels that are not disabled (R420, R459). -/
def lunsOf (i : ColdStartInput) (chanOff : List Nat) : List Nat :=
  (i.luns.filter fun l => l.1 < 32 && l.2 < 16 && !chanOff.contains l.1).map fun l => l.1 * 16 + l.2

/-- The block table with the blocks that were bad at the factory (R442). -/
def blocksOf (blocks : Table FlashBlock) (i : ColdStartInput) (luns : List Nat) : Table FlashBlock :=
  ((i.factoryBad.filter fun b => luns.contains b.1).map fun b => b.1 * 65536 + b.2).foldl
    (fun (t : Table FlashBlock) b => t.set b { t.getD b {} with use := .retired }) blocks

/-- BFT rebuilds the flash map (R420, R425, R444, R445, R452) with SparePctActive `pct`. -/
def State.flashStart (s : State) (i : ColdStartInput) (chanOff : List Nat) (pct : Nat) : State :=
  let luns := lunsOf i chanOff
  let s := s.withBft fun f =>
    let blocks := blocksOf f.blocks i luns
    let good := goodOf blocks luns i.blocksPerLun
    let map := ceilDiv (luns.length * i.blocksPerLun * i.pagesPerBlock) (2 ^ 26)
    { f with luns := luns, rates := i.rates.foldl (fun (t : Table Nat) r => t.set r.1 r.2) [], pagesPerBlock := i.pagesPerBlock,
             blocksPerLun := i.blocksPerLun, ratedPE := i.ratedPE, blocks := blocks, good0 := good + f.retired, exported := exportedGib good i.pagesPerBlock pct,
             ckptGib4 := 2 * map, lunFails := [], exhausted := false, spareLow := false, ftlAt := s.now, tempAt := s.now,
             volumes := f.volumes.mapVal fun v => { v with charged := false, isClosed := none },
             units := i.lostUnits.foldl (fun (t : Table FlashUnit) u => t.modify (unitKey u.1 u.2) fun x => { x with lost := true }) f.units }
  let map := s.bft.ckptGib4 / 2
  let s := { s with tier := { s.tier with mapExtents := map } }
  let s := (s.settleFlash fun op => Config.landed (s.freeCtr * 2 ^ 32 + op)).takeStore
  (s.withBft fun f => { f with spareFirst := some (f.spareFirst.getD f.spareBlocks) }).checkSpare

/-! ### Starts begin (R678, R679, R685, R688) -/

/-- A reset input, or what acts as one, holds the node (R678; 24 R735, R738). -/
def State.heldReset (s : State) : Bool := s.cal.porLow || s.cal.sysLow || s.pwr.sysClkLost || !s.pwr.railsLow.isEmpty

/-- ALIVE_OUT goes low and stays so (20 R642). -/
def State.aliveLow (s : State) : State :=
  (s.withFlt fun f => { f with alive := false }).when s.flt.alive (·.emit (.pin "ALIVE_OUT" false))

/-- A cold start begins. -/
def State.beginCold (s : State) (cause : Nat) : State :=
  s.aliveLow.withCal fun c => { c with phase := .starting true, cause := cause, startFrom := s.now, ranCold := false, tripWait := false }

/-- A warm start begins; a cold start where BOOT_SEL says so, or where the last cold start did not end (R678 to R680). -/
def State.beginWarm (s : State) (cause : Nat) : State :=
  if bitsOf s.cal.straps 1 0 = 2 || !s.cal.ranCold then s.beginCold cause
  else s.aliveLow.withCal fun c =>
    { c with phase := .starting false, cause := cause, startFrom := s.now, tripWait := cause == 2 && s.pwr.overTrip }

/-- The node goes into reset: a start in progress is abandoned (R680). While POR_L is low ALIVE_OUT drives low, and the end of a
thermal trip frees THERM_TRIP_L (24 R733, R744). -/
def State.enterReset (s : State) (power : Bool) : State :=
  let s := s.when (power && s.cal.phase == .tripped) (·.emit (.pin "THERM_TRIP_L" true))
  let s := (s.linkFall false).withCal fun c =>
    { c with phase := .held, tripWait := false, ranCold := c.ranCold && !power && c.phase != .starting true }
  (s.withFlt fun f => { f with chipReset := none }).when power (·.aliveLow)

/-- PERST_L low: the CXL block is reset and its link held down (R678). -/
def State.perstFall (s : State) : State :=
  let s := s.linkFall s.live
  (s.withCxl fun b => { b with committed := false, errNotCommitted := false, doeBusy := [false, false, false] }).withCal fun c =>
    { c with perstLow := true }

/-- RESET_INPUT_FALL: 0 POR_L, 1 SYS_RST_L, 2 PERST_L. -/
def resetInputFall (pin : Nat) (s : State) : State :=
  match pin with
  | 0 => (s.withCal fun c => { c with porLow := true }).enterReset true
  | 1 =>
    let s := s.withCal fun c => { c with sysLow := true }
    if s.cal.phase = .tripped then s else s.enterReset false
  | _ => s.perstFall

def execResetInputFall (t pin : Nat) (s : State) : Host.Outcome State Fault Refusal :=
  done ((s.at t).onlyIf (decide (pin < 3)) (resetInputFall pin))

/-- POR_RELEASE: the straps are sampled, and a cold start begins unless something else holds the node. -/
def porRelease (bootSel : Nat) (ftmEn : Bool) (s : State) : State :=
  let s := s.withCal fun c => { c with porLow := false, straps := bootSel % 4 + 4 * boolNat ftmEn, ranCold := false }
  if s.heldReset then s else s.beginCold 0

def execPorRelease (t bootSel : Nat) (ftmEn : Bool) (s : State) : Host.Outcome State Fault Refusal :=
  done ((s.at t).onlyIf s.cal.porLow (porRelease bootSel ftmEn))

/-- SYS_RST_RELEASE. -/
def sysRstRelease (s : State) : State :=
  let s := s.withCal fun c => { c with sysLow := false }
  if s.heldReset || s.cal.phase = .tripped then s else s.beginWarm 1

def execSysRstRelease (t : Nat) (s : State) : Host.Outcome State Fault Refusal :=
  done ((s.at t).onlyIf s.cal.sysLow sysRstRelease)

/-- PERST_RELEASE: link training, or with PerstWarm a warm start that trains it. A start that runs takes no notice (R683). -/
def perstRelease (width rate : Nat) (cxl flit256 : Bool) (s : State) : State :=
  let s := s.withCal fun c => { c with perstLow := false }
  if !s.live then s
  else if bitOf (s.reg pgCal 0x040) 0 then s.beginWarm 4
  else if s.mayTrain then s.tryTrain width rate (cxl && !s.sec.recovery) flit256 true
  else s

def execPerstRelease (t width rate : Nat) (cxl flit256 : Bool) (s : State) : Host.Outcome State Fault Refusal :=
  done ((s.at t).onlyIf s.cal.perstLow (perstRelease width rate cxl flit256))

/-- CHIP_RESET_START (20 R639): 10 µs after the fault. -/
def chipResetStart (s : State) : State := (s.withFlt fun f => { f with chipReset := none }).beginWarm 2

def execChipResetStart (t : Nat) (s : State) : Host.Outcome State Fault Refusal :=
  done ((s.at t).onlyIf (s.live && (match s.flt.chipReset with
    | some a => decide (a + 10 * us ≤ (s.at t).now)
    | none => false)) chipResetStart)

/-- WARM_START (R689). -/
def execWarmStart (t cid : Nat) (s : State) : Host.Outcome State Fault Refusal :=
  done ((s.at t).withCmd cid (·.isAdmin 0x90) fun k s => (s.setCmd cid { k with phase := .started }).beginWarm 3)

/-- START_LIMIT_EXPIRY (R684): a start has run past CAL_START_LIMIT_S. -/
def execStartLimitExpiry (t : Nat) (s : State) : Host.Outcome State Fault Refusal :=
  done ((s.at t).onlyIf ((match s.cal.phase with
    | .starting _ => true
    | _ => false) && decide (s.cal.startFrom + s.reg pgCal 0x054 * oneSec < (s.at t).now)) (·.failStart))

/-! ### What ends every start (R682, R688: steps 7 to 9) -/

/-- The link trains, where PERST_L allows it. -/
def State.startLink (s : State) (width rate : Nat) (cxl flit256 : Bool) : State :=
  if s.mayTrain then s.tryTrain width rate cxl flit256 true else s

/-- Step 9: StartDone, the count of starts, and service. -/
def State.serve (s : State) (kind : Nat) : State :=
  let s := s.bump pgCal 0x05C
  let s := s.withCal fun c => { c with phase := .running, kind := kind, startMs := (s.now - c.startFrom) / ms, servedFrom := s.now }
  { s.withFlt fun f => { f with lastToggle := s.now } with prm := List.replicate 8 { running := true, beat := s.now } }

/-- The node's time after a start that took `elapsed`. -/
def State.elapse (s : State) (elapsed : Nat) : State := { s with now := s.now + elapsed }

/-- The start would run past its limit (R684). -/
def State.tooLong (s : State) (elapsed : Nat) : Bool := s.reg pgCal 0x054 * oneSec < elapsed

/-- A start that runs past its limit fails there. -/
def State.failLate (s : State) : State := (s.elapse (s.reg pgCal 0x054 * oneSec)).failStart

/-! ### The cold start (R682 to R686) -/

/-- Registers that a cold start other than POR_L's carries over: the node-wide figures taken at the next cold start (12 R417; 13
R457). -/
def State.nextFigures (s : State) : Table Nat :=
  let raw := clampNat 0 64 (bitsOf (s.reg (pgHmc 0) 0x050) 6 0)
  let hdm := clampNat 64 1024 (bitsOf (s.reg (pgHmc 0) 0x054) 10 0 / 8 * 8)
  let pct := clampNat 7 28 (bitsOf (s.reg pgBft 0x048) 7 0)
  [(regKey (pgHmc 0) 0x050 0, raw * 65536 + raw), (regKey (pgHmc 0) 0x054 0, hdm * 65536 + hdm), (regKey pgBft 0x048 0, pct * 65536 + pct)]

/-- The state after steps 1 and 2 of a cold start: every setting at its reset value; what lies in the boot device, the fuses and
the flash devices stays, as does host memory. -/
def State.coldReset (s : State) : State :=
  let power := s.cal.cause == 0
  { now := s.now, pending := s.pending, freeCtr := s.freeCtr, host := s.host, outbox := s.outbox
    regs := if power then [] else s.nextFigures.foldl (fun (t : Table Nat) e => t.set e.1 e.2) []
    counts := if power then [] else [(pgCal * 4096 + 0x05C, s.count pgCal 0x05C)]
    dom := { doms := [(0, { state := .active, privs := s.dom.fuses.grantable })], fuses := s.dom.fuses,
             ftm := bitOf s.cal.straps 2 && !s.dom.fuses.ftmLocked }
    cxl := { vfs := s.cxl.vfs }
    sec := { regions := s.sec.regions, images := s.sec.images }
    bft := s.bft
    cal := { phase := s.cal.phase, porLow := s.cal.porLow, sysLow := s.cal.sysLow, perstLow := s.cal.perstLow, straps := s.cal.straps,
             cause := s.cal.cause, startFrom := s.cal.startFrom, failedStarts := s.cal.failedStarts, failedRead := s.cal.failedStarts,
             lastTrain := s.freeCtr }
    pwr := { refsLost := s.pwr.refsLost, railsLow := s.pwr.railsLow, sysClkLost := s.pwr.sysClkLost } }

/-- The extent that holds a stack's row (12 R392, R393): interleaved, or 2^16 + a raw handle. -/
def State.extentOfRow (s : State) (stack row : Nat) : Nat :=
  let r := row % 98304
  if 384 - s.rawBands ≤ r / 256 then 2 ^ 16 + 512 * stack + r / 256 else 8 * (r / 256) + r % 256 / 32

/-- Steps 4 and 5: Heart is trained and repaired, units and arrays are tested (06 R228; 08 R300; 12 R407). -/
def State.testHeart (s : State) (i : ColdStartInput) : State :=
  let s := { s with tier := { s.tier with withheld := (i.unrepairable.map fun e => s.extentOfRow e.1 e.2).eraseDups } }
  let s := i.badUnits.foldl (fun s e => s.disableUnit e.1 e.2) s
  i.badArrays.foldl (fun s e => s.disableArray e.1 e.2) s

/-- What SEC records of the images a start runs: the firmware's Kind leads (21 R662, R671). -/
def State.noteImages (s : State) (i : ColdStartInput) (recovery : Bool) : State :=
  s.withSec fun b => { b with bootReasons := i.imageReasons, svnRun := i.imageSvns, measures := i.imageMeasures, recovery := recovery,
                              fwVersion := i.fwVersion, rootSlot := some i.rootSlot }

/-- Whether the images that a start verifies pass (21 R662; 22 R682, R686). -/
def imagesPass (reasons : List Nat) (recovery : Bool) : Bool :=
  if recovery then reasons.getD 3 1 == 0 else (reasons.take 3).length == 3 && (reasons.take 3).all fun r => r == 0

/-- A start in recovery firmware: steps 1 to 3 and the CXL half of step 7 (R686). It does not clear FailedStarts. -/
def State.recover (s : State) (i : ColdStartInput) : State :=
  let s := (s.elapse i.elapsed).withCal fun c => { c with failedStarts := min 255 (c.failedStarts + 1), defaults := true, ranCold := true }
  ((s.startLink i.linkWidth i.linkRate false i.linkFlit256).lmsStart).serve 2

/-- Steps 4 to 9 of a cold start that ends; `old` is the state in which it began. -/
def State.coldEnd (s old : State) (i : ColdStartInput) : State :=
  let chanOff := (List.range 32).filter fun c => old.cal.cause != 0 && !bitOf (old.reg (pgFch c) 0x040) 0
  let good := goodOf (blocksOf s.bft.blocks i (lunsOf i chanOff)) (lunsOf i chanOff) i.blocksPerLun
  let next := bitsOf (s.reg pgBft 0x048) 7 0
  let tooFew := old.cal.cause != 0 && decide (exportedGib good i.pagesPerBlock next < (old.dom.doms.map fun e => e.2.quotaBase).sum)
  let pct := if tooFew then bitsOf (old.reg pgBft 0x048) 23 16 else next
  let s := s.setReg pgBft 0x048 (pct * 65536 + next)
  let s := (s.testHeart i).elapse i.elapsed
  let s := s.flashStart i chanOff pct
  let s := s.withFab fun f => { f with incarnation := i.incarnation }
  let s := s.startLink i.linkWidth i.linkRate i.linkCxl i.linkFlit256
  let record := match s.bft.calRec with
    | some r => some r
    | none => i.calSet
  let s := (s.withBft fun f => { f with calRec := record }).loadSet record
  let s := s.lmsStart.withCal fun c => { c with failedStarts := 0, ranCold := true }
  s.serve 0

/-- COLD_START: its steps, as far as they go (R682, R684, R685). -/
def coldStart (i : ColdStartInput) (old : State) : State :=
  let s := old.coldReset
  let recovery := bitsOf s.cal.straps 1 0 == 1 || decide (3 ≤ s.cal.failedRead)
  if !i.romOk then { s with cal := { s.failStart.cal with failedStarts := s.cal.failedStarts } }
  else
    let s := s.noteImages i recovery
    if !imagesPass i.imageReasons recovery then s.failStart
    else if s.tooLong i.elapsed then s.failLate
    else if recovery then s.recover i
    else if !i.heartTrained then s.failStart
    else if !i.ftlRestored then s.failLate
    else s.coldEnd old i

def execColdStart (t : Nat) (i : ColdStartInput) (s : State) : Host.Outcome State Fault Refusal :=
  done ((s.at t).onlyIf (s.cal.phase == .starting true) (coldStart i))

/-! ### The warm start (R688, R689) -/

/-- Every command outstanding is owed the completion of 15 R514, but for those that cue entries hold (02 R63); one that a fabric
request carried ends with its connection. -/
def State.oweAll (s : State) : State :=
  let ends := s.qmg.cmds.filter fun e => (s.cueHolding e.1).isNone
  let cmds := s.qmg.cmds.filterMap fun e =>
    if (s.cueHolding e.1).isSome then some e
    else match e.2.origin with
      | .queue _ => some (e.1, { e.2 with warm := some (e.2.warm.getD (s.owed e.1 e.2)), versions := [], aborting := false })
      | _ => none
  let s := ends.foldl (fun s e => s.undoWait e.1) s
  { s with qmg := { s.qmg with cmds := cmds } }

/-- Collections: no search holds anything, an unpublished Entrance and a compaction in progress are abandoned, compaction starts
again where it is due (03 R106). -/
def State.warmColls (s : State) : State :=
  let s := { s with wlk := { s.wlk with searches := [], convoys := [] } }
  (s.wlk.colls.map fun e => e.1).foldl (fun s n => ((s.abandonEntrance n).reclaim n).modColl n fun c => c.abandonMerge.compactIfDue) s

/-- Scores: no batch, no event; pools shrink to what they hold (08 R294; 09 R325). -/
def State.warmScores (s : State) : State :=
  let s := s.withEnc fun x => { x with cmds := [], closed := [], running := [], encoded := [], vectors := [] }
  (s.enc.scores.map fun e => e.1).foldl (fun s h => s.trimPool h) s

/-- Tables: hot areas empty, every entry Home, dropped versions free (10 R336, R354). -/
def State.warmTables (s : State) : State :=
  { s with gth := { s.gth with tables := s.gth.tables.map fun e =>
    (e.1, { s.freeDropped e.1 e.2 with hot := [], dir := e.2.dir.mapVal fun w => wordOf w 0 0, switchers := [], cueTarget := [] }) } }

/-- Fabric: links fall, requests and transfers end, connections go Down and reopen by themselves, the lease lapses (17 R559,
R561, R578; 18 R606). -/
def State.warmFabric (s : State) (incarnation : Nat) : State :=
  let s := (List.range 4).foldl (fun s p => let s := s.portFall p; s.setPort p { s.port p with wasUp := false }) s
  let s := s.withFab fun f =>
    { f with conns := Table.mapVal (f.conns.filter fun e => e.2.state != .closed) fun c => { state := .down, offer := c.offer, openedAt := s.now },
             repls := f.repls.mapVal Repl.restart, reqs := [], transfers := [], ships := [], forwards := [],
             incarnation := incarnation, expiry := min f.expiry s.tapeTime }
  { s with shp := { s.shp with
      policers := []
      ports := s.shp.ports.map fun q =>
        { bank := q.bank, entry := q.entry, txBytes := q.txBytes, lastStart := q.lastStart } } }

/-- The Call Board and the Prompters (19 R624). -/
def State.warmBoard (s : State) : State :=
  { s with cbd := { s.cbd with vecs := s.cbd.vecs.mapVal fun v => { v.idle with armed := false },
                               known := [], inHost := [], inPrm := [], latched := [] } }

/-- The Tape: tracking restarts in tape loss, which is counted and reported as none (02 R46, R63). -/
def State.warmTape (s : State) : State :=
  let tp := s.cue.tape.reanchor s.now
  s.withCue fun b => { b with cap := {}, tape := { pos := tp.pos, anchorTime := tp.floor, anchorAt := tp.anchorAt, floor := tp.floor } }

/-- Registers: BLK_CTRL at its reset value, BLK_LOCK clear, HI captures 0 (00 R10, R12; 23 R722). -/
def State.warmRegs (s : State) : State :=
  { s with regs := s.regs.filter (fun e => decide (e.1 % 4096 ≠ 0x010) && decide (e.1 % 4096 ≠ 0x038)), hiCap := [] }

/-- Near-bank runs end; region tables stay (06 R215, R227). -/
def State.warmUnits (s : State) : State :=
  s.withPnm fun b => { b with runs := [], closing := [], stackList := b.stackList.map fun p => { p with held := [], dueAt := [] } }

/-- Steps 1 to 8: what every block is when the links begin to train. -/
def State.warmEnd (s : State) (i : WarmStartInput) : State :=
  let s := (((s.oweAll.warmColls).warmScores).warmTables).warmUnits
  let s := { s with cst := {} }
  let s := ((s.linkFall false).warmFabric i.incarnation).warmBoard
  let s := (s.warmTape.warmRegs).settleFlash fun _ => true
  let s := s.endSessions fun _ _ => true
  let s := s.withSec fun b => { b with doe := {}, mctp := {}, lmsWait := [], warmSkipped := i.measuresHeld }
  let s := s.withCxl fun b => { b with doeBusy := [false, false, false] }
  let s := s.withFlt fun f => { f with resets := [] }
  s.withCal fun c => { c with windows := [], maintenance := false, trained := c.trained.filter fun e => decide (0x1000 ≤ e.1 && e.1 < 0x1200) }

/-- A Drydown starts again in full when the warm start completes (20 R643). -/
def State.warmDry (s : State) : State :=
  if s.flt.faulted && !s.flt.stuck then s.withFlt fun f => { f with dryFrom := some s.tapeTime } else s

/-- WARM_START_SEQUENCE: its steps, as far as they go (R684, R688; 21 R663). -/
def warmStartSequence (i : WarmStartInput) (s : State) : State :=
  let s := s.withCal fun c => { c with failedRead := c.failedStarts }
  let s := s.withSec fun b => { b with bootReasons := i.imageReasons }
  if !imagesPass i.imageReasons s.sec.recovery || !i.canariesOk then s.failStart
  else if s.tooLong i.elapsed then s.failLate
  else
    let s := (s.warmEnd i).elapse i.elapsed
    let s := s.withCal fun c => { c with failedStarts := if s.sec.recovery then min 255 (c.failedStarts + 1) else 0 }
    let s := s.startLink i.linkWidth i.linkRate (i.linkCxl && !s.sec.recovery) i.linkFlit256
    let s := s.loadSet (match s.bft.calRec with
      | some r => some r
      | none => i.calSet)
    (s.lmsStart.serve (if s.sec.recovery then 2 else 1)).flushWarm.warmDry

def execWarmStartSequence (t : Nat) (i : WarmStartInput) (s : State) : Host.Outcome State Fault Refusal :=
  done ((s.at t).onlyIf (s.cal.phase == .starting false && !s.cal.tripWait) (warmStartSequence i))

end Sys2Proof.Machine
end

