-- ==== Sys2Proof/Machine/Power.lean ====
section
/-!
DEFINITION. Power, clocks, temperatures, references and supplies; the management port; the debug port (24 R732 to R748; 16
R538).
-/

namespace Sys2Proof.Machine

def State.withPwr (s : State) (f : PwrBlock → PwrBlock) : State := { s with pwr := f s.pwr }

/-! ### Throttling (R740) -/

/-- The node begins to throttle where it must, and stops at once when ThrottleEnable is 0. -/
def State.throttleCheck (s : State) : State :=
  let p := s.pwr
  if !bitOf (s.reg pgPwr 0x040) 2 then s.withPwr fun p => { p with throttled := false }
  else if p.throttled || (decide (p.nowW ≤ s.reg pgPwr 0x048) && !p.thermalHigh) then s
  else (s.withPwr fun p => { p with throttled := true }).sticky pgPwr 0x044 8

/-- Throttling ends once the power has been at or below 95 % of the limit for 10 ms and ThermalHigh is 0. -/
def State.throttleEnd (s : State) : State :=
  let cool := match s.pwr.coolFrom with
    | some a => decide (a + 10 * ms ≤ s.now)
    | none => false
  if cool && !s.pwr.thermalHigh then s.withPwr fun p => { p with throttled := false } else s

/-- POWER_SAMPLE: the package power of the millisecond that ends, and the rails' voltages and currents. -/
def powerSample (watts : Nat) (mv amps : List Nat) (s : State) : State :=
  let s := (s.bump64 pgPwr 0x080 watts).when s.pwr.throttled (·.bump pgPwr 0x078)
  let low := decide (100 * watts ≤ 95 * s.reg pgPwr 0x048)
  let s := s.withPwr fun p =>
    { p with nowW := watts, peakW := max p.peakW watts, mv := mv, amps := amps,
             coolFrom := if low then some (p.coolFrom.getD (s.now - ms)) else none }
  s.throttleEnd.throttleCheck

def execPowerSample (t watts : Nat) (mv amps : List Nat) (s : State) : Host.Outcome State Fault Refusal :=
  done ((s.at t).onlyIf s.awake (powerSample watts mv amps))

/-! ### Temperatures (R741 to R744) -/

/-- The hottest sensor and its temperature; the lowest-numbered of several. -/
def hottest (temps : List Int) : Nat × Int :=
  temps.zipIdx.foldl (fun m e => if m.2 < e.1 then (e.2, e.1) else m) (0, temps.headD 0)

/-- THERMAL_SAMPLE. -/
def thermalSample (temps : List Int) (s : State) : State :=
  let hot := hottest temps
  let high : Int := s.reg pgPwr 0x054
  let trip : Int := s.reg pgPwr 0x058
  let was := s.pwr
  let s := s.withPwr fun p => { p with temps := temps, overTrip := decide (trip ≤ hot.2) }
  let s :=
    if !was.thermalHigh && decide (high ≤ hot.2) then
      let s := ((s.withPwr fun p => { p with thermalHigh := true }).sticky pgPwr 0x044 4).bump pgPwr 0x07C
      s.when (bitOf (s.reg pgPwr 0x040) 0) (·.sendFault pgPwr .thermalHigh hot.1)
    else if hot.2 ≤ high - 3 then s.withPwr fun p => { p with thermalHigh := false }
    else s
  let s := s.when (!was.overTrip && decide (trip ≤ hot.2)) (·.sendFault pgPwr .thermalTrip hot.1)
  let s := s.when (decide (hot.2 ≤ trip - 10)) fun s => { s with cal := { s.cal with tripWait := false } }
  s.throttleEnd.throttleCheck

def execThermalSample (t : Nat) (temps : List Int) (s : State) : Host.Outcome State Fault Refusal :=
  done ((s.at t).onlyIf (s.awake && temps.length == 72) (thermalSample temps))

/-- THERMAL_HARD_TRIP: THERM_TRIP_L is asserted, and the node holds itself in reset until POR_L goes low (R744). -/
def thermalHardTrip (s : State) : State :=
  let s := (s.enterReset true).withCal fun c => { c with phase := .tripped }
  s.emit (.pin "THERM_TRIP_L" false)

def execThermalHardTrip (t sensor : Nat) (s : State) : Host.Outcome State Fault Refusal :=
  done ((s.at t).onlyIf (sensor < 72 && !s.cal.porLow && s.cal.phase != .tripped) thermalHardTrip)

/-! ### Clocks (R735, R739) -/

/-- The instances whose clocks may stop for idleness, and every instance that is Off (R739). -/
def State.mayStop (s : State) (page : Nat) : Bool :=
  match blockAt page with
  | none => false
  | some (b, i) =>
    let off := 10 ≤ page && !bitOf (s.reg page 0x010) 0
    off || match b with
      | .enc | .cst | .gth | .pnm => true
      | .fch => !s.bft.luns.any fun l => l / 16 == i
      | .fab => !bitOf (s.reg page 0x040) 0
      | _ => false

/-- CLOCK_STOP: an instance that has had no work in hand for PWR_IDLE_US; one that has work again runs. -/
def clockStop (page : Nat) (s : State) : State :=
  s.withPwr fun p => { p with stopped := page :: p.stopped.filter fun q => q != page && (s.worksIn q).isEmpty }

def execClockStop (t page : Nat) (s : State) : Host.Outcome State Fault Refusal :=
  done ((s.at t).onlyIf (s.live && bitOf (s.reg pgPwr 0x040) 1 && s.mayStop page && (s.worksIn page).isEmpty) (clockStop page))

/-- SYS_CLK_LOSS: the node is held in reset as if POR_L were low (R735). -/
def sysClkLoss (s : State) : State :=
  let s := s.withPwr fun p => { p with sysClkLost := true }
  if s.cal.phase = .tripped then s else s.enterReset true

def execSysClkLoss (t : Nat) (s : State) : Host.Outcome State Fault Refusal :=
  done ((s.at t).onlyIf (!s.pwr.sysClkLost) sysClkLoss)

/-- A cold start, where nothing else holds the node. -/
def State.coldAgain (s : State) : State :=
  if s.heldReset || s.cal.phase = .tripped then s else s.beginCold 0

/-- SYS_CLK_RETURN (R735). -/
def execSysClkReturn (t : Nat) (s : State) : Host.Outcome State Fault Refusal :=
  done ((s.at t).onlyIf s.pwr.sysClkLost fun s => (s.withPwr fun p => { p with sysClkLost := false }).coldAgain)

/-- REFERENCE_LOSS: 0 CXL_REFCLK, 1 FAB01_REFCLK, 2 FAB23_REFCLK; the links that it clocks go down (R735; 14 R462; 17 R548). A
link that comes up again shows that its reference is back (log entry 32). -/
def referenceLoss (ref : Nat) (s : State) : State :=
  let s := s.withPwr fun p => { p with refsLost := if p.refsLost.contains ref then p.refsLost else ref :: p.refsLost }
  if !s.live then s
  else if ref = 0 then (if linkUp s then s.linkFall true else s)
  else [2 * ref - 2, 2 * ref - 1].foldl (fun s p => (s.portFall p).portFault p) s

def execReferenceLoss (t ref : Nat) (s : State) : Host.Outcome State Fault Refusal :=
  done ((s.at t).onlyIf (decide (ref < 3)) (referenceLoss ref))

/-! ### Supplies (R738) -/

/-- SUPPLY_FAIL: the node resets as if POR_L had gone low. -/
def supplyFail (rail : Nat) (s : State) : State :=
  let s := s.withPwr fun p => { p with railsLow := if p.railsLow.contains rail then p.railsLow else rail :: p.railsLow }
  if s.cal.phase = .tripped then s else s.enterReset true

def execSupplyFail (t rail : Nat) (s : State) : Host.Outcome State Fault Refusal :=
  done ((s.at t).onlyIf (decide (rail < 6) && !s.cal.porLow) (supplyFail rail))

/-- SUPPLY_RETURN: once the rail has been within tolerance for 1 ms, a cold start. -/
def execSupplyReturn (t rail : Nat) (s : State) : Host.Outcome State Fault Refusal :=
  done ((s.at t).onlyIf (s.pwr.railsLow.contains rail) fun s =>
    (s.withPwr fun p => { p with railsLow := p.railsLow.erase rail }).coldAgain)

/-! ### The management port (R732) -/

/-- MGMT_PORT_SMBUS_FALLBACK: 1 s after the end of a start with no dynamic address assigned. -/
def execMgmtPortSmbusFallback (t : Nat) (s : State) : Host.Outcome State Fault Refusal :=
  done ((s.at t).onlyIf (s.live && s.pwr.i3cAddr.isNone && decide (s.cal.servedFrom + oneSec ≤ (s.at t).now)) fun s =>
    s.withPwr fun p => { p with smbus := true })

/-- I3C_BROADCAST_RECEIVE: the port returns to I3C, where MGMT_ALERT_L is never asserted. -/
def execI3cBroadcastReceive (t : Nat) (s : State) : Host.Outcome State Fault Refusal :=
  done ((s.at t).onlyIf s.live fun s => s.withPwr fun p => { p with smbus := false, alert := false })

/-- I3C_DYNAMIC_ADDRESS, in I3C mode. -/
def execI3cDynamicAddress (t addr : Nat) (s : State) : Host.Outcome State Fault Refusal :=
  done ((s.at t).onlyIf (s.live && !s.pwr.smbus && decide (addr < 128)) fun s => s.withPwr fun p => { p with i3cAddr := some addr })

/-! ### The debug port (16 R538; 24 R734) -/

/-- DEBUG_PORT_ACCESS: while DebugLocked is 1 no access reaches Prompter state or memory; while it is 0, a read returns a word and a
write changes it. The map of debug addresses is not laid down, so the words stand apart from the rest of the state (log entry 34). -/
def debugPortAccess (addr : Nat) (isWrite : Bool) (val : Word) (s : State) : State :=
  if isWrite then { s with dbg := s.dbg.set addr val.toNat }
  else s.emit (.debugData (BitVec.ofNat 32 (s.dbg.getD addr (Config.debugWord addr).toNat)))

def execDebugPortAccess (t addr : Nat) (isWrite : Bool) (val : Word) (s : State) : Host.Outcome State Fault Refusal :=
  done ((s.at t).onlyIf (!s.dom.fuses.debugLocked) (debugPortAccess addr isWrite val))

end Sys2Proof.Machine
end

