-- ==== Sys2Proof/Machine/View.lean ====
section
/-!
DEFINITION. What a read of a register returns (00 R8, R18; 23 R703 to R719; each chapter's register tables): the common header,
each block's status registers, counters and selected figures, worked out from the state that holds them. The table of steps has
no row for a plain read: it changes nothing (23 R705). COUNTER_LO_READ answers through these functions.
-/

namespace Sys2Proof.Machine

/-- Two bits of the state at their places. -/
def bitAt (b : Bool) (i : Nat) : Nat := boolNat b * 2 ^ i

/-! ### The common header (23 R707 to R717) -/

/-- BLK_CAP1: what the block has (23 R703). -/
def State.cap1 (s : State) : Block → Nat
  | .cxl => 255 | .qmg => 4096 | .dom => s.dom.fuses.maxDomains | .prm => 8 | .cbd => 1024 | .flt => 256 | .cue => 4096 | .sec => 4
  | .pwr => 6 | .cal => 64 | .top => 768 | .hmc => 1024 | .pnm => 512 | .wlk => 4096 | .cst => 8 | .enc => 16 | .gth => 8192
  | .bft => 16384 | .fch => 16 | .fab => 5 | .shp => 1024

/-- Work in hand in the instance on a page (23 R712, R715). -/
def State.busy (s : State) (page : Nat) : Bool := !(s.worksIn page).isEmpty

/-- BLK_STAT.Quiesced (23 R712): Quiesce stands and no work remains in hand. -/
def State.quiesced (s : State) (page : Nat) : Bool := bitOf (s.reg page 0x010) 1 && !s.busy page

/-- BLK_STAT (23 R715). -/
def State.blkStat (s : State) (page : Nat) : Nat :=
  bitAt (s.busy page) 0 + bitAt (s.quiesced page) 1 + bitAt (!bitOf (s.reg page 0x010) 0) 2 + bitAt (s.flt.resets.has page) 3

/-- FLT_CNT's form (20 R656). -/
def Latch.cnt (l : Latch) : Nat := bitAt l.overflow 31 + min 65535 l.count

/-- A register of the common header. -/
def State.headerRead (s : State) (b : Block) (i page off : Nat) : Nat :=
  let l := s.flt.latches.getD page {}
  match off with
  | 0x000 => 0x5A47 * 2 ^ 16 + i * 2 ^ 8 + b.code
  | 0x004 => 0x01010000
  | 0x008 => b.pages.2 * 2 ^ 24 + 2 ^ 16
  | 0x00C => s.cap1 b
  | 0x014 => s.blkStat page
  | 0x018 => s.irqRaw page
  | 0x020 => s.irqPend page
  | 0x024 => l.msg.w0
  | 0x028 => l.msg.w2
  | 0x02C => l.msg.w3
  | 0x030 => l.cnt
  | 0x03C => 0
  | _ => s.reg page off

/-! ### Each block's own registers: what is kept in the state of the block, and none where the register table or a counter gives it -/

/-- CXL (14 R481 to R483). -/
def State.cxlRead (s : State) (off : Nat) : Option Nat :=
  let c := s.cxl
  match off with
  | 0x044 => some (s.reg pgCxl 0x044 + bitAt (c.mode != 0) 0 + bitAt s.ideActive 4)
  | 0x048 => some (if c.mode = 0 then 0 else c.width * 2 ^ 16 + c.rate * 2 ^ 8 + c.mode)
  | 0x050 => some (if c.committed then c.base % 2 ^ 32 else 0)
  | 0x054 => some (if c.committed then c.base / 2 ^ 32 else 0)
  | 0x058 => some s.hdmExtents
  | _ => none

def QState.code : QState → Nat
  | .free => 0 | .enabled => 1 | .stopped => 2 | .error => 3

/-- The state a register shows: a queue that QUEUE_DELETE or QUEUE_RESET has stopped, and that waits for its commands, reads
Stopped (15 R484, R488; log entry 36). -/
def Queue.shown (q : Queue) : QState := if q.draining.isSome then .stopped else q.state

/-- QMG (15 R517, R518; 11 R382). -/
def State.qmgRead (s : State) (off : Nat) : Option Nat :=
  let n := s.reg pgQmg 0x060
  let q := (s.queue? n).getD {}
  match off with
  | 0x044 => some (s.reg pgQmg 0x044 + bitAt (s.qmg.cmds.any fun e => e.2.warm.isSome) 2)
  | 0x064 => some (q.shown.code * 2 ^ 30 + q.domain * 2 ^ 16 + q.fn * 2 ^ 8)
  | 0x068 => some (s.outstanding n).length
  | _ => none

/-- A doorbell page's QDB_STAT and QDB_CQ_TAIL (15 R490, R491), for the queue that the page serves. -/
def State.bellRead (s : State) (fn page off : Nat) : Nat :=
  match s.bellQueue fn page with
  | none => 0
  | some (_, q) => match off with
    | 0x000 => q.sqTail
    | 0x004 => q.cqHead
    | 0x008 => q.shown.code * 2 ^ 30 + q.sqHead
    | 0x00C => bitAt q.phase 16 + q.cqTail
    | _ => 0

/-- DOM (16 R540 to R542). -/
def State.domRead (s : State) (off : Nat) : Option Nat :=
  let d := s.domain (s.reg pgDom 0x05C)
  match off with
  | 0x048 => some s.dom.fuses.cfg
  | 0x04C => some (bitAt s.dom.fuses.debugLocked 0 + bitAt s.dom.fuses.ftmLocked 1 + bitAt s.dom.ftm 2)
  | 0x050 => some (s.dom.doms.countP fun v => v.state == .active)
  | 0x058 => some s.dom.lastDeny
  | 0x060 => some (d.state.code * 2 ^ 30 + d.privs)
  | 0x064 => some (s.walkerShare 0)
  | 0x068 => some (s.topAllocatable - (s.dom.doms.map fun e => e.2.topReserve).sum)
  | _ => none

/-- PRM (23 R723). -/
def State.prmRead (s : State) (off : Nat) : Option Nat :=
  let mask (f : Prompter → Bool) : Nat := (s.prm.zipIdx.map fun e => bitAt (f e.1) e.2).sum
  match off with
  | 0x040 => some (mask (fun p => p.trapped) * 2 ^ 16 + mask (fun p => p.heldFrom.isSome) * 2 ^ 8 + mask (fun p => p.running))
  | 0x044 => some s.sec.fwVersion
  | _ => none

/-- CBD (19 R625 to R627). -/
def State.cbdRead (s : State) (off : Nat) : Option Nat :=
  let src := s.selIdx .source
  let v := s.cbd.vecs.getD (s.selIdx .vector) {}
  let fn := bitsOf (s.reg pgCbd 0x050) 23 16
  let inService := fn == 0 && s.cbd.inHost.any fun x => bitsOf (s.regAt pgCbd 0x04C x) 10 0 == bitsOf (s.reg pgCbd 0x050) 10 0
  match off with
  | 0x04C => some (s.regAt pgCbd 0x04C src + bitAt (isEdgeSource src) 30 + bitAt (s.asserted src) 29 +
      bitAt (s.cbd.inHost.contains src || s.cbd.inPrm.has src) 28 + s.prmMask src * 2 ^ 16)
  | 0x058 => some (bitAt v.armed 31 + bitAt inService 30 + bitAt v.held 29 + min 65535 v.pending)
  | 0x064 => some s.cbd.sw
  | _ => none

/-- FLT (20 R653 to R655). -/
def State.fltRead (s : State) (off : Nat) : Option Nat :=
  let f := s.flt
  let sel := s.reg pgFlt 0x080
  match off with
  | 0x044 => some (s.reg pgFlt 0x044 + bitAt f.alive 0 + bitAt f.faulted 1 + bitAt f.stuck 2)
  | 0x048 => some f.glob.msg.w0
  | 0x04C => some f.glob.msg.w1
  | 0x050 => some f.glob.msg.w2
  | 0x054 => some f.glob.msg.w3
  | 0x058 => some f.glob.cnt
  | 0x068 => some (min 65535 f.recoverCnt)
  | 0x07C => some (f.kindCnt.getD (s.selIdx .kind) 0)
  | 0x084 => some (f.latches.getD (bitsOf sel 7 0 + bitsOf sel 15 8) {}).msg.w1
  | _ => none

/-- CUE_STAT.Source (02 R66). -/
def sourceCode : Option TapeSource → Nat
  | none => 0
  | some .ser => 1
  | some .beacon => 2
  | some .host => 3

/-- CUE (02 R64 to R66). -/
def State.cueRead (s : State) (off : Nat) : Option Nat :=
  let tp := s.cue.tape
  let onBeacon := tp.tracked == some .beacon
  match off with
  | 0x044 => some (s.reg pgCue 0x044 + sourceCode tp.tracked + bitAt s.ppsLocked 2 + bitAt s.tapeLost 3 +
      (if onBeacon then tp.port else 0) * 2 ^ 9 + (if onBeacon then (tp.beacons.getD tp.port {}).grade else 7) * 2 ^ 11)
  | 0x060 => some (s.tapePos % 2 ^ 32)
  | 0x064 => some s.cue.cap.tpHi
  | 0x068 => some s.cue.cap.ttLo
  | 0x06C => some s.cue.cap.ttHi
  | 0x070 => some (toTwos 32 tp.ratePpb)
  | 0x0BC => some s.cue.logHead
  | 0x108 => some s.cue.entStat
  | _ => none

/-- SEC (21 R675 to R677). -/
def State.secRead (s : State) (off : Nat) : Option Nat :=
  let b := s.sec
  let at4 (l : List Nat) (top : Nat) (places : List Nat) : Nat := ((l.zip places).map fun e => min top e.1 * 2 ^ e.2).sum
  match off with
  | 0x044 => some (s.reg pgSec 0x044 + bitAt b.warmSkipped 0 + bitAt b.lmsExhausted 3 + bitAt b.lmsReady 4)
  | 0x048 => some (at4 b.bootReasons 15 [0, 8, 16, 24])
  | 0x04C => some (at4 s.dom.fuses.svnFloor 63 [0, 8, 16, 24])
  | 0x050 => some (at4 b.svnRun 255 [0, 8, 16, 24])
  | 0x054 => some ((match b.rootSlot with
      | some n => 2 ^ (4 + n)
      | none => 0) + s.dom.fuses.slotMask)
  | 0x058 => some (b.lmsNext % 2 ^ 32)
  | 0x060 => some (b.lmsEnd % 2 ^ 32)
  | 0x074 => some b.keys.length
  | 0x078 => some b.sessions.length
  | 0x07C => some Config.pen.toNat
  | _ => none

/-- PWR (24 R746 to R748; 20 R658). -/
def State.pwrRead (s : State) (off : Nat) : Option Nat :=
  let p := s.pwr
  let hot := p.temps.zipIdx.foldl (fun (m : Int × Nat) e => if m.1 < e.1 then e else m) (p.temps.headD 0, 0)
  let sel := s.reg pgPwr 0x220
  match off with
  | 0x044 => some (s.reg pgPwr 0x044 + bitAt p.thermalHigh 0 + bitAt p.throttled 1)
  | 0x04C => some p.nowW
  | 0x050 => some p.peakW
  | 0x05C => some (hot.2 * 2 ^ 8 + toTwos 8 hot.1)
  | 0x064 => some (toTwos 8 (p.temps.getD (s.reg pgPwr 0x060) 0))
  | 0x06C => some (p.mv.getD (s.reg pgPwr 0x068) 0)
  | 0x070 => some (p.amps.getD (s.reg pgPwr 0x068) 0)
  | 0x224 => some (((p.margins.find? sel).map fun m => toTwos 32 m.last).getD 0)
  | 0x228 => some (((p.margins.find? sel).map fun m => toTwos 32 m.worst).getD 0)
  | _ => none

/-- CAL (22 R700 to R702). -/
def State.calRead (s : State) (off : Nat) : Option Nat :=
  let c := s.cal
  match off with
  | 0x044 => some (s.reg pgCal 0x044 + bitAt (c.phase == .running) 0 + bitAt s.sec.recovery 1 + bitAt c.defaults 2 + bitAt c.maintenance 3 +
      bitAt (!c.inForce.isEmpty && bitOf (fieldAt c.inForce 1 1) 0) 4)
  | 0x048 => some c.straps
  | 0x04C => some (c.cause * 2 ^ 8 + c.kind)
  | 0x050 => some c.startMs
  | 0x058 => some c.failedRead
  | 0x06C => some (if c.inForce.isEmpty then 0 else fieldAt c.inForce 16 4)
  | _ => none

/-- TOP (12 R414 to R416). -/
def State.topRead (s : State) (off : Nat) : Option Nat :=
  let d := s.domain (s.reg pgTop 0x060)
  match off with
  | 0x048 => some s.freeFrames.length
  | 0x04C => some s.tier.retired.length
  | 0x058 => some s.heartAllocatable
  | 0x05C => some s.bft.allocatable
  | 0x064 => some d.quotaTop
  | 0x068 => some d.usedTop
  | 0x06C => some d.quotaHeart
  | 0x070 => some d.usedHeart
  | 0x074 => some d.quotaBase
  | 0x078 => some d.usedBase
  | _ => none

/-- HMC0 to HMC7 (12 R417 to R419). A scrub pass is in progress while patrol scrub is enabled (log entry 33). -/
def State.hmcRead (s : State) (i off : Nat) : Option Nat :=
  let h := s.stack i
  let (loc, _) := h.ueLoc.getD (0, 0)
  let key := pgHmc i * 4096
  match off with
  | 0x044 => some (s.reg (pgHmc i) 0x044 + bitAt (decide (64 ≤ h.badRows.length)) 2 + bitAt (bitOf (s.reg (pgHmc i) 0x040) 0) 3)
  | 0x058 => some s.reserve
  | 0x05C => some s.tier.withheld.length
  | 0x070 => some (loc % 2 ^ 32)
  | 0x074 => some (s.hiCap.getD (key + 0x070) 0)
  | 0x078 => some (s.hiCap.getD (key + 0x078) 0)
  | 0x07C => some (s.hiCap.getD (key + 0x07C) 0)
  | 0x084 => some h.badRows.length
  | 0x088 => some (Config.busBytes i false s.freeCtr % 2 ^ 32)
  | 0x090 => some (Config.busBytes i true s.freeCtr % 2 ^ 32)
  | _ => none

/-- PNM0 to PNM7 (06 R230 to R232). -/
def State.pnmRead (s : State) (i off : Nat) : Option Nat :=
  let p := s.pnmStack i
  let unitsOn := bitOf (s.reg (pgPnm i) 0x040) 0
  let unit := s.reg (pgPnm i) 0x05C
  let raw := s.pnm.runs.any fun e => e.2.stack == i && e.2.phase == .running
  match off with
  | 0x044 => some (s.reg (pgPnm i) 0x044 + bitAt (!p.disabled.isEmpty || !unitsOn) 0 + bitAt raw 3 + p.disabled.length * 2 ^ 16)
  | 0x058 => some (256 - p.regions.length)
  | 0x060 => some (bitAt (p.disabled.contains unit) 31 + min 65535 (p.corr.getD unit 0))
  | _ => none

/-- WLK (04 R156 to R158). -/
def State.wlkRead (s : State) (off : Nat) : Option Nat :=
  let queued (ready : Bool) : Nat := s.wlk.searches.countP fun q => q.stage == .queued && q.readyAt.isSome == ready
  let sel := s.reg pgWlk 0x090
  match off with
  | 0x044 => some (s.reg pgWlk 0x044 + bitAt s.admqFull 1)
  | 0x060 => some s.ctxBusy
  | 0x064 => some (queued false * 2 ^ 16 + queued true)
  | 0x094 => some (s.wlk.hist.getD (bitsOf sel 10 8 * 32 + bitsOf sel 4 0) 0)
  | 0x0A4 => some (s.wlk.occupancy.getD (bitsOf (s.reg pgWlk 0x0A0) 4 0) 0)
  | _ => none

/-- CST (07 R252 to R254): the requests that have not been served hold its eight lanes, and the rest wait. -/
def State.cstRead (s : State) (off : Nat) : Option Nat :=
  let n := s.cst.uniques.countP fun u => !u.served
  match off with
  | 0x044 => some (s.reg pgCst 0x044 + bitAt (decide (8 < n)) 0)
  | 0x048 => some (2 ^ min 8 n - 1)
  | 0x04C => some (n - 8)
  | _ => none

/-- ENC0 to ENC3 (08 R297 to R299). -/
def State.encRead (s : State) (i off : Nat) : Option Nat :=
  let layer (f : ScaleRec → Nat) : Option Nat := some ((s.selScale.map f).getD 0)
  let mask := ((s.arraysOff i).map fun a => 2 ^ a).sum
  match off with
  | 0x044 => some (s.reg (pgEnc i) 0x044 + bitAt (s.enc.running.has i) 0 + mask * 2 ^ 16)
  | 0x068 => some (s.count (pgEnc 0) 0x068)
  | 0x084 => layer fun r => r.hist.length * 2 ^ 8 + r.eL
  | 0x088 => layer fun r => r.clips % 2 ^ 32
  | 0x090 => layer fun r => r.sat
  | 0x094 => layer fun r => r.under
  | 0x098 => layer fun r => r.hits
  | 0x09C => layer fun r => r.lastHit
  | 0x0A0 => layer fun r => min 65535 r.raises * 2 ^ 16 + min 65535 r.falls
  | 0x0A4 => layer fun r => r.nonfin
  | _ => none

/-- BFT (13 R456 to R458). -/
def State.bftRead (s : State) (off : Nat) : Option Nat :=
  let f := s.bft
  match off with
  | 0x044 => some (s.reg pgBft 0x044 + bitAt f.spareLow 3 + bitAt f.stalled 4 + bitAt f.exhausted 5)
  | 0x05C => some f.spareBlocks
  | 0x060 => some f.freeBlocks
  | 0x064 => some f.retired
  | 0x068 => some f.luns.length
  | 0x070 => some (f.hostWr % 2 ^ 32)
  | 0x078 => some (f.nandWr % 2 ^ 32)
  | _ => none

/-- FCH0 to FCH31 (13 R459). -/
def State.fchRead (s : State) (i off : Nat) : Option Nat :=
  let luns := (s.bft.luns.filter fun l => l / 16 == i).map fun l => 2 ^ (l % 16)
  match off with
  | 0x044 => some (luns.sum * 2 ^ 16 + bitAt luns.isEmpty 0)
  | 0x048 => some (s.bft.rates.getD i 0)
  | _ => none

def ConnState.code : ConnState → Nat
  | .closed => 0 | .opening => 1 | .open => 2 | .down => 3

/-- FAB_LANES (17 R580): 7 for no Understudy. -/
def FabPort.lanesReg (f : FabPort) : Nat :=
  (if f.lanes.length = 4 then 2 else if f.lanes.length = 2 then 1 else 0) * 2 ^ 22 + (f.failed.map fun l => 2 ^ (16 + l)).sum +
    f.understudy.getD 7 * 2 ^ 12 + (f.lanes.zipIdx.map fun e => e.1 * 2 ^ (3 * e.2)).sum

/-- FAB0 to FAB3 (17 R580 to R582). -/
def State.fabRead (s : State) (i off : Nat) : Option Nat :=
  let f := s.port i
  let c := s.conn (bitsOf (s.reg (pgFab 0) 0x0C0) 9 0)
  match off with
  | 0x044 => some ((s.reg (pgFab i) 0x044 &&& 0x10) + (s.reg (pgFab 0) 0x044 &&& 0xC0) + bitAt f.up 0 + bitAt f.modulePresent 1 +
      bitAt f.negotiated 2 + bitAt (f.up && f.lanes.length == 2) 3 + bitAt s.leaseHeld 5)
  | 0x050 => some (s.fab.epoch % 2 ^ 32)
  | 0x058 => some (s.fab.expiry % 2 ^ 32)
  | 0x060 => some (if f.up then f.lanesReg else 0)
  | 0x064 => some ((f.offer.map fun o => o.mask).getD 0 * 2 ^ 16 + f.gen * 2 ^ 8 + f.minor)
  | 0x068 => some (match f.offer with
      | some o => 2 ^ 31 + o.node
      | none => 0)
  | 0x06C => some (toTwos 32 (s.linkDelay i))
  | 0x080 => some (s.fab.floor % 2 ^ 32)
  | 0x084 => some (s.fab.floor / 2 ^ 32)
  | 0x0C4 => some (c.state.code * 2 ^ 30 + c.unacked.length)
  | 0x0C8 => some (s.count (pgFab 0) 0x0C8)
  | 0x0CC => some (s.count (pgFab 0) 0x0CC)
  | _ => none

/-- SHP (18 R607 to R610). -/
def State.shpRead (s : State) (off : Nat) : Option Nat :=
  let q := s.shpPort (s.selIdx .port)
  let sub := s.selIdx .sub
  let colour (c : Nat) : Option Nat := some (s.shp.colours.getD (s.selIdx .pol * 4 + c) 0)
  match off with
  | 0x044 => some (s.reg pgShp 0x044 + bitAt (!s.hierarchical) 1)
  | 0x06C => some (q.bank * 2 ^ 8 + q.entry)
  | 0x0A0 => some (q.txBytes % 2 ^ 32)
  | 0x0C4 => some ((s.shp.ports.flatMap fun p => (p.service.filter fun e => e.msg.domain == sub).map fun e => e.msg.frame).sum)
  | 0x0F8 => colour 0
  | 0x0FC => colour 1
  | 0x100 => colour 2
  | _ => none

/-- A block's own register, where its block's state holds it. -/
def State.ownRead (s : State) (b : Block) (i off : Nat) : Option Nat :=
  match b with
  | .cxl => s.cxlRead off | .qmg => s.qmgRead off | .dom => s.domRead off | .prm => s.prmRead off | .cbd => s.cbdRead off
  | .flt => s.fltRead off | .cue => s.cueRead off | .sec => s.secRead off | .pwr => s.pwrRead off | .cal => s.calRead off
  | .top => s.topRead off | .hmc => s.hmcRead i off | .pnm => s.pnmRead i off | .wlk => s.wlkRead off | .cst => s.cstRead off
  | .enc => s.encRead i off | .bft => s.bftRead off | .fch => s.fchRead i off | .fab => s.fabRead i off | .shp => s.shpRead off
  | .gth => none

/-! ### Counters and the plain registers -/

/-- The offsets of LO halves that a read captures HI for (00 R12), of those the counters keep. -/
def splitCounters : Block → List Nat
  | .cxl => [0x078] | .qmg => [0x070, 0x408] | .cbd => [0x070] | .pwr => [0x080] | .pnm => [0x068] | .wlk => [0x070, 0x078, 0x0A8]
  | .cst => [0x050, 0x058] | .enc => [0x050, 0x058] | .gth => [0x058, 0x060] | .fab => [0x088, 0x0B0, 0x0B8] | _ => []

/-- The 64-bit value behind a LO half, for the LO halves of R12. -/
def State.split? (s : State) (page off : Nat) : Option Nat :=
  match blockAt page with
  | none => none
  | some (b, i) =>
    if (splitCounters b).contains off then some (s.count page off)
    else match b, off with
      | .sec, 0x058 => some s.sec.lmsNext
      | .sec, 0x060 => some s.sec.lmsEnd
      | .hmc, 0x088 => some (Config.busBytes i false s.freeCtr)
      | .hmc, 0x090 => some (Config.busBytes i true s.freeCtr)
      | .enc, 0x088 => some ((s.selScale.map fun r => r.clips).getD 0)
      | .bft, 0x070 => some s.bft.hostWr
      | .bft, 0x078 => some s.bft.nandWr
      | .fab, 0x050 => some s.fab.epoch
      | .fab, 0x058 => some s.fab.expiry
      | .shp, 0x0A0 => some (s.shpPort (s.selIdx .port)).txBytes
      | _, _ => none

/-- What a read of the register at `off` of `page` returns (00 R8): RW, LK and W1C fields as they stand, RO fields as the state
gives them, WO and reserved ones 0; HI halves as captured (00 R12). -/
def State.readReg (s : State) (page off : Nat) : Nat :=
  match blockAt page with
  | none => 0
  | some (b, i) =>
    if off < 0x040 then s.headerRead b i page off
    else if (s.split? page (off - 4)).isSome && off % 8 == 4 then s.hiCap.getD (page * 4096 + (off - 4)) 0
    else match s.ownRead b i off with
      | some v => v
      | none => match s.split? page off with
        | some v => v % 2 ^ 32
        | none => match regDef b off with
          | some d => s.regAt page off (s.selIdx d.sel) - (s.regAt page off (s.selIdx d.sel) &&& d.node) +
              (s.regAt b.pages.1 off (s.selIdx d.sel) &&& d.node) + s.count page off
          | none => s.count page off

/-! ### Reads that capture (00 R12) -/

/-- Read the LO half of a split counter: HI is captured at the same instant. -/
def counterLoRead (page off : Nat) (s : State) : State :=
  match s.split? page off with
  | none => s
  | some v => ({ s with hiCap := s.hiCap.set (page * 4096 + off) (v / 2 ^ 32 % 2 ^ 32) }).emit (.readData (BitVec.ofNat 32 v))

/-- COUNTER_LO_READ: `off` counts from the start of BAR2. -/
def execCounterLoRead (t off : Nat) (s : State) : Host.Outcome State Fault Refusal :=
  done ((s.at t).onlyIf s.live (counterLoRead (off / 4096) (off % 4096)))

end Sys2Proof.Machine
end

