-- ==== Sys2Proof/Machine/Registers.lean ====
section
/-!
DEFINITION. Writes of registers (00 R8 to R11; 14 R465; 23 R704 to R719): the plain write, and the common header's fields with
behaviour of their own.
-/

namespace Sys2Proof.Machine

/-! ### The plain write -/

/-- Bytes of PF0's BAR2, and where the CXL component block begins (14 R465; 23 R703). -/
def barBytes : Nat := 0x100000
def componentBase : Nat := 0xF0000

/-- Bits of a register whose write, in the direction given, is a step of its own: the plain write leaves them as they stand. -/
def ownBits (b : Block) (off old val : Nat) : Nat :=
  let rising := val &&& (allBits - (old &&& allBits))
  let falling := old &&& (allBits - (val &&& allBits))
  if off == 0x010 || off == 0x01C || off == 0x030 || off == 0x038 then allBits
  else match b, off with
    | .qmg, 0x040 => 2
    | .cue, 0x040 => (rising &&& 1) ||| (falling &&& 0xE)
    | .cbd, 0x040 => rising &&& 1
    | .flt, 0x040 => rising &&& 1
    | .fab, 0x040 => falling &&& 1
    | .pnm, 0x04C => allBits
    | .wlk, 0x068 => allBits
    | _, _ => 0

/-- Writes that the register's chapter drops (18 R598; 20 R651). -/
def State.dropsWrite (s : State) (b : Block) (off : Nat) : Bool :=
  match b with
  | .flt => 0x090 ≤ off && off ≤ 0x09C && !s.dom.ftm
  | .shp => 0x074 ≤ off && off ≤ 0x08C &&
      (s.shpPort (bitsOf (s.reg pgShp 0x060) 1 0)).bank == bitsOf (s.reg pgShp 0x070) 16 16
  | _ => false

/-- What a plain write does beside setting its fields: CUE_LOG_SIZE is rounded down to a power of two and CUE_LOG_DROP is W1C
(02 R64); Hierarchical, once cleared and set again, ends the fall-back after a parity error (18 R594);
throttling follows the power limit and ThrottleEnable (24 R740). -/
def State.afterWrite (s : State) (b : Block) (off old val : Nat) : State :=
  match b, off with
  | .cue, 0x0B8 => s.setReg pgCue 0x0B8 (2 ^ Nat.log2 (s.reg pgCue 0x0B8))
  | .cue, 0x0C4 => s.setCount pgCue 0x0C4 (s.count pgCue 0x0C4 &&& (allBits - val))
  | .pwr, 0x040 | .pwr, 0x048 => s.throttleCheck
  | .shp, 0x040 => if !bitOf old 0 && bitOf val 0 then { s with shp := { s.shp with tableErr := false } } else s
  | _, _ => s

/-- A read or a write of its registers wakes an instance whose clocks are stopped (23 R705). -/
def State.wake (s : State) (page : Nat) : State := { s with pwr := { s.pwr with stopped := s.pwr.stopped.erase page } }

/-- A 32-bit write at `off` of a page. -/
def plainWrite (page off val : Nat) (s : State) : State :=
  match blockAt page with
  | none => s
  | some (b, _) =>
    let s := s.wake page
    let old := s.reg page off
    let own := ownBits b off old val
    if s.dropsWrite b off then s
    else (s.writeFields page off ((val &&& (allBits - own)) ||| (old &&& own))).afterWrite b off old val

/-- REGISTER_WRITE: `off` counts from the start of BAR2, `width` is in bytes. Only PF0 has registers, only an aligned 32-bit write
takes effect (R11), and BAR2 ends at 1 MiB. -/
def execRegisterWrite (t fn off width : Nat) (val : Word) (s : State) : Host.Outcome State Fault Refusal :=
  if fn ≠ 0 || !s.live then done (s.at t)
  else if barBytes ≤ off then .fault .outsideBar
  else if componentBase ≤ off then .refused .componentBlock
  else done ((s.at t).onlyIf (width == 4 && off % 4 == 0) (plainWrite (off / 4096) (off % 4096) val.toNat))

/-! ### BLK_CTRL (23 R710 to R714) -/

/-- A field of BLK_CTRL set to `on`. -/
def State.setCtrl (s : State) (page bit : Nat) (on : Bool) : State :=
  s.setReg page 0x010 ((s.reg page 0x010 &&& (allBits - 2 ^ bit)) ||| bitAt on bit)

/-- The instance on a page may be quiesced and switched off: every block but the control blocks of pages 0 to 9 (R710). -/
def switchable (page : Nat) : Bool := 10 ≤ page && (blockAt page).isSome

/-- QUIESCE_WRITE (R712). -/
def execQuiesceWrite (t fn page : Nat) (val : Word) (s : State) : Host.Outcome State Fault Refusal :=
  done ((s.at t).onlyIf (s.live && fn == 0 && switchable page) fun s => (s.wake page).setCtrl page 1 (bitOf val.toNat 1))

/-- A write of Enable: 0 takes effect only on a quiesced instance in maintenance, 1 restarts it (R713). -/
def enableWrite (page : Nat) (on : Bool) (s : State) : State :=
  if on then s.setCtrl page 0 true
  else if s.quiesced page && s.cal.maintenance then (s.setCtrl page 0 false) else s

def execEnableWrite (t fn page : Nat) (val : Word) (s : State) : Host.Outcome State Fault Refusal :=
  done ((s.at t).onlyIf (s.live && fn == 0 && switchable page) fun s => enableWrite page (bitOf val.toNat 0) (s.wake page))

/-- BLOCK_RESET_WRITE (R714): ignored for FLT, CBD and SEC (20 R641) and for PRM. -/
def execBlockResetWrite (t fn page : Nat) (val : Word) (s : State) : Host.Outcome State Fault Refusal :=
  done ((s.at t).onlyIf (s.live && fn == 0 && bitOf val.toNat 2 && (blockAt page).isSome && ! [pgFlt, pgCbd, pgSec, pgPrm].contains page) fun s =>
    (s.wake page).startReset page)

/-! ### BLK_LOCK and IRQ_EN (23 R716, R718) -/

/-- BLK_LOCK_WRITE: once set, Locked stays set until the next start (00 R10). -/
def execBlkLockWrite (t fn page : Nat) (val : Word) (s : State) : Host.Outcome State Fault Refusal :=
  done ((s.at t).onlyIf (s.live && fn == 0 && bitOf val.toNat 0 && (blockAt page).isSome) fun s => (s.wake page).setReg page 0x038 1)

/-- IRQ_EN_WRITE: a source that becomes asserted raises an event; one that is deasserted may raise again later. -/
def irqEnWrite (page val : Nat) (s : State) : State :=
  let s := s.writeFields page 0x01C val
  let s := { s with cbd := { s.cbd with known := s.cbd.known.filter s.asserted } }
  (List.range 8).foldl (fun s i => levelSourceAssert (page * 8 + i) s) s

def execIrqEnWrite (t fn page : Nat) (val : Word) (s : State) : Host.Outcome State Fault Refusal :=
  done ((s.at t).onlyIf (s.live && fn == 0 && (blockAt page).isSome) fun s => irqEnWrite page val.toNat (s.wake page))

end Sys2Proof.Machine
end

