-- ==== Sys2Proof/Machine/Dispatch.lean ====
section
/-!
DEFINITION. The meaning of every step: one arm per constructor of `Instr`.
-/

namespace Sys2Proof.Machine

def exec (i : Instr) (s : State) : Host.Outcome State Fault Refusal :=
  match i with
  | .registerWrite t fn off width val => Sys2Proof.Machine.execRegisterWrite t fn off width val s
  | .counterLoRead t off => Sys2Proof.Machine.execCounterLoRead t off s
  | .cueTpLoRead t => Sys2Proof.Machine.execCueTpLoRead t s
  | .hmcUeLocRead t stack => Sys2Proof.Machine.execHmcUeLocRead t stack s
  | .cueHostCommit t fn val => Sys2Proof.Machine.execCueHostCommit t fn val s
  | .cueEnableSet t fn val => Sys2Proof.Machine.execCueEnableSet t fn val s
  | .cueEntRead t fn => Sys2Proof.Machine.execCueEntRead t fn s
  | .cueEntWrite t fn => Sys2Proof.Machine.execCueEntWrite t fn s
  | .cueEntDisarm t fn => Sys2Proof.Machine.execCueEntDisarm t fn s
  | .cueEntCmdInvalid t fn val => Sys2Proof.Machine.execCueEntCmdInvalid t fn val s
  | .qdbSqTailWrite t fn page val => Sys2Proof.Machine.execQdbSqTailWrite t fn page val s
  | .qdbCqHeadWrite t fn page val => Sys2Proof.Machine.execQdbCqHeadWrite t fn page val s
  | .q0EnableWrite t fn val => Sys2Proof.Machine.execQ0EnableWrite t fn val s
  | .commandFetch t => Sys2Proof.Machine.execCommandFetch t s
  | .wlkHistClear t fn val => Sys2Proof.Machine.execWlkHistClear t fn val s
  | .wlkFvcExtentsWrite t fn val => Sys2Proof.Machine.execWlkFvcExtentsWrite t fn val s
  | .encLclear t fn cluster val => Sys2Proof.Machine.execEncLclear t fn cluster val s
  | .pnmRawShareWrite t fn stack val => Sys2Proof.Machine.execPnmRawShareWrite t fn stack val s
  | .cbdEoi t fn val => Sys2Proof.Machine.execCbdEoi t fn val s
  | .cbdArm t fn val => Sys2Proof.Machine.execCbdArm t fn val s
  | .cbdSwSet t fn val => Sys2Proof.Machine.execCbdSwSet t fn val s
  | .cbdSwClr t fn val => Sys2Proof.Machine.execCbdSwClr t fn val s
  | .fltCntClear t fn page val => Sys2Proof.Machine.execFltCntClear t fn page val s
  | .fltGcntClear t fn val => Sys2Proof.Machine.execFltGcntClear t fn val s
  | .fltRelease t fn val => Sys2Proof.Machine.execFltRelease t fn val s
  | .fltInjGo t fn val => Sys2Proof.Machine.execFltInjGo t fn val s
  | .drydownEnableSet t fn val => Sys2Proof.Machine.execDrydownEnableSet t fn val s
  | .shpGclSwap t fn val => Sys2Proof.Machine.execShpGclSwap t fn val s
  | .quiesceWrite t fn page val => Sys2Proof.Machine.execQuiesceWrite t fn page val s
  | .enableWrite t fn page val => Sys2Proof.Machine.execEnableWrite t fn page val s
  | .blockResetWrite t fn page val => Sys2Proof.Machine.execBlockResetWrite t fn page val s
  | .blkLockWrite t fn page val => Sys2Proof.Machine.execBlkLockWrite t fn page val s
  | .irqEnWrite t fn page val => Sys2Proof.Machine.execIrqEnWrite t fn page val s
  | .search t cid => Sys2Proof.Machine.execSearch t cid s
  | .encode t cid reads => Sys2Proof.Machine.execEncode t cid reads s
  | .encodeDropSequence t cid => Sys2Proof.Machine.execEncodeDropSequence t cid s
  | .encodeSearch t cid reads => Sys2Proof.Machine.execEncodeSearch t cid reads s
  | .insert t cid => Sys2Proof.Machine.execInsert t cid s
  | .delete t cid => Sys2Proof.Machine.execDelete t cid s
  | .upsert t cid => Sys2Proof.Machine.execUpsert t cid s
  | .tailSealTimer t coll => Sys2Proof.Machine.execTailSealTimer t coll s
  | .segmentBuildDone t coll seg g => Sys2Proof.Machine.execSegmentBuildDone t coll seg g s
  | .compactionDone t coll g => Sys2Proof.Machine.execCompactionDone t coll g s
  | .entrance t cid => Sys2Proof.Machine.execEntrance t cid s
  | .entrancePublish t coll g => Sys2Proof.Machine.execEntrancePublish t coll g s
  | .gather t cid reads => Sys2Proof.Machine.execGather t cid reads s
  | .writeRows t cid => Sys2Proof.Machine.execWriteRows t cid s
  | .applyGradients t cid => Sys2Proof.Machine.execApplyGradients t cid s
  | .versionOpen t cid => Sys2Proof.Machine.execVersionOpen t cid s
  | .versionDrop t cid => Sys2Proof.Machine.execVersionDrop t cid s
  | .migrate t cid copyFails => Sys2Proof.Machine.execMigrate t cid copyFails s
  | .tableSwitch t cid => Sys2Proof.Machine.execTableSwitch t cid s
  | .tableSwitchTakeEffect t cid => Sys2Proof.Machine.execTableSwitchTakeEffect t cid s
  | .baseRead t cid => Sys2Proof.Machine.execBaseRead t cid s
  | .baseWrite t cid => Sys2Proof.Machine.execBaseWrite t cid s
  | .baseDiscard t cid => Sys2Proof.Machine.execBaseDiscard t cid s
  | .curtain t cid => Sys2Proof.Machine.execCurtain t cid s
  | .abort t cid => Sys2Proof.Machine.execAbort t cid s
  | .run t cid unreadable => Sys2Proof.Machine.execRun t cid unreadable s
  | .scratchOpen t cid => Sys2Proof.Machine.execScratchOpen t cid s
  | .scratchClose t cid => Sys2Proof.Machine.execScratchClose t cid s
  | .calibrate t cid => Sys2Proof.Machine.execCalibrate t cid s
  | .laneBist t cid => Sys2Proof.Machine.execLaneBist t cid s
  | .heartSweep t cid => Sys2Proof.Machine.execHeartSweep t cid s
  | .heartMarch t cid errors => Sys2Proof.Machine.execHeartMarch t cid errors s
  | .portLoopback t cid errors => Sys2Proof.Machine.execPortLoopback t cid errors s
  | .queueCreate t cid => Sys2Proof.Machine.execQueueCreate t cid s
  | .queueDelete t cid => Sys2Proof.Machine.execQueueDelete t cid s
  | .queueReset t cid => Sys2Proof.Machine.execQueueReset t cid s
  | .queueDrained t queue => Sys2Proof.Machine.execQueueDrained t queue s
  | .domainDefine t cid => Sys2Proof.Machine.execDomainDefine t cid s
  | .domainActivate t cid => Sys2Proof.Machine.execDomainActivate t cid s
  | .domainRetire t cid => Sys2Proof.Machine.execDomainRetire t cid s
  | .domainRetireComplete t domain => Sys2Proof.Machine.execDomainRetireComplete t domain s
  | .domainDelete t cid => Sys2Proof.Machine.execDomainDelete t cid s
  | .privGrant t cid => Sys2Proof.Machine.execPrivGrant t cid s
  | .privRevoke t cid => Sys2Proof.Machine.execPrivRevoke t cid s
  | .domainRead t cid => Sys2Proof.Machine.execDomainRead t cid s
  | .quotaSet t cid => Sys2Proof.Machine.execQuotaSet t cid s
  | .rawAlloc t cid => Sys2Proof.Machine.execRawAlloc t cid s
  | .rawFree t cid => Sys2Proof.Machine.execRawFree t cid s
  | .scoreLoad t cid readFails => Sys2Proof.Machine.execScoreLoad t cid readFails s
  | .scoreLoadAdopt t cid readFails => Sys2Proof.Machine.execScoreLoadAdopt t cid readFails s
  | .scoreUnload t cid => Sys2Proof.Machine.execScoreUnload t cid s
  | .tableCreate t cid => Sys2Proof.Machine.execTableCreate t cid s
  | .tableDestroy t cid => Sys2Proof.Machine.execTableDestroy t cid s
  | .evidenceBind t cid => Sys2Proof.Machine.execEvidenceBind t cid s
  | .sillageRing t cid => Sys2Proof.Machine.execSillageRing t cid s
  | .volumeCreate t cid => Sys2Proof.Machine.execVolumeCreate t cid s
  | .volumeDestroy t cid => Sys2Proof.Machine.execVolumeDestroy t cid s
  | .volumeRw t cid => Sys2Proof.Machine.execVolumeRw t cid s
  | .collectionCheckpoint t cid fails => Sys2Proof.Machine.execCollectionCheckpoint t cid fails s
  | .healthRead t cid => Sys2Proof.Machine.execHealthRead t cid s
  | .collectionCreate t cid => Sys2Proof.Machine.execCollectionCreate t cid s
  | .collectionDestroy t cid => Sys2Proof.Machine.execCollectionDestroy t cid s
  | .objectDrained t kind id => Sys2Proof.Machine.execObjectDrained t kind id s
  | .horizonSet t cid => Sys2Proof.Machine.execHorizonSet t cid s
  | .snapshotRelease t cid => Sys2Proof.Machine.execSnapshotRelease t cid s
  | .sourceSet t cid => Sys2Proof.Machine.execSourceSet t cid s
  | .collectionRestore t cid => Sys2Proof.Machine.execCollectionRestore t cid s
  | .ruleWrite t cid => Sys2Proof.Machine.execRuleWrite t cid s
  | .ruleDelete t cid => Sys2Proof.Machine.execRuleDelete t cid s
  | .cueWrite t cid => Sys2Proof.Machine.execCueWrite t cid s
  | .routeSet t cid => Sys2Proof.Machine.execRouteSet t cid s
  | .shardmapSet t cid => Sys2Proof.Machine.execShardmapSet t cid s
  | .replSet t cid => Sys2Proof.Machine.execReplSet t cid s
  | .leaseGrant t cid => Sys2Proof.Machine.execLeaseGrant t cid s
  | .featureFloor t cid => Sys2Proof.Machine.execFeatureFloor t cid s
  | .shardSend t cid => Sys2Proof.Machine.execShardSend t cid s
  | .connReset t cid => Sys2Proof.Machine.execConnReset t cid s
  | .cueSend t cid => Sys2Proof.Machine.execCueSend t cid s
  | .scoreKeyAdd t cid => Sys2Proof.Machine.execScoreKeyAdd t cid s
  | .scoreKeyRemove t cid => Sys2Proof.Machine.execScoreKeyRemove t cid s
  | .measureRead t cid => Sys2Proof.Machine.execMeasureRead t cid s
  | .warmStart t cid => Sys2Proof.Machine.execWarmStart t cid s
  | .maintEnter t cid => Sys2Proof.Machine.execMaintEnter t cid s
  | .maintExit t cid => Sys2Proof.Machine.execMaintExit t cid s
  | .calRead t cid => Sys2Proof.Machine.execCalRead t cid s
  | .calLoad t cid => Sys2Proof.Machine.execCalLoad t cid s
  | .calSave t cid commits => Sys2Proof.Machine.execCalSave t cid commits s
  | .imageWrite t cid => Sys2Proof.Machine.execImageWrite t cid s
  | .tapeSerFrame t raw violation => Sys2Proof.Machine.execTapeSerFrame t raw violation s
  | .tapePpsEdge t => Sys2Proof.Machine.execTapePpsEdge t s
  | .ppsLapse t => Sys2Proof.Machine.execPpsLapse t s
  | .tapeBeaconReceive t port payload => Sys2Proof.Machine.execTapeBeaconReceive t port payload s
  | .tapeBeaconTransmit t => Sys2Proof.Machine.execTapeBeaconTransmit t s
  | .tapeSourceLoss t src port => Sys2Proof.Machine.execTapeSourceLoss t src port s
  | .cueFire t => Sys2Proof.Machine.execCueFire t s
  | .cueSnapshot t => Sys2Proof.Machine.execCueSnapshot t s
  | .cueEntrance t => Sys2Proof.Machine.execCueEntrance t s
  | .cueTableSwitch t => Sys2Proof.Machine.execCueTableSwitch t s
  | .cueGateSwap t => Sys2Proof.Machine.execCueGateSwap t s
  | .cueRehearsalWindow t => Sys2Proof.Machine.execCueRehearsalWindow t s
  | .cueQuotaChange t => Sys2Proof.Machine.execCueQuotaChange t s
  | .cueDomainActivate t => Sys2Proof.Machine.execCueDomainActivate t s
  | .cueDomainRetire t => Sys2Proof.Machine.execCueDomainRetire t s
  | .rehearsalWindowEnd t target r => Sys2Proof.Machine.execRehearsalWindowEnd t target r s
  | .watermarkTimeout t cid => Sys2Proof.Machine.execWatermarkTimeout t cid s
  | .searchContextTake t => Sys2Proof.Machine.execSearchContextTake t s
  | .convoyWindowExpiry t convoy => Sys2Proof.Machine.execConvoyWindowExpiry t convoy s
  | .walkerPassComplete t pass badRecords => Sys2Proof.Machine.execWalkerPassComplete t pass badRecords s
  | .selection t cid lostBlocks topOffset => Sys2Proof.Machine.execSelection t cid lostBlocks topOffset s
  | .uniqueWithCounts t request => Sys2Proof.Machine.execUniqueWithCounts t request s
  | .indexOfMaximum t values higher => Sys2Proof.Machine.execIndexOfMaximum t values higher s
  | .rescoreReadComplete t cid failed => Sys2Proof.Machine.execRescoreReadComplete t cid failed s
  | .shardWaitExpiry t cid => Sys2Proof.Machine.execShardWaitExpiry t cid s
  | .evidenceFetchComplete t cid readErrors => Sys2Proof.Machine.execEvidenceFetchComplete t cid readErrors s
  | .sillageTailPoll t cid => Sys2Proof.Machine.execSillageTailPoll t cid s
  | .stragglerCheck t => Sys2Proof.Machine.execStragglerCheck t s
  | .refresh t stack pseudo => Sys2Proof.Machine.execRefresh t stack pseudo s
  | .rawRunStart t run_ => Sys2Proof.Machine.execRawRunStart t run_ s
  | .rawSegmentEnd t run_ corrections => Sys2Proof.Machine.execRawSegmentEnd t run_ corrections s
  | .rawRunEnd t run_ => Sys2Proof.Machine.execRawRunEnd t run_ s
  | .innerCorrRate t stack unit => Sys2Proof.Machine.execInnerCorrRate t stack unit s
  | .batchWaitExpiry t score => Sys2Proof.Machine.execBatchWaitExpiry t score s
  | .batchStart t => Sys2Proof.Machine.execBatchStart t s
  | .sliceStreamStart t cluster => Sys2Proof.Machine.execSliceStreamStart t cluster s
  | .tileLanding t cluster bytes readFails => Sys2Proof.Machine.execTileLanding t cluster bytes readFails s
  | .batchCommit t cluster unreadable => Sys2Proof.Machine.execBatchCommit t cluster unreadable s
  | .autoHotInterval t table promote demote => Sys2Proof.Machine.execAutoHotInterval t table promote demote s
  | .topScrub t corrected failed => Sys2Proof.Machine.execTopScrub t corrected failed s
  | .patrolScrub t stack corrected failed => Sys2Proof.Machine.execPatrolScrub t stack corrected failed s
  | .outerCorrRate t stack => Sys2Proof.Machine.execOuterCorrRate t stack s
  | .memRd t dpa block => Sys2Proof.Machine.execMemRd t dpa block s
  | .memSpecRd t dpa => Sys2Proof.Machine.execMemSpecRd t dpa s
  | .memInv t dpa => Sys2Proof.Machine.execMemInv t dpa s
  | .memWr t dpa data poison => Sys2Proof.Machine.execMemWr t dpa data poison s
  | .memWrPtl t dpa data enables poison block => Sys2Proof.Machine.execMemWrPtl t dpa data enables poison block s
  | .flashReadComplete t op r => Sys2Proof.Machine.execFlashReadComplete t op r s
  | .flashProgramComplete t op ok => Sys2Proof.Machine.execFlashProgramComplete t op ok s
  | .gcCopyComplete t op verified => Sys2Proof.Machine.execGcCopyComplete t op verified s
  | .flashEraseComplete t op ok => Sys2Proof.Machine.execFlashEraseComplete t op ok s
  | .lunTimeout t op => Sys2Proof.Machine.execLunTimeout t op s
  | .basePatrol t block weak stage3 => Sys2Proof.Machine.execBasePatrol t block weak stage3 s
  | .ftlCheckpoint t => Sys2Proof.Machine.execFtlCheckpoint t s
  | .writeStallExpiry t cid => Sys2Proof.Machine.execWriteStallExpiry t cid s
  | .deviceTempPoll t temps => Sys2Proof.Machine.execDeviceTempPoll t temps s
  | .linkTrain t width rate cxl flit256 => Sys2Proof.Machine.execLinkTrain t width rate cxl flit256 s
  | .linkDown t => Sys2Proof.Machine.execLinkDown t s
  | .linkTrainRetry t width rate cxl flit256 => Sys2Proof.Machine.execLinkTrainRetry t width rate cxl flit256 s
  | .hdmDecoderCommit t base size ways => Sys2Proof.Machine.execHdmDecoderCommit t base size ways s
  | .flrVf t fn => Sys2Proof.Machine.execFlrVf t fn s
  | .flrPf0 t => Sys2Proof.Machine.execFlrPf0 t s
  | .msixMaskClear t fn vector whole => Sys2Proof.Machine.execMsixMaskClear t fn vector whole s
  | .cdatRequest t => Sys2Proof.Machine.execCdatRequest t s
  | .ideKmRequest t session mem refresh => Sys2Proof.Machine.execIdeKmRequest t session mem refresh s
  | .ideFailure t mem => Sys2Proof.Machine.execIdeFailure t mem s
  | .getVersion t r => Sys2Proof.Machine.execGetVersion t r s
  | .getCapabilities t r => Sys2Proof.Machine.execGetCapabilities t r s
  | .negotiateAlgorithms t r => Sys2Proof.Machine.execNegotiateAlgorithms t r s
  | .getDigests t r => Sys2Proof.Machine.execGetDigests t r s
  | .getCertificate t r => Sys2Proof.Machine.execGetCertificate t r s
  | .challenge t r => Sys2Proof.Machine.execChallenge t r s
  | .getMeasurements t r => Sys2Proof.Machine.execGetMeasurements t r s
  | .keyExchange t r => Sys2Proof.Machine.execKeyExchange t r s
  | .finish t r => Sys2Proof.Machine.execFinish t r s
  | .heartbeat t r => Sys2Proof.Machine.execHeartbeat t r s
  | .keyUpdate t r => Sys2Proof.Machine.execKeyUpdate t r s
  | .endSession t r => Sys2Proof.Machine.execEndSession t r s
  | .chunkTransfer t r => Sys2Proof.Machine.execChunkTransfer t r s
  | .vendorDefinedRequest t r => Sys2Proof.Machine.execVendorDefinedRequest t r s
  | .lmsCommit t ok => Sys2Proof.Machine.execLmsCommit t ok s
  | .lmsTreesReady t => Sys2Proof.Machine.execLmsTreesReady t s
  | .laneSwap t port logical => Sys2Proof.Machine.execLaneSwap t port logical s
  | .portBringUp t port b => Sys2Proof.Machine.execPortBringUp t port b s
  | .portBringUpRetry t port b => Sys2Proof.Machine.execPortBringUpRetry t port b s
  | .fabricLinkDown t port => Sys2Proof.Machine.execFabricLinkDown t port s
  | .versionOfferReceive t port payload => Sys2Proof.Machine.execVersionOfferReceive t port payload s
  | .delayProbe t port tag => Sys2Proof.Machine.execDelayProbe t port tag s
  | .delayEcho t port t1 t2 t3 t4 => Sys2Proof.Machine.execDelayEcho t port t1 t2 t3 t4 s
  | .dataFlitReceive t port flit uncorrectable => Sys2Proof.Machine.execDataFlitReceive t port flit uncorrectable s
  | .nakReceive t port ackSeq => Sys2Proof.Machine.execNakReceive t port ackSeq s
  | .messageForward t m => Sys2Proof.Machine.execMessageForward t m s
  | .transportAck t m => Sys2Proof.Machine.execTransportAck t m s
  | .transportOpen t m => Sys2Proof.Machine.execTransportOpen t m s
  | .transportOpenReply t m => Sys2Proof.Machine.execTransportOpenReply t m s
  | .transportClose t m => Sys2Proof.Machine.execTransportClose t m s
  | .connectionResend t partner => Sys2Proof.Machine.execConnectionResend t partner s
  | .connectionOpenRetry t partner => Sys2Proof.Machine.execConnectionOpenRetry t partner s
  | .queryScatterSearch t m => Sys2Proof.Machine.execQueryScatterSearch t m s
  | .queryScatterCommand t m => Sys2Proof.Machine.execQueryScatterCommand t m s
  | .resultGatherReceive t m => Sys2Proof.Machine.execResultGatherReceive t m s
  | .mutationReplicateReceive t m => Sys2Proof.Machine.execMutationReplicateReceive t m s
  | .replIdleSend t coll => Sys2Proof.Machine.execReplIdleSend t coll s
  | .wingsShipReceive t m => Sys2Proof.Machine.execWingsShipReceive t m s
  | .bulkSegReceive t m => Sys2Proof.Machine.execBulkSegReceive t m s
  | .cueSyncReceive t m => Sys2Proof.Machine.execCueSyncReceive t m s
  | .leaseGrantReceive t m => Sys2Proof.Machine.execLeaseGrantReceive t m s
  | .leaseQueryReceive t m => Sys2Proof.Machine.execLeaseQueryReceive t m s
  | .leaseReportReceive t m => Sys2Proof.Machine.execLeaseReportReceive t m s
  | .leaseLapse t => Sys2Proof.Machine.execLeaseLapse t s
  | .messageTransmit t port => Sys2Proof.Machine.execMessageTransmit t port s
  | .gateEntryChange t port => Sys2Proof.Machine.execGateEntryChange t port s
  | .shaperTableError t => Sys2Proof.Machine.execShaperTableError t s
  | .levelSourceAssert t source => Sys2Proof.Machine.execLevelSourceAssert t source s
  | .moderationTimerExpiry t fn vector => Sys2Proof.Machine.execModerationTimerExpiry t fn vector s
  | .edgeLatchHandoff t source => Sys2Proof.Machine.execEdgeLatchHandoff t source s
  | .prompterHandlerEnd t prompter => Sys2Proof.Machine.execPrompterHandlerEnd t prompter s
  | .faultMessage t w0 w1 w2 w3 => Sys2Proof.Machine.execFaultMessage t w0 w1 w2 w3 s
  | .chipResetStart t => Sys2Proof.Machine.execChipResetStart t s
  | .blockResetDone t page => Sys2Proof.Machine.execBlockResetDone t page s
  | .drydownEnd t => Sys2Proof.Machine.execDrydownEnd t s
  | .aliveToggle t => Sys2Proof.Machine.execAliveToggle t s
  | .prompterHeartbeat t prompter => Sys2Proof.Machine.execPrompterHeartbeat t prompter s
  | .prompterHang t prompter => Sys2Proof.Machine.execPrompterHang t prompter s
  | .controlDecision t prompter code target kind => Sys2Proof.Machine.execControlDecision t prompter code target kind s
  | .prompterResetRelease t prompter => Sys2Proof.Machine.execPrompterResetRelease t prompter s
  | .eyeMeasure t port lane height width => Sys2Proof.Machine.execEyeMeasure t port lane height width s
  | .opticalPowerRead t port lane cdbm => Sys2Proof.Machine.execOpticalPowerRead t port lane cdbm s
  | .supplyDroopSample t rail mv => Sys2Proof.Machine.execSupplyDroopSample t rail mv s
  | .powerSample t watts mv amps => Sys2Proof.Machine.execPowerSample t watts mv amps s
  | .thermalSample t temps => Sys2Proof.Machine.execThermalSample t temps s
  | .thermalHardTrip t sensor => Sys2Proof.Machine.execThermalHardTrip t sensor s
  | .clockStop t page => Sys2Proof.Machine.execClockStop t page s
  | .faultInputEdge t input => Sys2Proof.Machine.execFaultInputEdge t input s
  | .porRelease t bootSel ftmEn => Sys2Proof.Machine.execPorRelease t bootSel ftmEn s
  | .sysRstRelease t => Sys2Proof.Machine.execSysRstRelease t s
  | .perstRelease t width rate cxl flit256 => Sys2Proof.Machine.execPerstRelease t width rate cxl flit256 s
  | .resetInputFall t pin => Sys2Proof.Machine.execResetInputFall t pin s
  | .coldStart t inp => Sys2Proof.Machine.execColdStart t inp s
  | .warmStartSequence t inp => Sys2Proof.Machine.execWarmStartSequence t inp s
  | .startLimitExpiry t => Sys2Proof.Machine.execStartLimitExpiry t s
  | .mgmtPortSmbusFallback t => Sys2Proof.Machine.execMgmtPortSmbusFallback t s
  | .i3cBroadcastReceive t => Sys2Proof.Machine.execI3cBroadcastReceive t s
  | .sysClkLoss t => Sys2Proof.Machine.execSysClkLoss t s
  | .referenceLoss t ref => Sys2Proof.Machine.execReferenceLoss t ref s
  | .supplyFail t rail => Sys2Proof.Machine.execSupplyFail t rail s
  | .tapeSourceDisable t fn val => Sys2Proof.Machine.execTapeSourceDisable t fn val s
  | .portDisable t fn port val => Sys2Proof.Machine.execPortDisable t fn port val s
  | .cbdHostEnableSet t fn val => Sys2Proof.Machine.execCbdHostEnableSet t fn val s
  | .msixEnableClear t fn => Sys2Proof.Machine.execMsixEnableClear t fn s
  | .sysClkReturn t => Sys2Proof.Machine.execSysClkReturn t s
  | .supplyReturn t rail => Sys2Proof.Machine.execSupplyReturn t rail s
  | .unitParityError t stack unit => Sys2Proof.Machine.execUnitParityError t stack unit s
  | .arrayParityError t cluster array => Sys2Proof.Machine.execArrayParityError t cluster array s
  | .idleFlitReceive t port flit => Sys2Proof.Machine.execIdleFlitReceive t port flit s
  | .shaperBucketRefill t port subscriber => Sys2Proof.Machine.execShaperBucketRefill t port subscriber s
  | .laneRetrainEnd t port lane ok => Sys2Proof.Machine.execLaneRetrainEnd t port lane ok s
  | .modulePresenceChange t port isPresent supported => Sys2Proof.Machine.execModulePresenceChange t port isPresent supported s
  | .doeAbort t mailbox => Sys2Proof.Machine.execDoeAbort t mailbox s
  | .debugPortAccess t addr isWrite val => Sys2Proof.Machine.execDebugPortAccess t addr isWrite val s
  | .i3cDynamicAddress t addr => Sys2Proof.Machine.execI3cDynamicAddress t addr s

end Sys2Proof.Machine
end

