-- ==== Sys2Proof/Machine/Step.lean ====
section
/-!
DEFINITION. One step of the node: the step at the front of the queue is taken; on an empty queue the node idles.
-/

namespace Sys2Proof.Machine

/-- No row of the table has bits, so no word spells a step and the queue stays as it is (log entry 1). -/
def State.withFetchWord (s : State) (_nbits _w : Nat) : State := s

/-- Take the step at the front of the queue and run it with the queue's rest; on an empty queue, idle (log entry 3). -/
def step (s : State) : Host.Outcome State Fault Refusal :=
  match s.pending with
  | [] => .next s
  | i :: rest => exec i { s with pending := rest }

end Sys2Proof.Machine
end

