-- ==== Sys2Proof/WellFormed.lean ====
section
/-!
DEFINITION. Well-formed steps: every operand that numbers a part of the node numbers one that the node has, and every byte
string has the length that its form gives it. The local time of each step.
-/

namespace Sys2Proof

/-- PF0 or one of its 255 virtual functions (14 R464). -/
def fnOk (fn : Nat) : Bool := decide (fn < 256)

/-- A page of PF0's register pages (23 R703). -/
def pageOk (page : Nat) : Bool := decide (page < 240)

/-- A fabric message arrives on one of four ports behind a 32-byte header (17 R543, R562). -/
def fabMsgOk (m : FabMsg) : Bool := decide (m.port < 4) && m.header.length == 32

/-- The local time at which a step takes place (log entry 2). -/
def Instr.time : Instr → Nat
  | .registerWrite t _ _ _ _ => t
  | .counterLoRead t _ => t
  | .cueTpLoRead t => t
  | .hmcUeLocRead t _ => t
  | .cueHostCommit t _ _ => t
  | .cueEnableSet t _ _ => t
  | .cueEntRead t _ => t
  | .cueEntWrite t _ => t
  | .cueEntDisarm t _ => t
  | .cueEntCmdInvalid t _ _ => t
  | .qdbSqTailWrite t _ _ _ => t
  | .qdbCqHeadWrite t _ _ _ => t
  | .q0EnableWrite t _ _ => t
  | .commandFetch t => t
  | .wlkHistClear t _ _ => t
  | .wlkFvcExtentsWrite t _ _ => t
  | .encLclear t _ _ _ => t
  | .pnmRawShareWrite t _ _ _ => t
  | .cbdEoi t _ _ => t
  | .cbdArm t _ _ => t
  | .cbdSwSet t _ _ => t
  | .cbdSwClr t _ _ => t
  | .fltCntClear t _ _ _ => t
  | .fltGcntClear t _ _ => t
  | .fltRelease t _ _ => t
  | .fltInjGo t _ _ => t
  | .drydownEnableSet t _ _ => t
  | .shpGclSwap t _ _ => t
  | .quiesceWrite t _ _ _ => t
  | .enableWrite t _ _ _ => t
  | .blockResetWrite t _ _ _ => t
  | .blkLockWrite t _ _ _ => t
  | .irqEnWrite t _ _ _ => t
  | .search t _ => t
  | .encode t _ _ => t
  | .encodeDropSequence t _ => t
  | .encodeSearch t _ _ => t
  | .insert t _ => t
  | .delete t _ => t
  | .upsert t _ => t
  | .tailSealTimer t _ => t
  | .segmentBuildDone t _ _ _ => t
  | .compactionDone t _ _ => t
  | .entrance t _ => t
  | .entrancePublish t _ _ => t
  | .gather t _ _ => t
  | .writeRows t _ => t
  | .applyGradients t _ => t
  | .versionOpen t _ => t
  | .versionDrop t _ => t
  | .migrate t _ _ => t
  | .tableSwitch t _ => t
  | .tableSwitchTakeEffect t _ => t
  | .baseRead t _ => t
  | .baseWrite t _ => t
  | .baseDiscard t _ => t
  | .curtain t _ => t
  | .abort t _ => t
  | .run t _ _ => t
  | .scratchOpen t _ => t
  | .scratchClose t _ => t
  | .calibrate t _ => t
  | .laneBist t _ => t
  | .heartSweep t _ => t
  | .heartMarch t _ _ => t
  | .portLoopback t _ _ => t
  | .queueCreate t _ => t
  | .queueDelete t _ => t
  | .queueReset t _ => t
  | .queueDrained t _ => t
  | .domainDefine t _ => t
  | .domainActivate t _ => t
  | .domainRetire t _ => t
  | .domainRetireComplete t _ => t
  | .domainDelete t _ => t
  | .privGrant t _ => t
  | .privRevoke t _ => t
  | .domainRead t _ => t
  | .quotaSet t _ => t
  | .rawAlloc t _ => t
  | .rawFree t _ => t
  | .scoreLoad t _ _ => t
  | .scoreLoadAdopt t _ _ => t
  | .scoreUnload t _ => t
  | .tableCreate t _ => t
  | .tableDestroy t _ => t
  | .evidenceBind t _ => t
  | .sillageRing t _ => t
  | .volumeCreate t _ => t
  | .volumeDestroy t _ => t
  | .volumeRw t _ => t
  | .collectionCheckpoint t _ _ => t
  | .healthRead t _ => t
  | .collectionCreate t _ => t
  | .collectionDestroy t _ => t
  | .objectDrained t _ _ => t
  | .horizonSet t _ => t
  | .snapshotRelease t _ => t
  | .sourceSet t _ => t
  | .collectionRestore t _ => t
  | .ruleWrite t _ => t
  | .ruleDelete t _ => t
  | .cueWrite t _ => t
  | .routeSet t _ => t
  | .shardmapSet t _ => t
  | .replSet t _ => t
  | .leaseGrant t _ => t
  | .featureFloor t _ => t
  | .shardSend t _ => t
  | .connReset t _ => t
  | .cueSend t _ => t
  | .scoreKeyAdd t _ => t
  | .scoreKeyRemove t _ => t
  | .measureRead t _ => t
  | .warmStart t _ => t
  | .maintEnter t _ => t
  | .maintExit t _ => t
  | .calRead t _ => t
  | .calLoad t _ => t
  | .calSave t _ _ => t
  | .imageWrite t _ => t
  | .tapeSerFrame t _ _ => t
  | .tapePpsEdge t => t
  | .ppsLapse t => t
  | .tapeBeaconReceive t _ _ => t
  | .tapeBeaconTransmit t => t
  | .tapeSourceLoss t _ _ => t
  | .cueFire t => t
  | .cueSnapshot t => t
  | .cueEntrance t => t
  | .cueTableSwitch t => t
  | .cueGateSwap t => t
  | .cueRehearsalWindow t => t
  | .cueQuotaChange t => t
  | .cueDomainActivate t => t
  | .cueDomainRetire t => t
  | .rehearsalWindowEnd t _ _ => t
  | .watermarkTimeout t _ => t
  | .searchContextTake t => t
  | .convoyWindowExpiry t _ => t
  | .walkerPassComplete t _ _ => t
  | .selection t _ _ _ => t
  | .uniqueWithCounts t _ => t
  | .indexOfMaximum t _ _ => t
  | .rescoreReadComplete t _ _ => t
  | .shardWaitExpiry t _ => t
  | .evidenceFetchComplete t _ _ => t
  | .sillageTailPoll t _ => t
  | .stragglerCheck t => t
  | .refresh t _ _ => t
  | .rawRunStart t _ => t
  | .rawSegmentEnd t _ _ => t
  | .rawRunEnd t _ => t
  | .innerCorrRate t _ _ => t
  | .batchWaitExpiry t _ => t
  | .batchStart t => t
  | .sliceStreamStart t _ => t
  | .tileLanding t _ _ _ => t
  | .batchCommit t _ _ => t
  | .autoHotInterval t _ _ _ => t
  | .topScrub t _ _ => t
  | .patrolScrub t _ _ _ => t
  | .outerCorrRate t _ => t
  | .memRd t _ _ => t
  | .memSpecRd t _ => t
  | .memInv t _ => t
  | .memWr t _ _ _ => t
  | .memWrPtl t _ _ _ _ _ => t
  | .flashReadComplete t _ _ => t
  | .flashProgramComplete t _ _ => t
  | .gcCopyComplete t _ _ => t
  | .flashEraseComplete t _ _ => t
  | .lunTimeout t _ => t
  | .basePatrol t _ _ _ => t
  | .ftlCheckpoint t => t
  | .writeStallExpiry t _ => t
  | .deviceTempPoll t _ => t
  | .linkTrain t _ _ _ _ => t
  | .linkDown t => t
  | .linkTrainRetry t _ _ _ _ => t
  | .hdmDecoderCommit t _ _ _ => t
  | .flrVf t _ => t
  | .flrPf0 t => t
  | .msixMaskClear t _ _ _ => t
  | .cdatRequest t => t
  | .ideKmRequest t _ _ _ => t
  | .ideFailure t _ => t
  | .getVersion t _ => t
  | .getCapabilities t _ => t
  | .negotiateAlgorithms t _ => t
  | .getDigests t _ => t
  | .getCertificate t _ => t
  | .challenge t _ => t
  | .getMeasurements t _ => t
  | .keyExchange t _ => t
  | .finish t _ => t
  | .heartbeat t _ => t
  | .keyUpdate t _ => t
  | .endSession t _ => t
  | .chunkTransfer t _ => t
  | .vendorDefinedRequest t _ => t
  | .lmsCommit t _ => t
  | .lmsTreesReady t => t
  | .laneSwap t _ _ => t
  | .portBringUp t _ _ => t
  | .portBringUpRetry t _ _ => t
  | .fabricLinkDown t _ => t
  | .versionOfferReceive t _ _ => t
  | .delayProbe t _ _ => t
  | .delayEcho t _ _ _ _ _ => t
  | .dataFlitReceive t _ _ _ => t
  | .nakReceive t _ _ => t
  | .messageForward t _ => t
  | .transportAck t _ => t
  | .transportOpen t _ => t
  | .transportOpenReply t _ => t
  | .transportClose t _ => t
  | .connectionResend t _ => t
  | .connectionOpenRetry t _ => t
  | .queryScatterSearch t _ => t
  | .queryScatterCommand t _ => t
  | .resultGatherReceive t _ => t
  | .mutationReplicateReceive t _ => t
  | .replIdleSend t _ => t
  | .wingsShipReceive t _ => t
  | .bulkSegReceive t _ => t
  | .cueSyncReceive t _ => t
  | .leaseGrantReceive t _ => t
  | .leaseQueryReceive t _ => t
  | .leaseReportReceive t _ => t
  | .leaseLapse t => t
  | .messageTransmit t _ => t
  | .gateEntryChange t _ => t
  | .shaperTableError t => t
  | .levelSourceAssert t _ => t
  | .moderationTimerExpiry t _ _ => t
  | .edgeLatchHandoff t _ => t
  | .prompterHandlerEnd t _ => t
  | .faultMessage t _ _ _ _ => t
  | .chipResetStart t => t
  | .blockResetDone t _ => t
  | .drydownEnd t => t
  | .aliveToggle t => t
  | .prompterHeartbeat t _ => t
  | .prompterHang t _ => t
  | .controlDecision t _ _ _ _ => t
  | .prompterResetRelease t _ => t
  | .eyeMeasure t _ _ _ _ => t
  | .opticalPowerRead t _ _ _ => t
  | .supplyDroopSample t _ _ => t
  | .powerSample t _ _ _ => t
  | .thermalSample t _ => t
  | .thermalHardTrip t _ => t
  | .clockStop t _ => t
  | .faultInputEdge t _ => t
  | .porRelease t _ _ => t
  | .sysRstRelease t => t
  | .perstRelease t _ _ _ _ => t
  | .resetInputFall t _ => t
  | .coldStart t _ => t
  | .warmStartSequence t _ => t
  | .startLimitExpiry t => t
  | .mgmtPortSmbusFallback t => t
  | .i3cBroadcastReceive t => t
  | .sysClkLoss t => t
  | .referenceLoss t _ => t
  | .supplyFail t _ => t
  | .tapeSourceDisable t _ _ => t
  | .portDisable t _ _ _ => t
  | .cbdHostEnableSet t _ _ => t
  | .msixEnableClear t _ => t
  | .sysClkReturn t => t
  | .supplyReturn t _ => t
  | .unitParityError t _ _ => t
  | .arrayParityError t _ _ => t
  | .idleFlitReceive t _ _ => t
  | .shaperBucketRefill t _ _ => t
  | .laneRetrainEnd t _ _ _ => t
  | .modulePresenceChange t _ _ _ => t
  | .doeAbort t _ => t
  | .debugPortAccess t _ _ _ => t
  | .i3cDynamicAddress t _ => t

/-- Whether every operand of a step lies in the range its form gives it. -/
def Instr.wf : Instr → Bool
  | .registerWrite _ fn _ width _ => fnOk fn && [1, 2, 4, 8].contains width
  | .counterLoRead _ _ => true
  | .cueTpLoRead _ => true
  | .hmcUeLocRead _ stack => decide (stack < 8)
  | .cueHostCommit _ fn _ => fnOk fn
  | .cueEnableSet _ fn _ => fnOk fn
  | .cueEntRead _ fn => fnOk fn
  | .cueEntWrite _ fn => fnOk fn
  | .cueEntDisarm _ fn => fnOk fn
  | .cueEntCmdInvalid _ fn _ => fnOk fn
  | .qdbSqTailWrite _ fn page _ => fnOk fn && decide (page < 4096)
  | .qdbCqHeadWrite _ fn page _ => fnOk fn && decide (page < 4096)
  | .q0EnableWrite _ fn _ => fnOk fn
  | .commandFetch _ => true
  | .wlkHistClear _ fn _ => fnOk fn
  | .wlkFvcExtentsWrite _ fn _ => fnOk fn
  | .encLclear _ fn cluster _ => fnOk fn && decide (cluster < 4)
  | .pnmRawShareWrite _ fn stack _ => fnOk fn && decide (stack < 8)
  | .cbdEoi _ fn _ => fnOk fn
  | .cbdArm _ fn _ => fnOk fn
  | .cbdSwSet _ fn _ => fnOk fn
  | .cbdSwClr _ fn _ => fnOk fn
  | .fltCntClear _ fn page _ => fnOk fn && pageOk page
  | .fltGcntClear _ fn _ => fnOk fn
  | .fltRelease _ fn _ => fnOk fn
  | .fltInjGo _ fn _ => fnOk fn
  | .drydownEnableSet _ fn _ => fnOk fn
  | .shpGclSwap _ fn _ => fnOk fn
  | .quiesceWrite _ fn page _ => fnOk fn && pageOk page
  | .enableWrite _ fn page _ => fnOk fn && pageOk page
  | .blockResetWrite _ fn page _ => fnOk fn && pageOk page
  | .blkLockWrite _ fn page _ => fnOk fn && pageOk page
  | .irqEnWrite _ fn page _ => fnOk fn && pageOk page
  | .search _ _ => true
  | .encode _ _ _ => true
  | .encodeDropSequence _ _ => true
  | .encodeSearch _ _ _ => true
  | .insert _ _ => true
  | .delete _ _ => true
  | .upsert _ _ => true
  | .tailSealTimer _ _ => true
  | .segmentBuildDone _ _ _ _ => true
  | .compactionDone _ _ _ => true
  | .entrance _ _ => true
  | .entrancePublish _ _ _ => true
  | .gather _ _ _ => true
  | .writeRows _ _ => true
  | .applyGradients _ _ => true
  | .versionOpen _ _ => true
  | .versionDrop _ _ => true
  | .migrate _ _ _ => true
  | .tableSwitch _ _ => true
  | .tableSwitchTakeEffect _ _ => true
  | .baseRead _ _ => true
  | .baseWrite _ _ => true
  | .baseDiscard _ _ => true
  | .curtain _ _ => true
  | .abort _ _ => true
  | .run _ _ _ => true
  | .scratchOpen _ _ => true
  | .scratchClose _ _ => true
  | .calibrate _ _ => true
  | .laneBist _ _ => true
  | .heartSweep _ _ => true
  | .heartMarch _ _ _ => true
  | .portLoopback _ _ _ => true
  | .queueCreate _ _ => true
  | .queueDelete _ _ => true
  | .queueReset _ _ => true
  | .queueDrained _ queue => decide (queue < 2048)
  | .domainDefine _ _ => true
  | .domainActivate _ _ => true
  | .domainRetire _ _ => true
  | .domainRetireComplete _ domain => decide (domain < 4096)
  | .domainDelete _ _ => true
  | .privGrant _ _ => true
  | .privRevoke _ _ => true
  | .domainRead _ _ => true
  | .quotaSet _ _ => true
  | .rawAlloc _ _ => true
  | .rawFree _ _ => true
  | .scoreLoad _ _ _ => true
  | .scoreLoadAdopt _ _ _ => true
  | .scoreUnload _ _ => true
  | .tableCreate _ _ => true
  | .tableDestroy _ _ => true
  | .evidenceBind _ _ => true
  | .sillageRing _ _ => true
  | .volumeCreate _ _ => true
  | .volumeDestroy _ _ => true
  | .volumeRw _ _ => true
  | .collectionCheckpoint _ _ _ => true
  | .healthRead _ _ => true
  | .collectionCreate _ _ => true
  | .collectionDestroy _ _ => true
  | .objectDrained _ _ _ => true
  | .horizonSet _ _ => true
  | .snapshotRelease _ _ => true
  | .sourceSet _ _ => true
  | .collectionRestore _ _ => true
  | .ruleWrite _ _ => true
  | .ruleDelete _ _ => true
  | .cueWrite _ _ => true
  | .routeSet _ _ => true
  | .shardmapSet _ _ => true
  | .replSet _ _ => true
  | .leaseGrant _ _ => true
  | .featureFloor _ _ => true
  | .shardSend _ _ => true
  | .connReset _ _ => true
  | .cueSend _ _ => true
  | .scoreKeyAdd _ _ => true
  | .scoreKeyRemove _ _ => true
  | .measureRead _ _ => true
  | .warmStart _ _ => true
  | .maintEnter _ _ => true
  | .maintExit _ _ => true
  | .calRead _ _ => true
  | .calLoad _ _ => true
  | .calSave _ _ _ => true
  | .imageWrite _ _ => true
  | .tapeSerFrame _ raw _ => raw.length == 32
  | .tapePpsEdge _ => true
  | .ppsLapse _ => true
  | .tapeBeaconReceive _ port payload => decide (port < 4) && payload.length == 24
  | .tapeBeaconTransmit _ => true
  | .tapeSourceLoss _ _ port => decide (port < 4)
  | .cueFire _ => true
  | .cueSnapshot _ => true
  | .cueEntrance _ => true
  | .cueTableSwitch _ => true
  | .cueGateSwap _ => true
  | .cueRehearsalWindow _ => true
  | .cueQuotaChange _ => true
  | .cueDomainActivate _ => true
  | .cueDomainRetire _ => true
  | .rehearsalWindowEnd _ _ _ => true
  | .watermarkTimeout _ _ => true
  | .searchContextTake _ => true
  | .convoyWindowExpiry _ _ => true
  | .walkerPassComplete _ _ _ => true
  | .selection _ _ _ _ => true
  | .uniqueWithCounts _ _ => true
  | .indexOfMaximum _ _ _ => true
  | .rescoreReadComplete _ _ _ => true
  | .shardWaitExpiry _ _ => true
  | .evidenceFetchComplete _ _ _ => true
  | .sillageTailPoll _ _ => true
  | .stragglerCheck _ => true
  | .refresh _ stack pseudo => decide (stack < 8) && decide (pseudo < 64)
  | .rawRunStart _ _ => true
  | .rawSegmentEnd _ _ _ => true
  | .rawRunEnd _ _ => true
  | .innerCorrRate _ stack unit => decide (stack < 8) && decide (unit < 512)
  | .batchWaitExpiry _ _ => true
  | .batchStart _ => true
  | .sliceStreamStart _ cluster => decide (cluster < 4)
  | .tileLanding _ cluster _ _ => decide (cluster < 4)
  | .batchCommit _ cluster _ => decide (cluster < 4)
  | .autoHotInterval _ _ _ _ => true
  | .topScrub _ _ _ => true
  | .patrolScrub _ stack _ _ => decide (stack < 8)
  | .outerCorrRate _ stack => decide (stack < 8)
  | .memRd _ _ _ => true
  | .memSpecRd _ _ => true
  | .memInv _ _ => true
  | .memWr _ _ data _ => data.length == 64
  | .memWrPtl _ _ data enables _ _ => data.length == 64 && enables.length == 64
  | .flashReadComplete _ _ _ => true
  | .flashProgramComplete _ _ _ => true
  | .gcCopyComplete _ _ _ => true
  | .flashEraseComplete _ _ _ => true
  | .lunTimeout _ _ => true
  | .basePatrol _ _ _ _ => true
  | .ftlCheckpoint _ => true
  | .writeStallExpiry _ _ => true
  | .deviceTempPoll _ _ => true
  | .linkTrain _ width _ _ _ => [0, 1, 2, 4, 8, 16].contains width
  | .linkDown _ => true
  | .linkTrainRetry _ width _ _ _ => [0, 1, 2, 4, 8, 16].contains width
  | .hdmDecoderCommit _ _ _ _ => true
  | .flrVf _ fn => fnOk fn
  | .flrPf0 _ => true
  | .msixMaskClear _ fn vector _ => fnOk fn && decide (vector < 2048)
  | .cdatRequest _ => true
  | .ideKmRequest _ _ _ _ => true
  | .ideFailure _ _ => true
  | .getVersion _ _ => true
  | .getCapabilities _ _ => true
  | .negotiateAlgorithms _ _ => true
  | .getDigests _ _ => true
  | .getCertificate _ _ => true
  | .challenge _ _ => true
  | .getMeasurements _ _ => true
  | .keyExchange _ _ => true
  | .finish _ _ => true
  | .heartbeat _ _ => true
  | .keyUpdate _ _ => true
  | .endSession _ _ => true
  | .chunkTransfer _ _ => true
  | .vendorDefinedRequest _ _ => true
  | .lmsCommit _ _ => true
  | .lmsTreesReady _ => true
  | .laneSwap _ port logical => decide (port < 4) && decide (logical < 4)
  | .portBringUp _ port b => decide (port < 4) && b.goodLanes.all (fun l => decide (l < 5))
  | .portBringUpRetry _ port b => decide (port < 4) && b.goodLanes.all (fun l => decide (l < 5))
  | .fabricLinkDown _ port => decide (port < 4)
  | .versionOfferReceive _ port payload => decide (port < 4) && payload.length == 32
  | .delayProbe _ port _ => decide (port < 4)
  | .delayEcho _ port _ _ _ _ => decide (port < 4)
  | .dataFlitReceive _ port flit _ => decide (port < 4) && flit.length == 256
  | .nakReceive _ port _ => decide (port < 4)
  | .messageForward _ m => fabMsgOk m
  | .transportAck _ m => fabMsgOk m
  | .transportOpen _ m => fabMsgOk m
  | .transportOpenReply _ m => fabMsgOk m
  | .transportClose _ m => fabMsgOk m
  | .connectionResend _ partner => decide (partner < 1024)
  | .connectionOpenRetry _ partner => decide (partner < 1024)
  | .queryScatterSearch _ m => fabMsgOk m
  | .queryScatterCommand _ m => fabMsgOk m
  | .resultGatherReceive _ m => fabMsgOk m
  | .mutationReplicateReceive _ m => fabMsgOk m
  | .replIdleSend _ _ => true
  | .wingsShipReceive _ m => fabMsgOk m
  | .bulkSegReceive _ m => fabMsgOk m
  | .cueSyncReceive _ m => fabMsgOk m
  | .leaseGrantReceive _ m => fabMsgOk m
  | .leaseQueryReceive _ m => fabMsgOk m
  | .leaseReportReceive _ m => fabMsgOk m
  | .leaseLapse _ => true
  | .messageTransmit _ port => decide (port < 4)
  | .gateEntryChange _ port => decide (port < 4)
  | .shaperTableError _ => true
  | .levelSourceAssert _ source => decide (source < 1024)
  | .moderationTimerExpiry _ fn vector => fnOk fn && decide (vector < 2048)
  | .edgeLatchHandoff _ source => decide (source < 1024)
  | .prompterHandlerEnd _ prompter => decide (prompter < 8)
  | .faultMessage _ _ _ _ _ => true
  | .chipResetStart _ => true
  | .blockResetDone _ page => pageOk page
  | .drydownEnd _ => true
  | .aliveToggle _ => true
  | .prompterHeartbeat _ prompter => decide (prompter < 8)
  | .prompterHang _ prompter => decide (prompter < 8)
  | .controlDecision _ prompter _ _ _ => decide (prompter < 8)
  | .prompterResetRelease _ prompter => decide (prompter < 8)
  | .eyeMeasure _ port lane _ _ => decide (port < 5) && decide (lane < 16)
  | .opticalPowerRead _ port lane _ => decide (port < 4) && decide (lane < 5)
  | .supplyDroopSample _ rail _ => decide (rail < 6)
  | .powerSample _ _ _ _ => true
  | .thermalSample _ temps => temps.length == 72
  | .thermalHardTrip _ sensor => decide (sensor < 72)
  | .clockStop _ page => pageOk page
  | .faultInputEdge _ input => decide (input < 2)
  | .porRelease _ bootSel _ => decide (bootSel < 4)
  | .sysRstRelease _ => true
  | .perstRelease _ width _ _ _ => [0, 1, 2, 4, 8, 16].contains width
  | .resetInputFall _ pin => decide (pin < 3)
  | .coldStart _ _ => true
  | .warmStartSequence _ _ => true
  | .startLimitExpiry _ => true
  | .mgmtPortSmbusFallback _ => true
  | .i3cBroadcastReceive _ => true
  | .sysClkLoss _ => true
  | .referenceLoss _ ref => decide (ref < 3)
  | .supplyFail _ rail => decide (rail < 6)
  | .tapeSourceDisable _ fn _ => fnOk fn
  | .portDisable _ fn port _ => fnOk fn && decide (port < 4)
  | .cbdHostEnableSet _ fn _ => fnOk fn
  | .msixEnableClear _ fn => fnOk fn
  | .sysClkReturn _ => true
  | .supplyReturn _ rail => decide (rail < 6)
  | .unitParityError _ stack unit => decide (stack < 8) && decide (unit < 512)
  | .arrayParityError _ cluster array => decide (cluster < 4) && decide (array < 16)
  | .idleFlitReceive _ port flit => decide (port < 4) && flit.length == 256
  | .shaperBucketRefill _ port _ => decide (port < 4)
  | .laneRetrainEnd _ port lane _ => decide (port < 4) && decide (lane < 5)
  | .modulePresenceChange _ port _ _ => decide (port < 4)
  | .doeAbort _ mailbox => decide (mailbox < 3)
  | .debugPortAccess _ _ _ _ => true
  | .i3cDynamicAddress _ addr => decide (addr < 128)

end Sys2Proof
end

