-- ==== Sys2Proof/Safety.lean ====
section
/-!
DEFINITION. What counts as a good state and a good step, in the terms the statements use: the invariant that every step keeps,
the commands that wait for their own step, the registers that a plain write reaches, and what arrives over the fabric.
-/

namespace Sys2Proof.Machine

/-- The node watermark is at least what its sources, or with none Active the Tape, now give (03 R84). -/
def State.WatermarkGiven (s : State) : Prop := s.givenWatermark ≤ s.wlk.watermark

/-- Every collection with AutoHorizon stands at or above the position AutoHorizon raises it to (03 R92). -/
def State.HorizonsRisen (s : State) : Prop :=
  ∀ e ∈ s.wlk.colls, e.2.autoHorizon = true → e.2.autoTarget s.wlk.watermark ≤ e.2.horizon

/-- No search that the watermark has reached, or whose timeout has passed with OnTimeout, is still Waiting (04 R110). -/
def State.NoReadySearchWaits (s : State) : Prop :=
  ∀ e ∈ s.wlk.searches, e.2.stage = .queued → (e.2.timedOut = true ∨ e.2.asOf ≤ s.wlk.watermark) → e.2.readyAt.isSome = true

/-- Only an asserted source counts as a source whose present assertion has been handled (19 R615). -/
def State.KnownAsserted (s : State) : Prop := ∀ src ∈ s.cbd.known, s.asserted src = true

/-- What holds between any two steps of the node. -/
structure State.Inv (s : State) : Prop where
  watermark : s.WatermarkGiven
  horizons  : s.HorizonsRisen
  searches  : s.NoReadySearchWaits
  known     : s.KnownAsserted

/-- The command `k`, numbered `cid`, has been admitted by a node in service, and its own step is still to be taken. -/
structure State.Submitted (s : State) (cid op : Nat) (k : Cmd) : Prop where
  live     : s.live = true
  found    : s.cmd? cid = some k
  notWarm  : k.warm = none
  admitted : k.phase = .admitted
  opcode   : cmdOpcode k.raw = op

/-- An ADMIN command of AdminOp `op`, admitted and still to be carried out (15 R505). -/
structure State.SubmittedAdmin (s : State) (cid op : Nat) (k : Cmd) : Prop where
  toCmd   : s.Submitted cid 0x38 k
  adminOp : cmdAdminOp k.raw = op

/-- The register at `off` of `page` has no behaviour but its access codes for a write of `val`: one copy, no node-wide bit, no
range that the node clamps to, no bit whose write is a step of its own, and nothing that its chapter drops or adds. -/
structure State.PlainRegister (s : State) (page off val : Nat) (b : Block) (d : RegDef) : Prop where
  block   : (blockAt page).map (fun e => e.1) = some b
  reg     : regDef b off = some d
  oneCopy : d.sel = .one
  ownPage : d.node = 0
  noRange : d.clamps = []
  noOwn   : ownBits b off (s.reg page off) val = 0
  taken   : s.dropsWrite b off = false
  noMore  : ¬ ((b = .cue ∧ (off = 0x0B8 ∨ off = 0x0C4)) ∨ (b = .pwr ∧ (off = 0x040 ∨ off = 0x048)) ∨ (b = .shp ∧ off = 0x040))

/-- A message of a type, whole and of major version 1, arrives for this node on a port that is Up (17 R559, R562). -/
structure State.Arrives (s : State) (f : FabMsg) (type : Nat) : Prop where
  live  : s.live = true
  up    : (s.port f.port).up = true
  whole : (wire f).whole = true
  dest  : (wire f).dest = s.nodeId
  type  : (wire f).type = type
  major : (wire f).major = 1

/-- A transport segment of an op arrives for this node (17 R560). -/
structure State.SegmentArrives (s : State) (f : FabMsg) (op : Nat) : Prop where
  arrives : s.Arrives f 0
  bytes   : (wire f).payload.length = 32
  op      : fieldAt (wire f).payload 0 1 = op

/-- The next numbered message of an Open connection arrives (17 R559). -/
structure State.NextArrives (s : State) (f : FabMsg) (type : Nat) : Prop where
  arrives : s.Arrives f type
  isOpen  : (s.conn (wire f).src).state = .open
  next    : (wire f).seq = (s.conn (wire f).src).seqRx

/-- The node at time `t` once it has accepted and acknowledged the next message of a connection (17 R559). -/
def State.acked (s : State) (t : Nat) (m : Msg) : State :=
  let u := (s.at t).setConn m.src { s.conn m.src with seqRx := ((s.conn m.src).seqRx + 1) % 2 ^ 32 }
  u.sendSegment (u.segment m.src 0 m.seq (s.conn m.src).offer.incarnation)

end Sys2Proof.Machine
end

