-- ==== Sys2Proof/Certificates/Slice0/Obligations.lean ====
section
/-!
DEFINITION. What is claimed of the node. A step that completes answers `State.settle v`, where `v` is the state that the
step's own rules give, and `settle` is what follows every step by itself (the node watermark, the horizons, searches that become
Ready, level sources found deasserted). A clause that names the whole of `v` as an update of `s` says its frame too: every
field that the update does not name is unchanged.
-/

open Sys2Proof Sys2Proof.Machine

/-! ### The machine as a whole -/

/-- A step takes the command at the front of the queue and runs it with the queue's rest; an empty queue idles (log entry 3). -/
def Obligations.StepRunsFrontCommand : Prop :=
  (∀ (s : State) (i : Instr) (rest : List Instr), s.pending = i :: rest → step s = exec i { s with pending := rest }) ∧
  (∀ s : State, s.pending = [] → step s = .next s)

/-- Every step keeps what R84, R92, R110 and R615 say holds between steps. -/
def Obligations.StepKeepsInvariant : Prop :=
  ∀ s u : State, s.Inv → step s = .next u → u.Inv

/-- The node at reset meets that invariant, holds both memories in canonical form with nothing listed, holds nothing in its queue,
reads every register that stands in one copy at its Reset column (R8), and is held in reset. -/
def Obligations.ResetState : Prop :=
  State.reset.Inv ∧ State.reset.host = [] ∧ State.reset.win = [] ∧ State.reset.pending = [] ∧
  (∀ page off, State.reset.reg page off = regReset page off) ∧ State.reset.cal.phase = .held ∧ State.reset.wlk.watermark = 0

/-- No step but those of resets, starts, supplies, clocks, power, temperatures, faults, refresh and the debug port takes place on a
node that is not in service: the step changes only the time (log entry 5). -/
def Obligations.OutOfServiceOnlyTimeMoves : Prop :=
  ∀ (s : State) (i : Instr), s.live = false →
    (match i with
      | .refresh .. | .faultMessage .. | .fltInjGo .. | .faultInputEdge .. | .powerSample .. | .thermalSample .. | .thermalHardTrip ..
      | .sysClkLoss .. | .sysClkReturn .. | .referenceLoss .. | .supplyFail .. | .supplyReturn .. | .debugPortAccess ..
      | .resetInputFall .. | .porRelease .. | .sysRstRelease .. | .perstRelease .. | .startLimitExpiry .. | .coldStart ..
      | .warmStartSequence .. => True
      | _ => exec i s = .next (s.at i.time).settle)

/-- A write of BAR2 from a function other than PF0 reaches no register: BAR2 belongs to PF0 alone (14 R465). Such a write changes
only the time.

A write of another width or alignment is dropped (00 R11); one at or beyond BAR2's end stops as outside BAR2 (14 R465), one in the
CXL component block as a register block this manual does not describe (23 R703). -/
def Obligations.RegisterWritesTurnedAway : Prop :=
  (∀ (s : State) (t fn : Nat) (val : Word), fn ≠ 0 →
    (∀ off width, exec (.registerWrite t fn off width val) s = .next (s.at t).settle) ∧
    exec (.cueHostCommit t fn val) s = .next (s.at t).settle ∧ exec (.cueEnableSet t fn val) s = .next (s.at t).settle ∧
    exec (.cueEntRead t fn) s = .next (s.at t).settle ∧ exec (.cueEntWrite t fn) s = .next (s.at t).settle ∧
    exec (.cueEntDisarm t fn) s = .next (s.at t).settle ∧ exec (.cueEntCmdInvalid t fn val) s = .next (s.at t).settle ∧
    exec (.q0EnableWrite t fn val) s = .next (s.at t).settle ∧ exec (.wlkHistClear t fn val) s = .next (s.at t).settle ∧
    exec (.wlkFvcExtentsWrite t fn val) s = .next (s.at t).settle ∧ exec (.cbdEoi t fn val) s = .next (s.at t).settle ∧
    exec (.cbdArm t fn val) s = .next (s.at t).settle ∧ exec (.cbdSwSet t fn val) s = .next (s.at t).settle ∧
    exec (.cbdSwClr t fn val) s = .next (s.at t).settle ∧ exec (.cbdHostEnableSet t fn val) s = .next (s.at t).settle ∧
    exec (.fltGcntClear t fn val) s = .next (s.at t).settle ∧ exec (.fltRelease t fn val) s = .next (s.at t).settle ∧
    exec (.fltInjGo t fn val) s = .next (s.at t).settle ∧ exec (.drydownEnableSet t fn val) s = .next (s.at t).settle ∧
    exec (.shpGclSwap t fn val) s = .next (s.at t).settle ∧ exec (.tapeSourceDisable t fn val) s = .next (s.at t).settle ∧
    (∀ cluster, exec (.encLclear t fn cluster val) s = .next (s.at t).settle) ∧
    (∀ stack, exec (.pnmRawShareWrite t fn stack val) s = .next (s.at t).settle) ∧
    (∀ port, exec (.portDisable t fn port val) s = .next (s.at t).settle) ∧
    (∀ page, exec (.fltCntClear t fn page val) s = .next (s.at t).settle ∧ exec (.quiesceWrite t fn page val) s = .next (s.at t).settle ∧
      exec (.enableWrite t fn page val) s = .next (s.at t).settle ∧ exec (.blockResetWrite t fn page val) s = .next (s.at t).settle ∧
      exec (.blkLockWrite t fn page val) s = .next (s.at t).settle ∧ exec (.irqEnWrite t fn page val) s = .next (s.at t).settle)) ∧
  (∀ (s : State) (t off width : Nat) (val : Word), s.live = true →
    (off < 0xF0000 → (width ≠ 4 ∨ off % 4 ≠ 0) → exec (.registerWrite t 0 off width val) s = .next (s.at t).settle) ∧
    (0x100000 ≤ off → exec (.registerWrite t 0 off width val) s = .fault .outsideBar) ∧
    (0xF0000 ≤ off → off < 0x100000 → exec (.registerWrite t 0 off width val) s = .refused .componentBlock))

/-! ### Registers -/

/-- REGISTER_WRITE of a register with no behaviour but its access codes: an RW bit, and an LK bit while BLK_LOCK is clear, takes the
value written; a 1 clears a W1C bit; every other bit, and all other state, stands, but that the access wakes the instance's clocks
(00 R8; 23 R705).

Reads that capture: LO of a 64-bit counter captures HI at the same instant (00 R12), CUE_TP_LO captures the other three tape
registers (02 R45), and HMC_UE_LOC captures its two other registers and lets the location go (12 R403). The node answers each with
the value read, and nothing else changes. -/
def Obligations.RegisterAccess : Prop :=
  (∀ (s : State) (t off : Nat) (val : Word) (b : Block) (d : RegDef), s.live = true → off < 0xF0000 → off % 4 = 0 →
    s.PlainRegister (off / 4096) (off % 4096) val.toNat b d →
    ∃ x, exec (.registerWrite t 0 off 4 val) s = .next (State.settle { s.at t with
        regs := s.regs.set (regKey (off / 4096) (off % 4096) 0) x, pwr := { s.pwr with stopped := s.pwr.stopped.erase (off / 4096) } }) ∧
      ∀ j < 32, bitOf x j =
        ((if bitOf d.rw j || (bitOf d.lk j && !bitOf (s.reg (off / 4096) 0x038) 0) then bitOf val.toNat j
          else bitOf (s.reg (off / 4096) (off % 4096)) j) && !(bitOf d.w1c j && bitOf val.toNat j))) ∧
  (∀ (s : State) (t : Nat), s.live = true →
    (∀ off v, (s.at t).split? (off / 4096) (off % 4096) = some v →
      exec (.counterLoRead t off) s = .next (State.settle { s.at t with
        hiCap := s.hiCap.set (off / 4096 * 4096 + off % 4096) (v / 2 ^ 32 % 2 ^ 32), outbox := .readData (BitVec.ofNat 32 v) :: s.outbox })) ∧
    exec (.cueTpLoRead t) s = .next (State.settle { s.at t with
      cue := { s.cue with cap := { tpHi := s.cue.tape.pos / 2 ^ 32, ttLo := (s.at t).tapeTime % 2 ^ 32, ttHi := (s.at t).tapeTime / 2 ^ 32 } },
      outbox := .readData (BitVec.ofNat 32 s.cue.tape.pos) :: s.outbox }) ∧
    (∀ stack, stack < 8 →
      let loc := ((s.stack stack).ueLoc.getD (0, 0)).1
      let off := ((s.stack stack).ueLoc.getD (0, 0)).2
      exec (.hmcUeLocRead t stack) s = .next (State.settle { s.at t with
        tier := { s.tier with stackList := s.tier.stackList.set stack { s.stack stack with ueLoc := none } },
        hiCap := ((s.hiCap.set (pgHmc stack * 4096 + 0x070) (loc / 2 ^ 32)).set (pgHmc stack * 4096 + 0x078) (off % 2 ^ 32)).set
          (pgHmc stack * 4096 + 0x07C) (off / 2 ^ 32),
        outbox := .readData (BitVec.ofNat 32 loc) :: s.outbox })))

/-- BLK_CTRL and BLK_LOCK: Quiesce and Enable on a page that may be switched, a Quiesce or Enable write of a control block dropped
(R710), Enable 0 only of a quiesced instance in maintenance (R713), BlockReset begins a reset or joins the one that runs (R714), and
Locked stays once set (R10, R718).

IRQ_EN takes the bits that the page defines, whatever events the write raises; no memory, latch or queue changes (19 R611, R612;
23 R716). -/
def Obligations.ControlAndEnableWrites : Prop :=
  (∀ (s : State) (t page : Nat) (val : Word) (e : Block × Nat), s.live = true → blockAt page = some e →
    (10 ≤ page → ∃ x, exec (.quiesceWrite t 0 page val) s = .next (State.settle { s.at t with
        regs := s.regs.set (regKey page 0x010 0) x, pwr := { s.pwr with stopped := s.pwr.stopped.erase page } }) ∧
      bitOf x 1 = bitOf val.toNat 1 ∧ ∀ j < 32, j ≠ 1 → bitOf x j = bitOf (s.reg page 0x010) j) ∧
    (10 ≤ page → bitOf val.toNat 0 = true → ∃ x, exec (.enableWrite t 0 page val) s = .next (State.settle { s.at t with
        regs := s.regs.set (regKey page 0x010 0) x, pwr := { s.pwr with stopped := s.pwr.stopped.erase page } }) ∧
      bitOf x 0 = true ∧ ∀ j < 32, j ≠ 0 → bitOf x j = bitOf (s.reg page 0x010) j) ∧
    (10 ≤ page → bitOf val.toNat 0 = false → s.cal.maintenance = true → s.quiesced page = true →
      ∃ x, exec (.enableWrite t 0 page val) s = .next (State.settle { s.at t with
        regs := s.regs.set (regKey page 0x010 0) x, pwr := { s.pwr with stopped := s.pwr.stopped.erase page } }) ∧
      bitOf x 0 = false ∧ ∀ j < 32, j ≠ 0 → bitOf x j = bitOf (s.reg page 0x010) j) ∧
    (10 ≤ page → bitOf val.toNat 0 = false → (s.cal.maintenance = false ∨ s.quiesced page = false) →
      exec (.enableWrite t 0 page val) s = .next (State.settle { s.at t with
        pwr := { s.pwr with stopped := s.pwr.stopped.erase page } })) ∧
    (page < 10 → exec (.quiesceWrite t 0 page val) s = .next (s.at t).settle ∧
      exec (.enableWrite t 0 page val) s = .next (s.at t).settle) ∧
    (bitOf val.toNat 2 = true → page ∉ [pgFlt, pgCbd, pgSec, pgPrm] →
      exec (.blockResetWrite t 0 page val) s = .next (State.settle { s.at t with
        pwr := { s.pwr with stopped := s.pwr.stopped.erase page },
        flt := if s.flt.resets.has page then s.flt else { s.flt with resets := s.flt.resets.set page (max s.now t) } })) ∧
    (bitOf val.toNat 2 = true → page ∈ [pgFlt, pgCbd, pgSec, pgPrm] → exec (.blockResetWrite t 0 page val) s = .next (s.at t).settle) ∧
    (bitOf val.toNat 0 = true → exec (.blkLockWrite t 0 page val) s = .next (State.settle { s.at t with
        regs := s.regs.set (regKey page 0x038 0) 1, pwr := { s.pwr with stopped := s.pwr.stopped.erase page } }))) ∧
  (∀ (s : State) (t page : Nat) (val : Word) (e : Block × Nat), s.live = true → blockAt page = some e →
    ∃ v : State, exec (.irqEnWrite t 0 page val) s = .next v.settle ∧
      (∀ j < 8, bitOf (irqBits e.1) j = true → bitOf (v.reg page 0x01C) j = bitOf val.toNat j) ∧
      v.host = s.host ∧ v.win = s.win ∧ v.flt = s.flt ∧ v.qmg = s.qmg)

/-! ### The Call Board -/

/-- Software sources (19 R618): 992 to 1,023 are level sources, asserted as their bits stand; CBD_SW_SET asserts and CBD_SW_CLR deasserts those
whose bits are 1, and neither changes anything else. -/
def Obligations.SoftwareSources : Prop :=
  ∀ (s : State) (t : Nat) (val : Word), s.live = true →
    (∀ j < 32, isEdgeSource (992 + j) = false ∧ s.asserted (992 + j) = bitOf s.cbd.sw j) ∧
    (∃ v : State, exec (.cbdSwSet t 0 val) s = .next v.settle ∧ v = { s.at t with cbd := { s.cbd with sw := v.cbd.sw } } ∧
      ∀ j < 32, v.asserted (992 + j) = (s.asserted (992 + j) || bitOf val.toNat j)) ∧
    (∃ v : State, exec (.cbdSwClr t 0 val) s = .next v.settle ∧ v = { s.at t with cbd := { s.cbd with sw := v.cbd.sw } } ∧
      ∀ j < 32, v.asserted (992 + j) = (s.asserted (992 + j) && !bitOf val.toNat j))

/-- Arming (19 R621): CBD_ARM arms the vector that CBD_VSEL selects, and a value other than 1 arms none.

Moderation (19 R620, R622): when a vector's timer has run for TimerUs its message is sent, pending events and the timer are
cleared and the vector is disarmed; a message that is blocked is held and counted instead; before that time nothing happens.

What held a message clears (19 R622, R626): clearing a vector's mask, or setting HostEnable, sends a held message that nothing
else blocks; clearing MSI-X Enable drops the pending state of every vector of the function, and of no other.

An edge held for a block whose clocks were stopped is handed on once: the latch is empty after it, and an external fault input's edge
sets FLT's FaultIn bit (19 R612, R619; 23 R716); with nothing latched nothing happens. -/
def Obligations.CallBoardMessages : Prop :=
  (∀ (s : State) (t : Nat) (val : Word), s.live = true →
    exec (.cbdArm t 0 1) s = .next (State.settle { s.at t with cbd := { s.cbd with
      vecs := s.cbd.vecs.set (bitsOf (s.reg pgCbd 0x050) 23 16 * 2048 + bitsOf (s.reg pgCbd 0x050) 10 0)
        { s.vec (bitsOf (s.reg pgCbd 0x050) 23 16 * 2048 + bitsOf (s.reg pgCbd 0x050) 10 0) with armed := true } } }) ∧
    (val ≠ 1 → exec (.cbdArm t 0 val) s = .next (s.at t).settle)) ∧
  (∀ (s : State) (t fn vector t0 : Nat), s.live = true → (s.vec (fn * 2048 + vector)).timer = some t0 →
    let key := fn * 2048 + vector
    (t0 + s.vecTimerUs key * 1000 ≤ max s.now t → s.vecBlocked key = false →
      ∃ v : State, exec (.moderationTimerExpiry t fn vector) s = .next v.settle ∧
        v.outbox = .msix (key / 2048) (key % 2048) :: s.outbox ∧
        v.vec key = { s.vec key with pending := 0, timer := none, held := false, armed := false } ∧
        v.count pgCbd 0x070 = (s.count pgCbd 0x070 + 1) % 2 ^ 64 ∧ (∀ k, k ≠ key → v.vec k = s.vec k) ∧
        v.host = s.host ∧ v.win = s.win ∧ v.regs = s.regs) ∧
    (t0 + s.vecTimerUs key * 1000 ≤ max s.now t → s.vecBlocked key = true → (s.vec key).held = false →
      ∃ v : State, exec (.moderationTimerExpiry t fn vector) s = .next v.settle ∧ v.outbox = s.outbox ∧
        v.vec key = { s.vec key with held := true, timer := none } ∧
        v.count pgCbd 0x080 = min 0xFFFFFFFF (s.count pgCbd 0x080 + 1) ∧ bitOf (v.reg pgCbd 0x044) 1 = true ∧
        (∀ k, k ≠ key → v.vec k = s.vec k) ∧ v.host = s.host ∧ v.win = s.win) ∧
    (max s.now t < t0 + s.vecTimerUs key * 1000 → exec (.moderationTimerExpiry t fn vector) s = .next (s.at t).settle)) ∧
  (∀ (s : State) (t fn vector : Nat), s.live = true → fn < 256 → vector < 2048 →
    (∃ v : State, exec (.msixMaskClear t fn vector false) s = .next v.settle ∧
      (v.vec (fn * 2048 + vector)).masked = false ∧ v.host = s.host ∧ v.win = s.win ∧
      ((s.vec (fn * 2048 + vector)).held = true → (s.cbd.fns.getD fn {}).mask = false → linkUp s = true → bitOf (s.reg pgCbd 0x040) 0 = true →
        .msix fn vector ∈ v.outbox ∧ (v.vec (fn * 2048 + vector)).held = false ∧ (v.vec (fn * 2048 + vector)).pending = 0)) ∧
    (∀ val : Word, bitOf val.toNat 0 = true → ∃ v : State, exec (.cbdHostEnableSet t 0 val) s = .next v.settle ∧
      bitOf (v.reg pgCbd 0x040) 0 = true ∧ bitOf (v.reg pgCbd 0x040) 1 = bitOf val.toNat 1 ∧ v.host = s.host ∧ v.win = s.win ∧
      ((s.vec (fn * 2048 + vector)).held = true → (s.vec (fn * 2048 + vector)).masked = false → (s.cbd.fns.getD fn {}).mask = false →
        linkUp s = true → .msix fn vector ∈ v.outbox ∧ (v.vec (fn * 2048 + vector)).held = false)) ∧
    (∃ v : State, exec (.msixEnableClear t fn) s = .next v.settle ∧ (v.cbd.fns.getD fn {}).enable = false ∧
      (v.vec (fn * 2048 + vector)).pending = 0 ∧ (v.vec (fn * 2048 + vector)).held = false ∧ (v.vec (fn * 2048 + vector)).timer = none ∧
      (∀ k, k / 2048 ≠ fn → v.vec k = s.vec k) ∧ v.host = s.host ∧ v.win = s.win ∧ v.outbox = s.outbox)) ∧
  (∀ (s : State) (t src : Nat), s.live = true →
    (∀ a, s.cbd.latched.find? src = some a → ∃ v : State, exec (.edgeLatchHandoff t src) s = .next v.settle ∧
      v.cbd.latched = s.cbd.latched.erase src ∧ v.host = s.host ∧ v.win = s.win ∧
      (src = 42 → bitOf (v.reg pgFlt 0x018) 2 = true)) ∧
    (s.cbd.latched.find? src = none → exec (.edgeLatchHandoff t src) s = .next (s.at t).settle))

/-- A level source: one that is asserted and not yet handled raises one event at each of its targets that has it not InService, and
counts as handled (19 R615, R616); one that is deasserted, handled, or an edge source raises nothing. No memory changes.

The end of service: after CBD_EOI a source is InService at the host when it was so at another vector, or was so at this vector and
is found asserted with its route still enabled; a handler's end frees every source of the Prompter, which waits for an interrupt again,
when none of them is found asserted (19 R615, R617). -/
def Obligations.LevelSources : Prop :=
  (∀ (s : State) (t src : Nat), s.live = true →
    (s.asserted src = true → isEdgeSource src = false → src ∉ s.cbd.known →
      ∃ v : State, exec (.levelSourceAssert t src) s = .next v.settle ∧ src ∈ v.cbd.known ∧
        (bitOf (s.route src) 31 = true → src ∈ v.cbd.inHost) ∧
        (bitOf (s.route src) 31 = false → v.cbd.inHost = s.cbd.inHost ∧ v.cbd.vecs = s.cbd.vecs) ∧
        ((s.prompterFor (s.prmMask src)).isSome = true → v.cbd.inPrm.has src = true) ∧ v.host = s.host ∧ v.win = s.win) ∧
    ((s.asserted src = false ∨ isEdgeSource src = true ∨ src ∈ s.cbd.known) →
      exec (.levelSourceAssert t src) s = .next (s.at t).settle)) ∧
  (∀ (s : State) (t : Nat), s.live = true →
    (∀ val : Word, ∃ v : State, exec (.cbdEoi t 0 val) s = .next v.settle ∧ v.host = s.host ∧ v.win = s.win ∧ v.flt = s.flt ∧
      ∀ src, src ∈ v.cbd.inHost ↔ src ∈ s.cbd.inHost ∧
        (bitsOf (s.route src) 10 0 ≠ bitsOf val.toNat 10 0 ∨ (s.asserted src = true ∧ bitOf (s.route src) 31 = true))) ∧
    (∀ p, p < 8 → (∀ e ∈ s.cbd.inPrm, e.2 = p → s.asserted e.1 = false) →
      exec (.prompterHandlerEnd t p) s = .next (State.settle { s.at t with
        cbd := { s.cbd with inPrm := s.cbd.inPrm.filter fun e => e.2 != p },
        prm := s.prm.set p { s.prompter p with waiting := true } })))

/-! ### Faults -/

/-- FLT takes the oldest fault message that waits (20 R632 to R643): its kind is counted, it latches where its reaction has Interrupt
and the block's latch is empty, it latches globally where that latch is empty, StopAlive puts the node into the fault state, and no memory
changes.

Clearing and injecting (20 R635, R651, R656): bit 30 of FLT_CNT empties the page's latch and of FLT_GCNT the global one;
FLT_INJ_GO in factory-test mode sends the message that the injection registers hold, with its injected bit set. -/
def Obligations.FaultMessages : Prop :=
  (∀ (s : State) (t : Nat) (w0 w1 w2 w3 : Word) (m : FaultMsg) (rest : List FaultMsg), s.awake = true → s.flt.inbox = m :: rest →
    ∃ v : State, exec (.faultMessage t w0 w1 w2 w3) s = .next v.settle ∧ v.flt.inbox = rest ∧
      v.flt.kindCnt.getD m.kind 0 = min 0xFFFFFFFF (s.flt.kindCnt.getD m.kind 0 + 1) ∧
      (v.latchAt m.page).count = min 0xFFFF ((s.latchAt m.page).count + 1) ∧
      (v.latchAt m.page).msg = (if bitOf (s.reaction m) 0 = true ∧ (s.latchAt m.page).msg.w0 = 0 then m else (s.latchAt m.page).msg) ∧
      v.flt.glob.msg = (if s.flt.glob.msg.w0 = 0 then m else s.flt.glob.msg) ∧
      (bitOf (s.reaction m) 4 = true → v.flt.faulted = true) ∧
      (bitOf (s.reaction m) 4 = false → v.flt.faulted = s.flt.faulted) ∧ v.host = s.host ∧ v.win = s.win) ∧
  (∀ (s : State) (t page : Nat) (val : Word), s.live = true →
    (bitOf val.toNat 30 = true → exec (.fltCntClear t 0 page val) s = .next (State.settle { s.at t with
      flt := { s.flt with latches := s.flt.latches.erase page } })) ∧
    (bitOf val.toNat 30 = true → exec (.fltGcntClear t 0 val) s = .next (State.settle { s.at t with flt := { s.flt with glob := {} } })) ∧
    (bitOf val.toNat 30 = false → exec (.fltCntClear t 0 page val) s = .next (s.at t).settle ∧
      exec (.fltGcntClear t 0 val) s = .next (s.at t).settle) ∧
    (s.dom.ftm = true →
      let m : FaultMsg := { w0 := s.reg pgFlt 0x090 ||| 0x08000000, w1 := s.reg pgFlt 0x094, w2 := s.reg pgFlt 0x098, w3 := s.reg pgFlt 0x09C }
      m.known = true → m.present = true → ∃ v : State, exec (.fltInjGo t 0 1) s = .next v.settle ∧ v.flt.inbox = s.flt.inbox ++ [m] ∧
        bitOf (v.reg pgFlt 0x044) 3 = true ∧ v.host = s.host ∧ v.win = s.win) ∧
    (s.dom.ftm = false → exec (.fltInjGo t 0 val) s = .next (s.at t).settle))

/-- The fault state's end (20 R642 to R644): a Drydown of FLT_DRY_US ends in a recovery, counted up to 65,535, while fewer than
FLT_DRY_LIMIT recoveries lie in the window, and otherwise in Stuck with a RecoveryLimit fault; FLT_RELEASE ends the fault state, Stuck
too, and counts no recovery; while the node is healthy ALIVE_OUT toggles once 500 µs have passed. -/
def Obligations.DrydownRecoversOrSticks : Prop :=
  ∀ (s : State) (t d : Nat), s.live = true →
    (bitOf (s.reg pgFlt 0x040) 0 = true → s.flt.dryFrom = some d → s.flt.faulted = true → s.flt.stuck = false →
      d + s.reg pgFlt 0x05C * 1000 ≤ (s.at t).tapeTime →
      let recent := (s.flt.recovered.filter fun x => decide ((s.at t).tapeTime ≤ x + s.reg pgFlt 0x060 * 1000000)).length
      (recent < s.reg pgFlt 0x064 → exec (.drydownEnd t) s = .next (State.settle { s.at t with flt := { s.flt with
        faulted := false, dryFrom := none, recovered := (s.at t).tapeTime :: s.flt.recovered,
        recoverCnt := min 65535 (s.flt.recoverCnt + 1), lastToggle := max s.now t } })) ∧
      (s.reg pgFlt 0x064 ≤ recent → ∃ m : FaultMsg, exec (.drydownEnd t) s = .next (State.settle { s.at t with flt := { s.flt with
        stuck := true, dryFrom := none, inbox := s.flt.inbox ++ [m] } }) ∧ m.kind = 0x53 ∧ m.severity = 3 ∧ m.block = 5)) ∧
    (s.flt.faulted = true → exec (.fltRelease t 0 1) s = .next (State.settle { s.at t with flt := { s.flt with
      faulted := false, stuck := false, dryFrom := none, lastToggle := max s.now t } })) ∧
    (s.flt.faulted = false → ∀ val, exec (.fltRelease t 0 val) s = .next (s.at t).settle) ∧
    (s.flt.faulted = false → s.flt.chipReset = none → s.flt.lastToggle + 500000 ≤ max s.now t →
      exec (.aliveToggle t) s = .next (State.settle { s.at t with
        flt := { s.flt with alive := !s.flt.alive, lastToggle := max s.now t }, outbox := .pin "ALIVE_OUT" (!s.flt.alive) :: s.outbox })) ∧
    (s.flt.faulted = true → exec (.aliveToggle t) s = .next (s.at t).settle) ∧
    (∀ val : Word, bitOf val.toNat 0 = true → s.flt.dryFrom = none → ∃ v : State, exec (.drydownEnableSet t 0 val) s = .next v.settle ∧
      bitOf (v.reg pgFlt 0x040) 0 = true ∧ v.flt = s.flt ∧ v.host = s.host ∧ v.win = s.win)

/-- Supervision of the Prompters (20 R646, R647): a heartbeat is noted and ends the trapped state; FLT_WDOG_US without one counts and
sends PrompterHang with the Prompter's number as Instance; a Prompter held in reset runs again at its release; a decision that names a
context, extent or frame in use is counted, sends ControlMismatch and traps its Prompter, and one that names none changes nothing. -/
def Obligations.PrompterSupervision : Prop :=
  ∀ (s : State) (t p : Nat), s.live = true → p < 8 →
    ((s.prompter p).running = true → exec (.prompterHeartbeat t p) s = .next (State.settle { s.at t with
      prm := s.prm.set p { s.prompter p with beat := max s.now t, trapped := false } })) ∧
    ((s.prompter p).running = true → (s.prompter p).beat + s.reg pgFlt 0x070 * 1000 ≤ max s.now t →
      ∃ (v : State) (m : FaultMsg), exec (.prompterHang t p) s = .next v.settle ∧ v.flt = { s.flt with inbox := s.flt.inbox ++ [m] } ∧
        m.kind = 0x50 ∧ m.severity = 3 ∧ m.inst = p ∧ v.prm = s.prm.set p { s.prompter p with missed := true, beat := max s.now t } ∧
        v.count pgPrm 0x048 = min 0xFFFFFFFF (s.count pgPrm 0x048 + 1) ∧ v.host = s.host ∧ v.win = s.win) ∧
    ((s.prompter p).heldFrom.isSome = true → exec (.prompterResetRelease t p) s = .next (State.settle { s.at t with
      prm := s.prm.set p { s.prompter p with running := true, heldFrom := none, beat := max s.now t } })) ∧
    (∀ code target kind, (s.prompter p).running = true → s.decisionBad kind target = true →
      ∃ (v : State) (m : FaultMsg), exec (.controlDecision t p code target kind) s = .next v.settle ∧
        v.flt = { s.flt with inbox := s.flt.inbox ++ [m] } ∧ m.kind = 0x51 ∧ m.inst = p ∧ m.w1 = code % 2 ^ 32 ∧
        v.outbox = .trap p :: s.outbox ∧ v.count pgPrm 0x04C = min 0xFFFFFFFF (s.count pgPrm 0x04C + 1) ∧ v.host = s.host ∧ v.win = s.win) ∧
    (∀ code target kind, s.decisionBad kind target = false → exec (.controlDecision t p code target kind) s = .next (s.at t).settle)

/-- Margins (20 R648, R649; 24 R733): a measurement at or beyond its threshold, of a place that has raised no notice yet, is recorded as
the last value, counts one notice and sends it; a threshold of 0 records nothing. An external fault input's edge sends ExternalFault
with the input as its detail and sets FLT's FaultIn bit. -/
def Obligations.MarginNotices : Prop :=
  ∀ (s : State) (t : Nat), s.live = true →
    (∀ rail mv, rail < 6 → s.reg pgPwr 0x210 ≠ 0 → s.reg pgPwr 0x210 ≤ mv → mv < 65536 →
      (s.pwr.notices.getD (8 * 2 ^ 20 + 4 * 65536 + rail) {}).raised = false →
      ∃ (v : State) (m : FaultMsg), exec (.supplyDroopSample t rail mv) s = .next v.settle ∧
        v.flt = { s.flt with inbox := s.flt.inbox ++ [m] } ∧ m.kind = 0x63 ∧ m.severity = 0 ∧ m.w1 = rail * 65536 + mv ∧
        (v.pwr.margins.find? (4 * 65536 + rail)).map (fun x => x.last) = some (mv : Int) ∧
        v.count pgPwr 0x22C = min 0xFFFFFFFF (s.count pgPwr 0x22C + 1) ∧ v.host = s.host ∧ v.win = s.win) ∧
    (∀ rail mv, s.reg pgPwr 0x210 = 0 → exec (.supplyDroopSample t rail mv) s = .next (s.at t).settle) ∧
    (∀ port lane height width, port < 5 → s.laneLocked port lane = true → s.reg pgPwr 0x200 ≠ 0 →
      ∃ v : State, exec (.eyeMeasure t port lane height width) s = .next v.settle ∧
        (v.pwr.margins.find? ((port * 2 ^ 28 + lane * 2 ^ 24 + height % 65536) / 65536)).map (fun x => x.last) = some (height : Int) ∧
        v.host = s.host ∧ v.win = s.win ∧ v.regs = s.regs) ∧
    (∀ port lane cdbm, port < 4 → (s.port port).modulePresent = true → signedOf 32 (s.reg pgPwr 0x208) ≠ 0 →
      ∃ v : State, exec (.opticalPowerRead t port lane cdbm) s = .next v.settle ∧
        (v.pwr.margins.find? (2 * 65536 + (port * 2 ^ 24 + lane % 256 * 2 ^ 16 + toTwos 16 cdbm) / 65536)).map (fun x => x.last) = some cdbm ∧
        v.host = s.host ∧ v.win = s.win ∧ v.regs = s.regs) ∧
    (∀ input, input < 2 → ∃ (v : State) (m : FaultMsg), exec (.faultInputEdge t input) s = .next v.settle ∧
        v.flt.inbox = s.flt.inbox ++ [m] ∧ m.kind = 0x52 ∧ m.w1 = input ∧ bitOf (v.reg pgFlt 0x018) 2 = true ∧
        v.host = s.host ∧ v.win = s.win)

/-! ### Completions -/

/-- A command of a queue completes (15 R491, R506, R508, R510): its one completion stands in the 32 bytes of the ring's tail slot, with
its Tag, status, ResultCount, Detail, the node watermark and the ring's phase; every other byte of memory is unchanged; the tail moves on
one slot, and the phase turns where it wraps; the command is outstanding no longer.

A completion that carries no results has ResultCount 0 (15 R508), whatever had been counted. -/
def Obligations.Completions : Prop :=
  (∀ (s : State) (cid q n d : Nat) (k : Cmd) (v : Queue) (st : Status),
    s.cmd? cid = some k → k.origin = .queue q → s.queue? q = some v → v.flrDrop = false → linkUp s = true → st.carries = true →
    n < 2 ^ 32 → d < 2 ^ 32 → s.wlk.watermark < 2 ^ 64 →
    let slot := v.cqBase + 32 * v.cqTail
    let u := s.finish cid st n d
    u.cmd? cid = none ∧ (∀ c, c ≠ cid → u.cmd? c = s.cmd? c) ∧
    (u.queue? q).map (fun w => (w.cqTail, w.phase, w.cqHead, w.sqHead)) = some ((v.cqTail + 1) % 2 ^ v.cqLog2,
      if (v.cqTail + 1) % 2 ^ v.cqLog2 = 0 then !v.phase else v.phase, v.cqHead, v.sqHead) ∧
    fieldAt (u.readBytes s.view slot 32) 0 4 = cmdTag k.raw ∧ fieldAt (u.readBytes s.view slot 32) 4 2 = st.code ∧
    fieldAt (u.readBytes s.view slot 32) 8 4 = n ∧ fieldAt (u.readBytes s.view slot 32) 12 4 = d ∧
    fieldAt (u.readBytes s.view slot 32) 16 8 = s.wlk.watermark ∧
    bitOf (fieldAt (u.readBytes s.view slot 32) 24 8) 0 = v.phase ∧
    (∀ a, a < slot ∨ slot + 32 ≤ a → u.readByte s.view a = s.readByte s.view a)) ∧
  (∀ (s : State) (cid n d : Nat) (st : Status), st.carries = false → s.finish cid st n d = s.finish cid st 0 d)

/-! ### Power, clocks and supplies -/

/-- Power and temperatures (24 R740 to R743): a sample is reported and added to the energy counter; a node over PWR_LIMIT_W with
ThrottleEnable throttles, and with ThrottleEnable 0 never does; ThermalHigh is set and counted when a sensor reaches PWR_TJ_HIGH, cleared
when all are 3 °C below it, and ThermalTrip, severity 4, is sent when a sensor comes to PWR_TJ_TRIP. -/
def Obligations.PowerAndTemperature : Prop :=
  ∀ (s : State) (t : Nat), s.awake = true →
    (∀ watts mv amps, ∃ v : State, exec (.powerSample t watts mv amps) s = .next v.settle ∧ v.pwr.nowW = watts ∧
      v.pwr.peakW = max s.pwr.peakW watts ∧ v.pwr.mv = mv ∧ v.pwr.amps = amps ∧
      v.count pgPwr 0x080 = (s.count pgPwr 0x080 + watts) % 2 ^ 64 ∧
      (bitOf (s.reg pgPwr 0x040) 2 = true → s.reg pgPwr 0x048 < watts → v.pwr.throttled = true) ∧
      (bitOf (s.reg pgPwr 0x040) 2 = false → v.pwr.throttled = false) ∧ v.host = s.host ∧ v.win = s.win) ∧
    (∀ temps : List Int, temps.length = 72 → ∃ v : State, exec (.thermalSample t temps) s = .next v.settle ∧ v.pwr.temps = temps ∧
      (s.pwr.thermalHigh = false → (∃ x ∈ temps, (s.reg pgPwr 0x054 : Int) ≤ x) → v.pwr.thermalHigh = true ∧
        v.count pgPwr 0x07C = min 0xFFFFFFFF (s.count pgPwr 0x07C + 1) ∧ bitOf (v.reg pgPwr 0x044) 2 = true) ∧
      ((∀ x ∈ temps, x ≤ (s.reg pgPwr 0x054 : Int) - 3) → v.pwr.thermalHigh = false) ∧
      (s.pwr.overTrip = false → (∃ x ∈ temps, (s.reg pgPwr 0x058 : Int) ≤ x) → ∃ m ∈ v.flt.inbox, m.kind = 0x55 ∧ m.severity = 4) ∧
      v.host = s.host ∧ v.win = s.win)

/-- A sensor at its hard limit asserts THERM_TRIP_L and holds the node in reset (24 R744); a loss of SYS_CLK, or of a supply while POR_L
is high, holds it too (R735, R738); when the clock or the last failed rail comes back, a cold start begins. Heart and host memory are not
written.

A reference that is lost takes the links it clocks down, and no other (24 R735); the clocks of an instance that may stop do stop, and
nothing but that changes (R739).

The management port falls back to SMBus one second after a start that gave it no dynamic address, and an I3C broadcast takes it back
(24 R732); the debug port answers a read of a word that it has written with that word while DebugLocked is 0, and takes no access while
it is 1 (16 R538). -/
def Obligations.ClocksSuppliesAndPorts : Prop :=
  (∀ (s : State) (t : Nat),
    (∀ sensor, sensor < 72 → s.cal.porLow = false → s.cal.phase ≠ .tripped → ∃ v : State,
      exec (.thermalHardTrip t sensor) s = .next v.settle ∧ v.cal.phase = .tripped ∧ v.outbox.head? = some (.pin "THERM_TRIP_L" false) ∧
      v.host = s.host ∧ v.win = s.win) ∧
    (s.pwr.sysClkLost = false → s.cal.phase ≠ .tripped → ∃ v : State, exec (.sysClkLoss t) s = .next v.settle ∧ v.cal.phase = .held ∧
      v.pwr.sysClkLost = true ∧ v.host = s.host ∧ v.win = s.win) ∧
    (s.pwr.sysClkLost = true → s.cal.phase ≠ .tripped → s.cal.porLow = false → s.cal.sysLow = false → s.pwr.railsLow = [] →
      ∃ v : State, exec (.sysClkReturn t) s = .next v.settle ∧ v.cal.phase = .starting true ∧ v.cal.cause = 0 ∧
        v.pwr.sysClkLost = false ∧ v.host = s.host ∧ v.win = s.win) ∧
    (∀ rail, rail < 6 → s.cal.porLow = false → s.cal.phase ≠ .tripped → ∃ v : State, exec (.supplyFail t rail) s = .next v.settle ∧
      v.cal.phase = .held ∧ rail ∈ v.pwr.railsLow ∧ v.host = s.host ∧ v.win = s.win) ∧
    (∀ rail, s.pwr.railsLow = [rail] → s.cal.phase ≠ .tripped → s.cal.porLow = false → s.cal.sysLow = false → s.pwr.sysClkLost = false →
      ∃ v : State, exec (.supplyReturn t rail) s = .next v.settle ∧ v.cal.phase = .starting true ∧ v.cal.cause = 0 ∧
        v.pwr.railsLow = [] ∧ v.host = s.host ∧ v.win = s.win)) ∧
  (∀ (s : State) (t : Nat), s.live = true →
    (linkUp s = true → ∃ v : State, exec (.referenceLoss t 0) s = .next v.settle ∧ v.cxl.mode = 0 ∧ v.fab = s.fab ∧
      0 ∈ v.pwr.refsLost ∧ v.host = s.host ∧ v.win = s.win) ∧
    (∀ ref, ref = 1 ∨ ref = 2 → ∃ v : State, exec (.referenceLoss t ref) s = .next v.settle ∧ v.cxl = s.cxl ∧ ref ∈ v.pwr.refsLost ∧
      (∀ p, p / 2 + 1 = ref → (v.port p).up = false) ∧ (∀ p, p / 2 + 1 ≠ ref → v.port p = s.port p) ∧ v.host = s.host ∧ v.win = s.win) ∧
    (∀ page, bitOf (s.reg pgPwr 0x040) 1 = true → s.mayStop page = true → s.worksIn page = [] →
      ∃ stopped : List Nat, exec (.clockStop t page) s = .next (State.settle { s.at t with pwr := { s.pwr with stopped := stopped } }) ∧
        page ∈ stopped)) ∧
  (∀ (s : State) (t : Nat),
    (s.live = true → s.pwr.i3cAddr = none → s.cal.servedFrom + 1000000000 ≤ max s.now t →
      exec (.mgmtPortSmbusFallback t) s = .next (State.settle { s.at t with pwr := { s.pwr with smbus := true } })) ∧
    (s.live = true → exec (.i3cBroadcastReceive t) s = .next (State.settle { s.at t with pwr := { s.pwr with smbus := false, alert := false } })) ∧
    (∀ (r : SpdmRequest) (a : SpdmReply), (s.answer r a).pwr = if r.path = .mctp then { s.pwr with alert := s.pwr.smbus } else s.pwr) ∧
    (∀ addr, s.live = true → s.pwr.smbus = false → addr < 128 →
      exec (.i3cDynamicAddress t addr) s = .next (State.settle { s.at t with pwr := { s.pwr with i3cAddr := some addr } })) ∧
    (∀ addr val, s.dom.fuses.debugLocked = false → exec (.debugPortAccess t addr true val) s =
      .next (State.settle { s.at t with dbg := s.dbg.set addr val.toNat })) ∧
    (∀ addr val w, s.dom.fuses.debugLocked = false → s.dbg.find? addr = some w → exec (.debugPortAccess t addr false val) s =
      .next (State.settle { s.at t with outbox := .debugData (BitVec.ofNat 32 w) :: s.outbox })) ∧
    (∀ addr isWrite val, s.dom.fuses.debugLocked = true → exec (.debugPortAccess t addr isWrite val) s = .next (s.at t).settle))

/-! ### Starts -/

/-- The reset inputs (22 R678, R679): POR_L or SYS_RST_L low holds the node in reset, PERST_L low resets the CXL block and takes its link
down; releasing POR_L samples the straps and begins a cold start; releasing SYS_RST_L begins a warm start, and a cold one with BOOT_SEL 2;
releasing PERST_L with PerstWarm begins a warm start, and without it trains the link. No memory changes.

What begins and what fails a start (20 R639; 22 R684, R685, R689): 10 µs after a ChipReset fault a warm start begins; ADMIN WARM_START
begins one and does not complete yet; a start past CAL_START_LIMIT_S fails, which counts and begins a cold start. -/
def Obligations.ResetsBeginStarts : Prop :=
  (∀ (s : State) (t : Nat),
    (∃ v : State, exec (.resetInputFall t 0) s = .next v.settle ∧ v.cal.phase = .held ∧ v.cal.porLow = true ∧ v.host = s.host ∧ v.win = s.win) ∧
    (s.cal.phase ≠ .tripped → ∃ v : State, exec (.resetInputFall t 1) s = .next v.settle ∧ v.cal.phase = .held ∧ v.cal.sysLow = true ∧
      v.host = s.host ∧ v.win = s.win) ∧
    (∃ v : State, exec (.resetInputFall t 2) s = .next v.settle ∧ v.cal.perstLow = true ∧ v.cxl.mode = 0 ∧ v.cxl.committed = false ∧
      v.cal.phase = s.cal.phase ∧ v.host = s.host ∧ v.win = s.win) ∧
    (∀ bootSel ftmEn, bootSel < 4 → s.cal.porLow = true → s.cal.sysLow = false → s.pwr.sysClkLost = false → s.pwr.railsLow = [] →
      ∃ v : State, exec (.porRelease t bootSel ftmEn) s = .next v.settle ∧ v.cal.phase = .starting true ∧ v.cal.cause = 0 ∧
        v.cal.porLow = false ∧ bitsOf v.cal.straps 1 0 = bootSel ∧ bitOf v.cal.straps 2 = ftmEn ∧ v.host = s.host ∧ v.win = s.win) ∧
    (s.cal.sysLow = true → s.cal.porLow = false → s.pwr.sysClkLost = false → s.pwr.railsLow = [] → s.cal.phase ≠ .tripped →
      ∃ v : State, exec (.sysRstRelease t) s = .next v.settle ∧ v.cal.sysLow = false ∧ v.cal.cause = 1 ∧
        v.cal.phase = .starting (bitsOf s.cal.straps 1 0 == 2 || !s.cal.ranCold) ∧ v.host = s.host ∧ v.win = s.win) ∧
    (∀ width rate cxl flit, s.cal.perstLow = true → s.live = true → bitOf (s.reg pgCal 0x040) 0 = true →
      ∃ v : State, exec (.perstRelease t width rate cxl flit) s = .next v.settle ∧ v.cal.perstLow = false ∧ v.cal.cause = 4 ∧
        v.cal.phase = .starting (bitsOf s.cal.straps 1 0 == 2 || !s.cal.ranCold) ∧ v.host = s.host ∧ v.win = s.win)) ∧
  (∀ (s : State) (t : Nat),
    (∀ a, s.live = true → s.flt.chipReset = some a → a + 10000 ≤ max s.now t → ∃ v : State, exec (.chipResetStart t) s = .next v.settle ∧
      v.cal.phase = .starting (bitsOf s.cal.straps 1 0 == 2 || !s.cal.ranCold) ∧ v.cal.cause = 2 ∧ v.flt.chipReset = none ∧
      v.flt.alive = false ∧ v.host = s.host ∧ v.win = s.win) ∧
    (∀ cid k, s.SubmittedAdmin cid 0x90 k → ∃ v : State, exec (.warmStart t cid) s = .next v.settle ∧
      v.cal.phase = .starting (bitsOf s.cal.straps 1 0 == 2 || !s.cal.ranCold) ∧ v.cal.cause = 3 ∧
      v.cmd? cid = some { k with phase := .started } ∧ v.host = s.host ∧ v.win = s.win) ∧
    (∀ cold, s.cal.phase = .starting cold → s.cal.startFrom + s.reg pgCal 0x054 * 1000000000 < max s.now t →
      exec (.startLimitExpiry t) s = .next (State.settle { s.at t with cal := { s.cal with
        phase := .starting true, cause := 5, startFrom := max s.now t, tripWait := false, failedStarts := min 255 (s.cal.failedStarts + 1) } })))

/-- A cold start (22 R682, R684, R685; 20 R636, R645) whose images pass, with Heart trained, the flash map restored and its time within the
limit, in normal firmware, ends in service with FailedStarts 0, no latch and a healthy node; one whose images do not pass fails, which
counts, and another cold start begins.

A warm start (22 R684, R688; 20 R636, R645) whose images and canaries pass within the limit ends in service with FailedStarts 0, and
latches, kind counters, Stuck and the recovery count stand as they were; one that finds a canary wrong fails, which counts, and a cold
start begins. -/
def Obligations.StartsEnd : Prop :=
  (∀ (s : State) (t : Nat) (i : ColdStartInput), s.cal.phase = .starting true → i.romOk = true →
    (bitsOf s.cal.straps 1 0 ≠ 1 → s.cal.failedStarts < 3 → 3 ≤ i.imageReasons.length → (∀ r ∈ i.imageReasons.take 3, r = 0) →
      i.elapsed ≤ 60 * 1000000000 → i.heartTrained = true → i.ftlRestored = true → 60 ≤ regReset pgCal 0x054 →
      ∃ v : State, exec (.coldStart t i) s = .next v.settle ∧ v.cal.phase = .running ∧ v.cal.failedStarts = 0 ∧ v.cal.ranCold = true ∧
        v.flt.latches = [] ∧ v.flt.faulted = false ∧ v.flt.stuck = false ∧ v.qmg.cmds = [] ∧ v.now = max s.now t + i.elapsed) ∧
    (bitsOf s.cal.straps 1 0 ≠ 1 → s.cal.failedStarts < 3 → (∃ r ∈ i.imageReasons.take 3, r ≠ 0) →
      ∃ v : State, exec (.coldStart t i) s = .next v.settle ∧ v.cal.phase = .starting true ∧
        v.cal.failedStarts = min 255 (s.cal.failedStarts + 1) ∧ v.host = s.host)) ∧
  (∀ (s : State) (t : Nat) (i : WarmStartInput), s.cal.phase = .starting false → s.cal.tripWait = false → s.sec.recovery = false →
    (3 ≤ i.imageReasons.length → (∀ r ∈ i.imageReasons.take 3, r = 0) → i.canariesOk = true →
      i.elapsed ≤ s.reg pgCal 0x054 * 1000000000 → ∃ v : State, exec (.warmStartSequence t i) s = .next v.settle ∧ v.cal.phase = .running ∧
        v.cal.failedStarts = 0 ∧ v.cal.kind = 1 ∧ v.flt.latches = s.flt.latches ∧ v.flt.kindCnt = s.flt.kindCnt ∧
        v.flt.stuck = s.flt.stuck ∧ v.flt.recoverCnt = s.flt.recoverCnt) ∧
    (i.canariesOk = false → ∃ v : State, exec (.warmStartSequence t i) s = .next v.settle ∧ v.cal.phase = .starting true ∧
      v.cal.failedStarts = min 255 (s.cal.failedStarts + 1) ∧ v.host = s.host ∧ v.win = s.win))

/-! ### The CXL attachment -/

/-- Training (14 R461 to R463): a link that trains comes up in the mode that was negotiated; one that cannot stays down and sends LinkDown;
a link that goes down loses its IDE streams, is counted, and sends LinkDown where the notice is enabled. -/
def Obligations.LinkTrainingAndLoss : Prop :=
  ∀ (s : State) (t width rate : Nat) (cxl flit : Bool), s.live = true →
    (linkUp s = false → s.cal.perstLow = false → width ∈ [4, 8, 16] → 1 ≤ rate → rate ≤ 3 →
      (∃ v : State, exec (.linkTrain t width rate cxl flit) s = .next v.settle ∧ v.cxl.width = width ∧ v.cxl.rate = rate ∧
        v.cxl.mode = (if cxl = false then 1 else if flit = true ∨ rate = 3 then 3 else 2)) ∧
      (s.cxl.lastTrain + 100000000 ≤ max s.now t → ∃ v : State, exec (.linkTrainRetry t width rate cxl flit) s = .next v.settle ∧
        v.cxl.width = width ∧ v.cxl.rate = rate ∧ v.cxl.mode = (if cxl = false then 1 else if flit = true ∨ rate = 3 then 3 else 2))) ∧
    (linkUp s = false → s.cal.perstLow = false → (width ∉ [4, 8, 16] ∨ rate = 0 ∨ 3 < rate) →
      ∃ m : FaultMsg, exec (.linkTrain t width rate cxl flit) s = .next (State.settle { s.at t with
        cxl := { s.cxl with lastTrain := max s.now t }, flt := { s.flt with inbox := s.flt.inbox ++ [m] } }) ∧ m.kind = 0x30 ∧ m.severity = 2) ∧
    (linkUp s = true → ∃ v : State, exec (.linkDown t) s = .next v.settle ∧ v.cxl.mode = 0 ∧ v.cxl.width = 0 ∧ v.cxl.ideIo = false ∧
      v.cxl.ideMem = false ∧ v.count pgCxl 0x070 = min 0xFFFFFFFF (s.count pgCxl 0x070 + 1) ∧ v.cxl.committed = s.cxl.committed ∧
      (bitOf (s.reg pgCxl 0x040) 0 = true → ∃ m : FaultMsg, v.flt = { s.flt with inbox := s.flt.inbox ++ [m] } ∧ m.kind = 0x30) ∧
      (bitOf (s.reg pgCxl 0x040) 0 = false → v.flt = s.flt) ∧ v.host = s.host ∧ v.win = s.win)

/-- A Function Level Reset stops every queue of the function and no other (15 R515), and clears its MSI-X state (19 R623); PF0's clears
Q0Enable and frees the DOE mailboxes too (14 R467).

The HDM decoder commits when its size equals the window and it interleaves one way, and otherwise only shows Error Not Committed (14
R471); DOE mailboxes answer CDAT, program an IDE stream in a finished session on DOE, and end a request at an abort (R476 to R479); an IDE
failure ends its stream, is counted, shown and sent. -/
def Obligations.LinkFunctionReset : Prop :=
  (∀ (s : State) (t fn : Nat), s.live = true →
    (1 ≤ fn → fn ≤ 255 → ∃ v : State, exec (.flrVf t fn) s = .next v.settle ∧
      (∀ q w, s.queue? q = some w → v.queue? q = some (if w.fn = fn then { w with state := .stopped, flrDrop := true } else w)) ∧
      (∀ key, key / 2048 = fn → v.cbd.vecs.find? key = none) ∧ (∀ key, key / 2048 ≠ fn → v.cbd.vecs.find? key = s.cbd.vecs.find? key) ∧
      v.qmg.cmds = s.qmg.cmds ∧ v.cxl = s.cxl ∧ v.host = s.host ∧ v.win = s.win) ∧
    (∃ v : State, exec (.flrPf0 t) s = .next v.settle ∧
      (∀ q w, s.queue? q = some w → v.queue? q = some (if w.fn = 0 then { w with state := .stopped, flrDrop := true } else w)) ∧
      bitOf (v.reg pgQmg 0x040) 1 = false ∧ v.cxl.doeBusy = [false, false, false] ∧ v.qmg.cmds = s.qmg.cmds ∧ v.host = s.host ∧ v.win = s.win)) ∧
  (∀ (s : State) (t : Nat), s.live = true → linkUp s = true →
    (∀ base size ways, size = s.winBytes → ways = 1 → exec (.hdmDecoderCommit t base size ways) s = .next (State.settle { s.at t with
      cxl := { s.cxl with committed := true, base := base, errNotCommitted := false } })) ∧
    (∀ base size ways, (size ≠ s.winBytes ∨ ways ≠ 1) → exec (.hdmDecoderCommit t base size ways) s = .next (State.settle { s.at t with
      cxl := { s.cxl with errNotCommitted := true } })) ∧
    (s.cxl.doeBusy.getD 0 false = false → exec (.cdatRequest t) s = .next (State.settle { s.at t with
      outbox := .cdat s.winBytes 350 350 100000 100000 :: s.outbox })) ∧
    (∀ session, s.cxl.doeBusy.getD 2 false = false → s.sec.sessions.find? session = some { path := .doe, finished := true } →
      exec (.ideKmRequest t session false false) s = .next (State.settle { s.at t with
        cxl := { s.cxl with ideIo := true, idePendIo := false }, outbox := .ideKm session :: s.outbox })) ∧
    (s.cxl.ideIo = true → ∃ (v : State) (m : FaultMsg), exec (.ideFailure t false) s = .next v.settle ∧ v.cxl.ideIo = false ∧
      v.cxl.ideMem = s.cxl.ideMem ∧ v.count pgCxl 0x06C = min 0xFFFFFFFF (s.count pgCxl 0x06C + 1) ∧ bitOf (v.reg pgCxl 0x044) 3 = true ∧
      v.flt = { s.flt with inbox := s.flt.inbox ++ [m] } ∧ m.kind = 0x32 ∧ m.severity = 2 ∧ v.host = s.host ∧ v.win = s.win) ∧
    (∀ mailbox, mailbox < 3 → ∃ v : State, exec (.doeAbort t mailbox) s = .next v.settle ∧ v.cxl.doeBusy = s.cxl.doeBusy.set mailbox false ∧
      v.host = s.host ∧ v.win = s.win ∧ v.regs = s.regs))

/-- CXL.mem reads (14 R472, R473, R480; 12 R402, R403): a clean block returns its 64 bytes; an uncorrectable one, one beyond the window, and
any over a restricted link return 0xFF in all; a read writes no memory. MemSpecRd is dropped and MemInv completes without effect.

CXL.mem writes (14 R472 to R474, R480; 12 R404): a full write stores its 64 bytes in the block and nothing elsewhere; a partial write of a
clean block stores its enabled bytes and nothing else; a poisoned write, one beyond the window, and any over a restricted link store
nothing; each completes. The window keeps its canonical form. -/
def Obligations.MemRequests : Prop :=
  (∀ (s : State) (t dpa : Nat) (r : BlockRead), s.memOpen dpa = true →
    (s.ideShut = false → dpa < s.winBytes → dpa / 64 * 64 / 64 ∉ s.tier.badBlocks → ∃ v : State,
      exec (.memRd t dpa .clean) s = .next v.settle ∧ v.outbox = .memData (s.win.readN (dpa / 64 * 64) 64) :: s.outbox ∧
      v.count pgCxl 0x078 = (s.count pgCxl 0x078 + 64) % 2 ^ 64 ∧ v.host = s.host ∧ v.win = s.win ∧ v.flt = s.flt) ∧
    (s.ideShut = false → dpa < s.winBytes → ∃ v : State, exec (.memRd t dpa .failed) s = .next v.settle ∧
      v.outbox = .memData (List.replicate 64 0xFF#8) :: s.outbox ∧ dpa / 64 * 64 / 64 ∈ v.tier.badBlocks ∧
      (∃ m ∈ v.flt.inbox, m.kind = 0x12) ∧ v.host = s.host ∧ v.win = s.win) ∧
    (s.ideShut = false → s.winBytes ≤ dpa → ∃ v : State, exec (.memRd t dpa r) s = .next v.settle ∧
      v.outbox = .memData (List.replicate 64 0xFF#8) :: s.outbox ∧ v.count pgCxl 0x060 = min 0xFFFFFFFF (s.count pgCxl 0x060 + 1) ∧
      bitOf (v.reg pgCxl 0x044) 1 = true ∧ v.host = s.host ∧ v.win = s.win) ∧
    (s.ideShut = true → exec (.memRd t dpa r) s = .next (State.settle { s.at t with outbox := .memData (List.replicate 64 0xFF#8) :: s.outbox })) ∧
    (dpa < s.winBytes → exec (.memSpecRd t dpa) s = .next (s.at t).settle ∧
      exec (.memInv t dpa) s = .next (State.settle { s.at t with outbox := .memDone :: s.outbox }))) ∧
  (∀ (s : State) (t dpa : Nat) (data : List Byte) (en : List Bool) (r : BlockRead) (poison : Bool), s.memOpen dpa = true →
    data.length = 64 → en.length = 64 →
    (s.ideShut = false → dpa < s.winBytes → ∃ v : State, exec (.memWr t dpa data false) s = .next v.settle ∧
      v.outbox = .memDone :: s.outbox ∧ (s.win.wf = true → v.win.wf = true) ∧ v.host = s.host ∧
      ∀ a, v.win.read a = if dpa / 64 * 64 ≤ a ∧ a < dpa / 64 * 64 + 64 then data.getD (a - dpa / 64 * 64) 0 else s.win.read a) ∧
    (s.ideShut = false → dpa < s.winBytes → dpa / 64 * 64 / 64 ∉ s.tier.badBlocks → ∃ v : State,
      exec (.memWrPtl t dpa data en false .clean) s = .next v.settle ∧ v.outbox = .memDone :: s.outbox ∧ (s.win.wf = true → v.win.wf = true) ∧ v.host = s.host ∧
      ∀ a, v.win.read a = if dpa / 64 * 64 ≤ a ∧ a < dpa / 64 * 64 + 64 ∧ en.getD (a - dpa / 64 * 64) false = true
        then data.getD (a - dpa / 64 * 64) 0 else s.win.read a) ∧
    ((s.ideShut = true ∨ s.winBytes ≤ dpa ∨ poison = true) → ∃ v w : State, exec (.memWr t dpa data poison) s = .next v.settle ∧
      exec (.memWrPtl t dpa data en poison r) s = .next w.settle ∧ v.outbox = .memDone :: s.outbox ∧ w.outbox = .memDone :: s.outbox ∧
      v.win = s.win ∧ w.win = s.win ∧ v.host = s.host ∧ w.host = s.host ∧
      (s.ideShut = false → dpa < s.winBytes → ∃ m ∈ v.flt.inbox, m.kind = 0x31)))

/-- Scrubs and wear (12 R388, R405 to R407): a pass over Top counts what it corrected; a patrol pass over a stack is counted; a stack whose
outer corrections of the second pass the limit sends one notice. No byte of memory changes. -/
def Obligations.ScrubsAndWear : Prop :=
  ∀ (s : State) (t : Nat), s.live = true →
    (∀ corrected, s.accepts pgTop = true → bitOf (s.reg pgTop 0x040) 0 = true → corrected ≠ [] → ∃ v : State,
      exec (.topScrub t corrected []) s = .next v.settle ∧ v.count pgTop 0x050 = min 0xFFFFFFFF (s.count pgTop 0x050 + corrected.length) ∧
      bitOf (v.reg pgTop 0x044) 0 = true ∧ v.host = s.host ∧ v.win = s.win ∧ v.tier = s.tier) ∧
    (∀ stack, stack < 8 → bitOf (s.reg (pgHmc stack) 0x010) 0 = true → s.flt.resets.has (pgHmc stack) = false →
      bitOf (s.reg (pgHmc stack) 0x040) 1 = true → ∃ v : State, exec (.patrolScrub t stack [] []) s = .next v.settle ∧
        v.count (pgHmc stack) 0x080 = min 0xFFFFFFFF (s.count (pgHmc stack) 0x080 + 1) ∧ v.host = s.host ∧ v.win = s.win) ∧
    (∀ stack, stack < 8 → s.reg (pgHmc stack) 0x04C ≠ 0 → s.reg (pgHmc stack) 0x04C < (s.stack stack).outerIn →
      bitOf (s.reg (pgHmc stack) 0x040) 0 = true → ∃ (v : State) (m : FaultMsg), exec (.outerCorrRate t stack) s = .next v.settle ∧
        v.flt = { s.flt with inbox := s.flt.inbox ++ [m] } ∧ m.kind = 0x13 ∧ m.severity = 0 ∧ m.inst = stack ∧
        v.host = s.host ∧ v.win = s.win)

/-- A request at or beyond the window (14 R473): a read returns 0xFF in all 64 bytes, a write is dropped, both complete normally, and every
such request is counted and sets OorSeen; Heart is untouched. -/
def Obligations.MemOutOfRange : Prop :=
  ∀ (s : State) (t dpa : Nat), s.memLink = true → s.ideShut = false → s.winBytes ≤ dpa →
    ∀ i o, (∃ r, i = Instr.memRd t dpa r ∧ o = [Out.memData (List.replicate 64 0xFF#8)]) ∨ (i = .memSpecRd t dpa ∧ o = []) ∨ (i = .memInv t dpa ∧ o = [.memDone]) ∨
      (∃ data poison, i = .memWr t dpa data poison ∧ o = [.memDone]) ∨ (∃ data en poison r, i = .memWrPtl t dpa data en poison r ∧ o = [.memDone]) →
      ∃ v : State, exec i s = .next v.settle ∧ v.outbox = o ++ s.outbox ∧ v.count pgCxl 0x060 = min 0xFFFFFFFF (s.count pgCxl 0x060 + 1) ∧
        bitOf (v.reg pgCxl 0x044) 1 = true ∧ v.win = s.win ∧ v.host = s.host ∧ v.tier = s.tier ∧ v.flt = s.flt

/-- A poisoned write (14 R474): it is dropped and the block keeps its contents, it completes normally, it is counted, and HostPoisonWrite,
severity 1, is sent with the device physical address in the address words. -/
def Obligations.MemPoison : Prop :=
  ∀ (s : State) (t dpa : Nat) (data : List Byte) (en : List Bool) (r : BlockRead), s.memOpen dpa = true → s.ideShut = false → dpa < s.winBytes →
    ∀ i, i = Instr.memWr t dpa data true ∨ i = .memWrPtl t dpa data en true r →
      ∃ (v : State) (m : FaultMsg), exec i s = .next v.settle ∧ v.win = s.win ∧ v.tier = s.tier ∧ v.host = s.host ∧ v.outbox = .memDone :: s.outbox ∧
        v.count pgCxl 0x064 = min 0xFFFFFFFF (s.count pgCxl 0x064 + 1) ∧ v.flt = { s.flt with inbox := s.flt.inbox ++ [m] } ∧
        m.kind = 0x31 ∧ m.severity = 1 ∧ m.w2 = dpa % 2 ^ 32 ∧ m.w3 = dpa / 2 ^ 32 % 2 ^ 32

/-! ### The Tape -/

/-- Frames (02 R33 to R38, R41, R42, R44). A good frame of TAPE_SER, of a beacon or of the host becomes the tape in force, whose position
it gives and whose tracked time it sets, never to less than was read before; a frame behind the tracked position is counted and leaves
the position; a bad one is counted and sets nothing. An edge of TAPE_PPS corrects TAPE_SER's time: an error above 1 µs steps it, and a
smaller one is worked off.

Losing a source, and sending beacons (02 R33, R34, R39, R40, R46). When the tracked source is no longer healthy the node tracks the
most trusted source that is; with none it enters tape loss, which is counted and sent to FLT; tracked time does not move at that instant.
A beacon goes out on the enabled ports that are up, at most once an interval. -/
def Obligations.Tape : Prop :=
  (∀ (s : State) (t : Nat), s.live = true →
    (∀ raw, serFrameOk raw = true → fieldAt raw 4 4 = s.reg pgCue 0x050 → cueCtrl s 1 = true →
      (cueCtrl s 4 = false ∨ (s.at t).ppsFresh = true) →
      (s.cue.tape.tracked = none ∨ s.cue.tape.tracked = some .ser ∨ 2 ≤ s.cue.tape.ser.streak) →
      ∃ v : State, exec (.tapeSerFrame t raw false) s = .next v.settle ∧ v.cue.tape.tracked = some .ser ∧
        v.cue.tape.ser.lastValid = some (max s.now t) ∧ v.tapeTime = max (s.at t).tapeTime (v.cue.tape.interp v.now) ∧
        v.cue.tape.anchorTime = fieldAt raw 16 8 ∧ v.cue.tape.anchorAt = max s.now t - s.reg pgCue 0x054 ∧
        (s.cue.tape.pos ≤ fieldAt raw 8 8 → v.tapePos = fieldAt raw 8 8 ∧ v.counts = s.counts) ∧
        (fieldAt raw 8 8 < s.cue.tape.pos → v.tapePos = s.tapePos ∧
          v.count pgCue 0x074 = min 0xFFFFFFFF (s.count pgCue 0x074 + 1)) ∧ v.flt = s.flt ∧ v.host = s.host ∧ v.win = s.win) ∧
    (∀ raw violation, (violation = true ∨ serFrameOk raw = false) → exec (.tapeSerFrame t raw violation) s = .next (State.settle
      (({ s.at t with cue := { s.cue with tape := { s.cue.tape with ser := { s.cue.tape.ser with streak := 0 } } } }).bump pgCue 0x080))) ∧
    (∀ raw, serFrameOk raw = true → fieldAt raw 4 4 ≠ s.reg pgCue 0x050 → exec (.tapeSerFrame t raw false) s = .next (State.settle
      (({ s.at t with cue := { s.cue with tape := { s.cue.tape with ser := { s.cue.tape.ser with streak := 0 } } } }).bump pgCue 0x084))) ∧
    (∀ port payload, (s.port port).up = true → fieldAt payload 16 4 = s.reg pgCue 0x050 → fieldAt payload 20 1 < 7 → cueCtrl s 2 = true →
      s.cue.tape.tracked = none → ∃ v : State, exec (.tapeBeaconReceive t port payload) s = .next v.settle ∧
        v.cue.tape.tracked = some .beacon ∧ v.cue.tape.port = port ∧
        v.cue.tape.anchorTime = ((fieldAt payload 8 8 : Int) + (s.at t).linkDelay port).toNat ∧ v.cue.tape.anchorAt = max s.now t ∧
        v.tapeTime = max (s.at t).tapeTime (v.cue.tape.interp v.now) ∧
        (s.cue.tape.pos ≤ fieldAt payload 0 8 → v.tapePos = fieldAt payload 0 8) ∧ v.flt = s.flt ∧ v.host = s.host ∧ v.win = s.win) ∧
    (∀ p, s.cue.tape.lastPps = some p → max s.now t < p + 500000000 → exec (.tapePpsEdge t) s = .next (s.at t).settle) ∧
    ((∀ p ∈ s.cue.tape.lastPps, p + 500000000 ≤ max s.now t) → ∃ v : State, exec (.tapePpsEdge t) s = .next v.settle ∧
      v.cue.tape.lastPps = some (max s.now t) ∧ bitOf (v.reg pgCue 0x018) 4 = true ∧ v.tapePos = s.tapePos ∧
      (s.cue.tape.tracked = some .ser →
        let now := (s.at t).tapeTime
        (1000 < ((nearestSecond now : Int) - now).natAbs → v.tapeTime = max now (nearestSecond now) ∧ v.cue.tape.slew = 0) ∧
        (((nearestSecond now : Int) - now).natAbs ≤ 1000 → v.tapeTime = now ∧ v.cue.tape.slew = (nearestSecond now : Int) - now)) ∧
      v.host = s.host ∧ v.win = s.win)) ∧
  (∀ (s : State) (t : Nat), s.live = true →
    (∀ src port, (s.at t).sourceHealthy src port = false → s.cue.tape.tracked = some src → (src = .beacon → s.cue.tape.port = port) →
      (∀ src' p', (s.at t).mostTrusted = some (src', p') → ∃ v : State, exec (.tapeSourceLoss t src port) s = .next v.settle ∧
        v.cue.tape.tracked = some src' ∧ v.cue.tape.port = p' ∧ v.tapeTime = (s.at t).tapeTime ∧ v.tapePos = s.tapePos ∧
        v.flt = s.flt ∧ v.counts = s.counts ∧ v.regs = s.regs ∧ v.host = s.host ∧ v.win = s.win) ∧
      ((s.at t).mostTrusted = none → ∃ (v : State) (m : FaultMsg), exec (.tapeSourceLoss t src port) s = .next v.settle ∧
        v.cue.tape.tracked = none ∧ v.tapeTime = (s.at t).tapeTime ∧ v.tapePos = s.tapePos ∧
        v.count pgCue 0x078 = min 0xFFFFFFFF (s.count pgCue 0x078 + 1) ∧
        v.flt = { s.flt with inbox := s.flt.inbox ++ [m] } ∧ m.kind = 1 ∧ m.severity = 1 ∧ v.host = s.host ∧ v.win = s.win)) ∧
    ((s.at t).ppsFresh = false → s.cue.tape.tracked = some .ser → cueCtrl s 4 = true → (s.at t).mostTrusted = none →
      ∃ (v : State) (m : FaultMsg), exec (.ppsLapse t) s = .next v.settle ∧ v.cue.tape.tracked = none ∧ v.cue.tape.ppsRun = 0 ∧
        v.tapeTime = (s.at t).tapeTime ∧ v.flt = { s.flt with inbox := s.flt.inbox ++ [m] } ∧ m.kind = 1 ∧
        v.host = s.host ∧ v.win = s.win) ∧
    ((s.at t).ppsFresh = true → exec (.ppsLapse t) s = .next (s.at t).settle) ∧
    (∀ g port, s.beaconGrade = some g → cueCtrl s 5 = true → port < 4 → bitsOf (s.reg pgCue 0x058) 19 16 = 2 ^ port →
      (s.port port).up = true →
      (s.cue.tape.lastBeacon + max 10 (bitsOf (s.reg pgCue 0x058) 15 0) * 1000 ≤ max s.now t →
        exec (.tapeBeaconTransmit t) s = .next (State.settle (({ s.at t with cue := { s.cue with
          tape := { s.cue.tape with lastBeacon := max s.now t } } }).shpOffer port ((s.at t).beacon g)).1)) ∧
      (max s.now t < s.cue.tape.lastBeacon + max 10 (bitsOf (s.reg pgCue 0x058) 15 0) * 1000 →
        exec (.tapeBeaconTransmit t) s = .next (s.at t).settle)))

/-! ### Cues -/

/-- Cues fire (02 R51, R55 to R59). The cue that is next performs its action for an Active owner; a one-shot entry is disarmed and a
periodic one goes on past every point missed; a row of one action fires only that action; with no cue due, or with CueEnable 0, nothing
happens. Tenants' entries do not perform what only the Stage Manager's may (R52). -/
def Obligations.CuesAct : Prop :=
  ∀ (s : State) (t n : Nat) (e : CueEntry), (s.at t).mayFire = true → (s.at t).nextCue = some (n, e) → e.holds = none →
    (s.domain e.owner).state = .active → e.owner = 0 →
    (1 ≤ e.action → e.action ≤ 7 → ∃ v : State, exec (.cueFire t) s = .next v.settle ∧
      v.cueEntry n = (if e.periodic = true then { e with value := e.value + ((s.at t).missedPeriods e + 1) * e.period }
        else { e with flags := e.flags - 1 }) ∧
      v.count pgCue 0x07C = (if (s.at t).isLate e = true then min 0xFFFFFFFF (s.count pgCue 0x07C + 1) else s.count pgCue 0x07C)) ∧
    (e.action ≠ 1 → exec (.cueSnapshot t) s = .next (s.at t).settle) ∧
    (∀ c, e.action = 1 → s.openColl? (bitsOf e.arg 31 0) = some c → c.owner = e.owner → c.snapshots.length < 16 →
      c.horizon ≤ (if e.onPosition = true then e.value else s.tapePos) → ∃ v : State, exec (.cueSnapshot t) s = .next v.settle ∧
        v.coll? (bitsOf e.arg 31 0) = some { c with snapshots := c.snapshots ++ [if e.onPosition = true then e.value else s.tapePos] } ∧
        (∀ d, d ≠ bitsOf e.arg 31 0 → v.coll? d = s.coll? d)) ∧
    (∀ c, e.action = 2 → s.coll? (bitsOf e.arg 31 0) = some c → c.isClosed = none → c.owner = e.owner → c.entering = none →
      (s.takeHeart c.owner c.entranceExtents).2 = true → ∃ v : State, exec (.cueEntrance t) s = .next v.settle ∧
        v.coll? (bitsOf e.arg 31 0) = some { c with
          entering := some (none, c.horizon, c.entranceExtents)
          segs := c.segs.mapVal fun g => if g.state = .sealed then { g with state := .entering } else g } ∧
        (∀ d, d ≠ bitsOf e.arg 31 0 → v.coll? d = s.coll? d)) ∧
    (∀ b w, e.action = 3 → s.openTab? (bitsOf e.arg 31 0) = some b → b.owner = e.owner → b.kind ≠ 2 → b.switchers = [] → s.accepts pgGth = true →
      List.find? (fun x => x.2.num == bitsOf e.arg 63 32 && !x.2.dropped) b.vers = some w → w.1 ≠ b.current →
      s.switchBlocked (bitsOf e.arg 31 0) w.1 s.qmg.nextCid = false → ∃ v : State, exec (.cueTableSwitch t) s = .next v.settle ∧
        (v.tab? (bitsOf e.arg 31 0)).map (·.current) = some w.1 ∧ v.count pgGth 0x080 = min 0xFFFFFFFF (s.count pgGth 0x080 + 1)) ∧
    (e.action = 4 → ∃ v : State, exec (.cueGateSwap t) s = .next v.settle ∧
      v.shp.ports[bitsOf e.arg 1 0]?.map (·.bank) = (s.shp.ports[bitsOf e.arg 1 0]?).map fun _ => bitsOf e.arg 8 8) ∧
    (∀ ch, e.action = 5 → bitsOf e.arg 15 0 = 0x2000 + ch → ch < 32 → 1 ≤ bitsOf e.arg 31 16 → bitsOf e.arg 31 16 ≤ 50 →
      s.cal.windows.any (fun x => x.1 == 0x2000 + ch) = false → ∃ v : State, exec (.cueRehearsalWindow t) s = .next v.settle ∧
        (v.cal.windows.find? (0x2000 + ch)).map (·.ends) = some (max s.now t + bitsOf e.arg 31 16 * 1000)) ∧
    (e.action = 6 → bitsOf e.arg 11 0 < s.dom.fuses.maxDomains → bitsOf e.arg 13 12 = 1 →
      ((s.dom.doms.filter fun x => x.1 != bitsOf e.arg 11 0).map fun x => x.2.quotaHeart).sum + bitsOf e.arg 63 32 ≤ s.heartAllocatable →
      ∃ v : State, exec (.cueQuotaChange t) s = .next v.settle ∧
        v.domain (bitsOf e.arg 11 0) = { s.domain (bitsOf e.arg 11 0) with quotaHeart := bitsOf e.arg 63 32 }) ∧
    (e.action = 7 → bitsOf e.arg 11 0 < s.dom.fuses.maxDomains → (s.domain (bitsOf e.arg 11 0)).state = .inactive →
      ∃ v : State, exec (.cueDomainActivate t) s = .next v.settle ∧
        v.domain (bitsOf e.arg 11 0) = { s.domain (bitsOf e.arg 11 0) with state := .active }) ∧
    (e.action = 8 → bitsOf e.arg 11 0 < s.dom.fuses.maxDomains → bitsOf e.arg 11 0 ≠ 0 → (s.domain (bitsOf e.arg 11 0)).state = .active →
      ∃ v : State, exec (.cueDomainRetire t) s = .next v.settle ∧ (v.domain (bitsOf e.arg 11 0)).state = .retiring)

/-! ### Domains -/

/-- Domain commands (16 R520 to R524, R529 to R532; 12 R409). A good descriptor makes an Absent domain Inactive and holds its fields; an
Inactive domain becomes Active; an Active one that retires is Retiring until its last command has posted, and Inactive after it; an
Inactive domain that owns and holds nothing can be deleted; a grant adds classes that the fuses allow and a revoke takes them away, but
never from domain 0; a quota that the tier's allocatable units cover is set, and one they do not is refused with QUOTA. -/
def Obligations.DomainCommands : Prop :=
  ∀ (s : State) (t cid : Nat) (k : Cmd), domOf k < s.dom.fuses.maxDomains →
    let d := domOf k
    (∀ desc, s.SubmittedAdmin cid 0x10 k → desc = (s.at t).cmdRead k (cmdPtrA k.raw) 32 → (s.domain d).state ≠ .retiring →
      (s.defineRefusal d desc = none → exec (.domainDefine t cid) s =
        .next (State.settle (((s.at t).setDomain d ((s.domain d).defined d desc)).finish cid .ok))) ∧
      (∀ st, s.defineRefusal d desc = some st → exec (.domainDefine t cid) s = .next ((s.at t).finish cid st).settle)) ∧
    (s.SubmittedAdmin cid 0x11 k → (s.domain d).state = .inactive → exec (.domainActivate t cid) s =
      .next (State.settle (((s.at t).setDomain d { s.domain d with state := .active }).finish cid .ok))) ∧
    (s.SubmittedAdmin cid 0x11 k → (s.domain d).state = .retiring → exec (.domainActivate t cid) s =
      .next ((s.at t).finish cid .busy).settle) ∧
    (s.SubmittedAdmin cid 0x12 k → d ≠ 0 → (s.domain d).state = .active → s.cue.entries = [] → exec (.domainRetire t cid) s =
      .next (State.settle (((s.at t).setDomain d { s.domain d with state := .retiring, retirers := (s.domain d).retirers ++ [cid] }).setCmd cid
        { k with phase := .waiting }))) ∧
    (s.SubmittedAdmin cid 0x12 k → d = 0 → exec (.domainRetire t cid) s = .next ((s.at t).finish cid .denied).settle) ∧
    (s.live = true → (s.domain d).state = .retiring → s.qmg.cmds.any (fun e => e.2.domain == d) = false → (s.domain d).retirers = [cid] →
      exec (.domainRetireComplete t d) s = .next (State.settle
        (((s.at t).setDomain d { s.domain d with state := .inactive, retirers := [] }).finish cid .ok))) ∧
    (s.SubmittedAdmin cid 0x13 k → d ≠ 0 → (s.domain d).state = .inactive → (∀ n ∈ s.owned d, n = 0) → (s.domain d).usedTop = 0 →
      (s.domain d).usedHeart = 0 → (s.domain d).usedBase = 0 → exec (.domainDelete t cid) s = .next (State.settle
        (({ s.at t with dom := { s.dom with doms := s.dom.doms.erase d } }.unbindSources d).finish cid .ok))) ∧
    (s.SubmittedAdmin cid 0x16 k → exec (.domainRead t cid) s = .next (State.settle
      (((s.at t).cmdWrite cid (cmdPtrA k.raw) 0 (s.domainRecord d)).finish cid .ok))) ∧
    (s.SubmittedAdmin cid 0x14 k → (s.domain d).state ≠ .absent → fieldAt k.raw 49 1 &&& (255 - s.dom.fuses.grantable) = 0 →
      exec (.privGrant t cid) s = .next (State.settle
        (((s.at t).setDomain d { s.domain d with privs := (s.domain d).privs ||| fieldAt k.raw 49 1 }).finish cid .ok))) ∧
    (s.SubmittedAdmin cid 0x15 k → (s.domain d).state ≠ .absent → d ≠ 0 → exec (.privRevoke t cid) s = .next (State.settle
      (((s.at t).setDomain d { s.domain d with privs := (s.domain d).privs &&& (31 - fieldAt k.raw 49 1 % 32) }).finish cid .ok))) ∧
    (s.SubmittedAdmin cid 0x15 k → (s.domain d).state ≠ .absent → d = 0 → exec (.privRevoke t cid) s =
      .next ((s.at t).finish cid .ok).settle) ∧
    (s.SubmittedAdmin cid 0x18 k → fieldAt k.raw 49 1 < 2 →
      let total := ((s.dom.doms.filter fun e => e.1 != d).map fun e => e.2.quota (fieldAt k.raw 49 1)).sum + fieldAt k.raw 52 4
      (total ≤ s.allocatable (fieldAt k.raw 49 1) → exec (.quotaSet t cid) s = .next (State.settle
        (((s.at t).setDomain d ((s.domain d).setQuota (fieldAt k.raw 49 1) (fieldAt k.raw 52 4))).finish cid .ok))) ∧
      (s.allocatable (fieldAt k.raw 49 1) < total → exec (.quotaSet t cid) s =
        .next (State.settle (((s.at t).bump pgTop 0x07C).finish cid .quota))))

/-- Raw extents and watch rules (12 R392, R413; 05 R180). RAW_ALLOC charges one extent of Heart and returns its handle; a domain without
NearBankPriv is denied, and one at its quota is refused; RAW_FREE returns the extent once nothing uses it. A rule that passes its checks is
held as written, and RULE_DELETE takes it away. -/
def Obligations.RawExtentsAndRules : Prop :=
  ∀ (s : State) (t cid : Nat) (k : Cmd),
    (s.SubmittedAdmin cid 0x1C k → fieldAt k.raw 8 2 < s.dom.fuses.maxDomains → fieldAt k.raw 49 1 ≤ 7 →
      (s.domain (fieldAt k.raw 8 2)).state = .active →
      let d := fieldAt k.raw 8 2
      (∀ h, bitOf (s.privs d) 0 = true → (s.domain d).usedHeart < (s.domain d).quotaHeart → s.freeRaw (fieldAt k.raw 49 1) = some h →
        exec (.rawAlloc t cid) s = .next (State.settle ({ (s.at t).setDomain d { s.domain d with usedHeart := (s.domain d).usedHeart + 1 } with
          tier := { s.tier with raw := s.tier.raw.set h d } }.finish cid .ok 0 h))) ∧
      (bitOf (s.privs d) 0 = false → exec (.rawAlloc t cid) s = .next ((s.at t).finish cid .denied).settle) ∧
      (bitOf (s.privs d) 0 = true → (s.domain d).quotaHeart ≤ (s.domain d).usedHeart → exec (.rawAlloc t cid) s =
        .next (((s.at t).bump pgTop 0x07C).finish cid .quota).settle)) ∧
    (s.SubmittedAdmin cid 0x1D k → ∀ d, s.tier.raw.find? (fieldAt k.raw 8 4) = some d →
      (s.rawBusy (fieldAt k.raw 8 4) = true → exec (.rawFree t cid) s = .next (State.settle ((s.at t).setCmd cid { k with phase := .waiting }))) ∧
      (s.rawBusy (fieldAt k.raw 8 4) = false → ∃ u : State, exec (.rawFree t cid) s = .next (u.finish cid .ok).settle ∧
        u.tier = { s.tier with raw := s.tier.raw.erase (fieldAt k.raw 8 4) } ∧
        (u.domain d).usedHeart = (s.domain d).usedHeart - 1 ∧ (∀ e, e ≠ d → u.domain e = s.domain e) ∧ u.qmg = s.qmg ∧ u.host = s.host ∧
        u.win = s.win)) ∧
    (s.SubmittedAdmin cid 0x58 k → ∀ r, r = (s.at t).cmdRead k (cmdPtrA k.raw) 64 → s.ruleRefusal (fieldAt k.raw 8 2) r = none →
      exec (.ruleWrite t cid) s = .next (State.settle (({ s.at t with dom := { s.dom with
        rules := s.dom.rules.set (fieldAt k.raw 8 2 * 65536 + fieldAt r 2 2) r } }).finish cid .ok))) ∧
    (s.SubmittedAdmin cid 0x59 k → fieldAt k.raw 8 2 < s.dom.fuses.maxDomains →
      let key := fieldAt k.raw 8 2 * 65536 + fieldAt k.raw 52 2
      (s.dom.rules.has key = true → exec (.ruleDelete t cid) s = .next (State.settle
        (({ s.at t with dom := { s.dom with rules := s.dom.rules.erase key } }).finish cid .ok))) ∧
      (s.dom.rules.has key = false → exec (.ruleDelete t cid) s = .next ((s.at t).finish cid .notFound).settle))

/-! ### Queues -/

/-- Doorbells and fetching (15 R490, R492 to R494, R509; 16 R533). A tail within the ring is taken, and a head within what is posted; one
beyond puts the queue into Error, which is counted; a doorbell of a queue that is not Enabled does nothing. A fetch takes the entry at the
head of the queue whose turn it is, moves its head, counts it and numbers the command; a command of a domain that is not Active, like one
of another format, completes at once and never runs.

Queue commands (15 R485, R486, R488, R511 to R513). QUEUE_CREATE of a free number whose rings are in range makes an Enabled queue at
indices 0; DELETE and RESET stop the queue's fetching and wait for its last command, after which the queue is gone, or starts afresh;
CURTAIN waits for every command fetched before it from its queue; ABORT of a command that has not begun completes it ABORTED and itself
OK, and of one that has gone NOT_FOUND. -/
def Obligations.Queues : Prop :=
  (∀ (s : State) (t fn page n : Nat) (q : Queue) (val : Word), s.live = true → s.ideShut = false →
    (s.bellQueue fn page = some (n, q) → q.state = .enabled → q.draining = none →
      (val.toNat % 65536 < 2 ^ q.sqLog2 → exec (.qdbSqTailWrite t fn page val) s =
        .next (State.settle ((s.at t).setQueue n { q with sqTail := val.toNat % 65536 }))) ∧
      (2 ^ q.sqLog2 ≤ val.toNat % 65536 → ∃ v : State, exec (.qdbSqTailWrite t fn page val) s = .next v.settle ∧
        v.queue? n = some { q with state := .error } ∧ v.count pgQmg 0x080 = min 0xFFFFFFFF (s.count pgQmg 0x080 + 1) ∧
        bitOf (v.reg pgQmg 0x044) 0 = true ∧ v.host = s.host ∧ v.win = s.win) ∧
      (val.toNat % 65536 < 2 ^ q.cqLog2 → q.cqTail < 2 ^ q.cqLog2 → q.cqHead < 2 ^ q.cqLog2 →
        (val.toNat % 65536 + 2 ^ q.cqLog2 - q.cqHead) % 2 ^ q.cqLog2 ≤ (q.cqTail + 2 ^ q.cqLog2 - q.cqHead) % 2 ^ q.cqLog2 →
        val.toNat % 65536 ≠ q.cqTail → exec (.qdbCqHeadWrite t fn page val) s =
          .next (State.settle ((s.at t).setQueue n { q with cqHead := val.toNat % 65536 })))) ∧
    (s.bellQueue fn page = some (n, q) → q.state ≠ .enabled → exec (.qdbSqTailWrite t fn page val) s = .next (s.at t).settle ∧
      exec (.qdbCqHeadWrite t fn page val) s = .next (s.at t).settle) ∧
    (∀ left, s.mayFetch = true → (s.at t).nextQueue = some (n, q, left) →
      let raw := (s.at t).nextEntry q
      let k : Cmd := { origin := .queue n, domain := q.domain, raw := raw, winBase := s.view.base, winSize := s.view.size }
      let w : Queue := { q with sqHead := (q.sqHead + 1) % 2 ^ q.sqLog2 }
      (cmdFormat raw = 1 → opcodes.contains (cmdOpcode raw) = true → cmdOpcode raw ≠ 0x20 → cmdClass raw < 8 → k.reservedForm = false →
        (s.at t).domRefusal k = none → s.cal.maintenance = false → s.sec.recovery = false →
        (s.at t).leaseHeld = true → ∃ v : State, exec (.commandFetch t) s = .next v.settle ∧ v.queue? n = some w ∧
          v.count pgQmg 0x070 = (s.count pgQmg 0x070 + 1) % 2 ^ 64 ∧ v.qmg.nextCid = s.qmg.nextCid + 1 ∧
          (v.cmd? s.qmg.nextCid).map (fun x => (x.origin, x.domain, x.raw, x.phase)) = some (.queue n, q.domain, raw, .admitted) ∧
          v.host = s.host ∧ v.win = s.win) ∧
      (cmdFormat raw ≠ 1 → cmdOpcode raw ≠ 0x20 → [0x08, 0x09, 0x0A].contains (cmdOpcode raw) = false →
        ∃ u : State, exec (.commandFetch t) s = .next (u.finish s.qmg.nextCid .version).settle ∧
          u.count pgQmg 0x078 = min 0xFFFFFFFF (s.count pgQmg 0x078 + 1) ∧ u.cmd? s.qmg.nextCid = some k ∧ u.host = s.host ∧ u.win = s.win))) ∧
  (∀ (s : State) (t cid n : Nat) (k : Cmd), s.cmd? cid = some k →
    (s.SubmittedAdmin cid 0x01 k → fieldAt k.raw 8 2 = n → 1 ≤ n → n < 4096 → fieldAt k.raw 10 2 < s.dom.fuses.maxDomains → s.queue? n = none →
      (s.domain (fieldAt k.raw 10 2)).state = .active →
      let q : Queue := { state := .enabled, domain := fieldAt k.raw 10 2, fn := fieldAt k.raw 12 1, page := fieldAt k.raw 13 1, sqBase := cmdPtrA k.raw, cqBase := cmdPtrB k.raw, sqLog2 := fieldAt k.raw 49 1, cqLog2 := fieldAt k.raw 50 1, weight := fieldAt k.raw 51 1, vector := fieldAt k.raw 52 2 }
      q.ringsOk = true → 1 ≤ q.weight → q.weight ≤ 16 → ((q.fn = 0 ∧ q.page = 0 ∧ q.vector < 2048) ∨ (1 ≤ q.fn ∧ q.fn ≤ s.cxl.vfs ∧ q.page < 64 ∧
        q.vector < 64 ∧ ∀ e ∈ s.qmg.queues, e.2.fn = q.fn → e.2.page ≠ q.page)) →
      s.granted k.view q.domain ⟨q.sqBase, 64 * 2 ^ q.sqLog2, false⟩ = true → s.granted k.view q.domain ⟨q.cqBase, 32 * 2 ^ q.cqLog2, false⟩ = true →
      exec (.queueCreate t cid) s = .next (State.settle (((s.at t).setQueue n q).finish cid .ok))) ∧
    (∀ q, s.queue? n = some q → fieldAt k.raw 8 2 = n → 1 ≤ n → n < 4096 → k.origin ≠ .queue n → q.draining = none →
      (s.SubmittedAdmin cid 0x02 k → exec (.queueDelete t cid) s = .next (State.settle
        (((s.at t).setQueue n { q with draining := some cid, resetting := false }).setCmd cid { k with phase := .waiting }))) ∧
      (s.SubmittedAdmin cid 0x03 k → exec (.queueReset t cid) s = .next (State.settle
        (((s.at t).setQueue n { q with draining := some cid, resetting := true }).setCmd cid { k with phase := .waiting })))) ∧
    (∀ q, s.live = true → s.queue? n = some q → q.draining = some cid → s.outstanding n = [] →
      (q.resetting = false → exec (.queueDrained t n) s = .next (State.settle
        (({ s.at t with qmg := { s.qmg with queues := s.qmg.queues.erase n } }).finish cid .ok))) ∧
      (q.resetting = true → exec (.queueDrained t n) s = .next (State.settle (((s.at t).setQueue n { q with state := .enabled, sqHead := 0, sqTail := 0, cqHead := 0, cqTail := 0, phase := true, holdBy := none, draining := none, resetting := false, flrDrop := false }).finish cid .ok)))) ∧
    (s.Submitted cid 0x20 k →
      ((∀ e ∈ s.qmg.cmds, e.1 < cid → e.2.origin = k.origin → (s.cueHolding e.1).isSome = true) →
        exec (.curtain t cid) s = .next ((s.at t).finish cid .ok).settle) ∧
      ((∃ e ∈ s.qmg.cmds, e.1 < cid ∧ e.2.origin = k.origin ∧ (s.cueHolding e.1).isNone = true) →
        exec (.curtain t cid) s = .next (State.settle ((s.at t).setCmd cid { k with phase := .waiting })))) ∧
    (s.Submitted cid 0x21 k → k.domain = 0 →
      (∀ m x, s.abortTarget (fieldAt k.raw 8 2) (fieldAt k.raw 48 4) = some (m, x) → s.cmd? m = some x → m ≠ cid → x.phase = .admitted → cmdOpcode x.raw = 0x19 →
        s.cueHolding m = none → (∃ q v, x.origin = .queue q ∧ s.queue? q = some v) → exec (.abort t cid) s = .next (State.settle
          (({ s.at t with bft := { s.bft with waits := s.bft.waits.erase m } }.finish m .aborted).finish cid .ok))) ∧
      (s.abortTarget (fieldAt k.raw 8 2) (fieldAt k.raw 48 4) = none → exec (.abort t cid) s = .next ((s.at t).finish cid .notFound).settle)))

/-- The Cue Table's commands (02 R50, R53, R749; 17 R579). CUE_WRITE holds the entry it names as written; one that the entry's checks
refuse changes no entry; a command with a position still to come is held by the lowest free entry as a one-shot, and completes when it
fires. -/
def Obligations.CueCommands : Prop :=
  ∀ (s : State) (t cid : Nat) (k : Cmd),
    (s.SubmittedAdmin cid 0x60 k → fieldAt k.raw 52 2 < 4096 → ∀ e, e = entryOf ((s.at t).cmdRead k (cmdPtrA k.raw) 32) →
      (e.refusal = none → (s.cueEntry (fieldAt k.raw 52 2)).holds = none → exec (.cueWrite t cid) s = .next (State.settle
        (((s.at t).setCueEntry (fieldAt k.raw 52 2) e.unscheduled).finish cid .ok))) ∧
      (∀ st, e.refusal = some st → exec (.cueWrite t cid) s = .next ((s.at t).finish cid st).settle)) ∧
    (s.SubmittedAdmin cid 0x60 k → 4096 ≤ fieldAt k.raw 52 2 → exec (.cueWrite t cid) s = .next ((s.at t).finish cid .malformed).settle) ∧
    (∀ i, s.Submitted cid 0x0B k → s.accepts pgWlk = true → s.tapePos < cmdPos k.raw → bitOf k.classes 4 = true →
      s.cuesOf k.domain < (s.domain k.domain).cueQuota → s.freeCue = some i → exec (.entrance t cid) s = .next (State.settle
        (((s.at t).setCueEntry i { version := 0x10, trigger := 1, action := 2, flags := 3, owner := k.domain, value := cmdPos k.raw, arg := fieldAt k.raw 8 4, holds := some cid }).setCmd cid
          { k with phase := .waiting })))

/-! ### Collections -/

/-- Mutations (03 R74, R78, R80, R82, R83, R86, R87). One item that the collection takes is decided and stamped at the command's
position and its outcome byte is written; the source's W rises to just below the position, and to it under the Last flag; no other
collection and no horizon changes. A position below the horizon is STALE, and one that the source has left is MALFORMED: nothing is
stamped. -/
def Obligations.Mutations : Prop :=
  ∀ (s : State) (t cid op : Nat) (k : Cmd) (c : Coll) (v : Source) (i : Instr),
    (op = 0x08 ∧ i = .insert t cid) ∨ (op = 0x09 ∧ i = .delete t cid) ∨ (op = 0x0A ∧ i = .upsert t cid) →
    s.Submitted cid op k → s.mutEarlier cid k = false → s.coll? (mutColl k.raw) = some c → s.source? (mutSource k.raw) = some v →
    mutCount k.raw ≤ 65536 → k.progress = 0 →
    (cmdPos k.raw < c.horizon → exec i s = .next ((s.at t).finishMut cid (mutSource k.raw) .stale 0).settle) ∧
    (c.horizon ≤ cmdPos k.raw → cmdPos k.raw ≤ v.w → exec i s = .next ((s.at t).finishMut cid (mutSource k.raw) .malformed 0).settle) ∧
    (∀ raw, c.horizon ≤ cmdPos k.raw → v.w < cmdPos k.raw → v.active = true → v.leaving = false → (s.at t).itemList c k = [raw] → c.slots.length + 1 < 2 ^ 32 →
      c.tailAged (s.at t).tapeTime = false → c.tail.length + 1 < c.sealAt → 1 ≤ c.sealAfter → c.segCount < c.compactAt →
      s.fab.repls.find? (mutColl k.raw) = none →
      let n := c.slots.length + c.slotsNeeded op (mutSource k.raw) (cmdPos k.raw) [c.itemOf op raw]
      (s.at t).growColl c n = (s.at t, c, true) →
      let r := c.stampItem op (mutSource k.raw) (cmdPos k.raw) (s.at t).tapeTime (c.itemOf op raw)
      let v1 := v.raise (cmdPos k.raw - 1)
      let v2 : Source := { v1 with next := v1.next + 1, stamped := true }
      let u := ((((s.at t).setColl (mutColl k.raw) c).setSource (mutSource k.raw) v1).setColl (mutColl k.raw) r.1).setSource (mutSource k.raw) v2
      let u := u.cmdWrite cid (cmdPtrB k.raw) 0 [BitVec.ofNat 8 r.2]
      (bitOf (cmdFlags k.raw) 0 = false → exec i s = .next (u.finishMut cid (mutSource k.raw) .ok 1).settle) ∧
      (bitOf (cmdFlags k.raw) 0 = true → exec i s =
        .next ((u.setSource (mutSource k.raw) (v2.raise (cmdPos k.raw))).finishMut cid (mutSource k.raw) .ok 1).settle))

/-- The Wings (03 R96 to R98, R101 to R103). A tail whose oldest item has aged is sealed whole, under the next seal sequence; a finished
build is Sealed with its graph; a finished compaction leaves one Sealed segment of both inputs' slots, which retire; an Entrance takes
every Sealed segment, and its publish ends it and completes its command OK. No other collection changes. -/
def Obligations.Wings : Prop :=
  ∀ (s : State) (t n : Nat) (c : Coll), s.live = true → s.coll? n = some c →
    (c.tail ≠ [] → c.segCount < 256 → c.tailAged (s.at t).tapeTime = true → c.merging.isSome = true → exec (.tailSealTimer t n) s =
      .next (State.settle ((s.at t).setColl n { c with segs := c.segs.set c.nextSeg { state := .building, seq := c.nextSeal, slots := c.tail }, nextSeg := c.nextSeg + 1, nextSeal := c.nextSeal + 1, tail := [] }))) ∧
    (c.tailFull = false → c.tailAged (s.at t).tapeTime = false → c.segCount < c.compactAt → exec (.tailSealTimer t n) s =
      .next (State.settle ((s.at t).setColl n c))) ∧
    (∀ seg x g, c.segs.find? seg = some x → x.state = .building → c.merging.isSome = true → exec (.segmentBuildDone t n seg g) s =
      .next (State.settle ((s.at t).setColl n { c with segs := c.segs.set seg { x with state := .sealed, graph := g } }))) ∧
    (∀ a b x y g, c.merging = some (a, b) → a ≠ b → c.segs.find? a = some x → c.segs.find? b = some y → c.tail = [] →
      ∃ (v : State) (d : Coll), exec (.compactionDone t n g) s = .next v.settle ∧ v.coll? n = some d ∧
        (d.segs.find? c.nextSeg).map (fun z => (z.seq, z.slots, z.graph)) = some (max x.seq y.seq, x.slots ++ y.slots, g) ∧
        (a, s.wlk.order) ∈ d.dead ∧ (b, s.wlk.order) ∈ d.dead ∧ d.slots = c.slots ∧
        (∀ m, m ≠ n → v.coll? m = s.coll? m) ∧ v.host = s.host ∧ v.win = s.win) ∧
    (∀ cid k, s.Submitted cid 0x0B k → s.accepts pgWlk = true → fieldAt k.raw 8 4 = n → cmdPos k.raw ≤ s.tapePos →
      (∀ u, c.entering = none → (s.at t).takeHeart c.owner c.entranceExtents = (u, true) → exec (.entrance t cid) s = .next (State.settle ((u.setColl n { c with
        entering := some (some cid, c.horizon, c.entranceExtents)
        segs := c.segs.mapVal fun g => if g.state = .sealed then { g with state := .entering } else g }).setCmd cid { k with phase := .started }))) ∧
      (c.entering.isSome = true → exec (.entrance t cid) s = .next ((s.at t).finish cid .busy).settle)) ∧
    (∀ cid h m g, c.entering = some (some cid, h, m) → ∃ u : State, exec (.entrancePublish t n g) s = .next (u.finish cid .ok).settle ∧
      (u.coll? n).map (·.entering) = some none ∧ (∀ j, j ≠ n → u.coll? j = s.coll? j) ∧ u.qmg = s.qmg ∧ u.host = s.host ∧ u.win = s.win) ∧
    (c.entering = none → ∀ g, exec (.entrancePublish t n g) s = .next (s.at t).settle)

/-- Collection commands (03 R67, R68, R92, R93, R106, R107; 13 R450; 23 R750). A good descriptor makes an empty collection of its fields,
charged to its owner; a destroy closes the collection at once and waits, and when the last command has completed the collection is gone;
a horizon rises to the least of the value asked, the watermark and the oldest snapshot, and never falls; a released snapshot is gone; a
checkpoint holds the collection as it stands, and a restore of a number in use is BUSY.

Sources (03 R81, R84, R85). A new Active source starts at the node watermark, bound to the domains of the bitmap; unregistering one
that has no mutation outstanding removes it; a number above 255 or a state above 2 is MALFORMED. -/
def Obligations.CollectionsAndSources : Prop :=
  (∀ (s : State) (t cid n : Nat) (k : Cmd), s.cmd? cid = some k → fieldAt k.raw 8 4 = n →
    (∀ desc schema, s.SubmittedAdmin cid 0x50 k → desc = (s.at t).cmdRead k (cmdPtrA k.raw) 64 → schema = (s.at t).cmdRead k (cmdPtrB k.raw) 32 →
      fieldAt desc 0 1 / 16 = 1 → fieldAt desc 10 2 < s.dom.fuses.maxDomains → n < 65536 →
      let c := collOf desc schema s.wlk.watermark
      (s.coll? n = none → (s.domain c.owner).state = .active → c.inRange = true → schemaOk schema = true → (s.takeHeart c.owner 1).2 = true →
        ∃ u : State, exec (.collectionCreate t cid) s = .next (u.finish cid .ok).settle ∧ u.coll? n = some { c with extents := 1 } ∧
          (u.domain c.owner).usedHeart = (s.domain c.owner).usedHeart + 1 ∧ (∀ j, j ≠ n → u.coll? j = s.coll? j) ∧ u.qmg = s.qmg ∧
          u.host = s.host ∧ u.win = s.win) ∧
      ((s.coll? n).isSome = true → exec (.collectionCreate t cid) s = .next ((s.at t).finish cid .busy).settle)) ∧
    (∀ c, s.openColl? n = some c →
      (s.SubmittedAdmin cid 0x51 k → exec (.collectionDestroy t cid) s = .next (State.settle
        (((s.at t).setColl n { c with isClosed := some cid }).setCmd cid { k with phase := .waiting }))) ∧
      (s.SubmittedAdmin cid 0x52 k → exec (.horizonSet t cid) s = .next (State.settle (((s.at t).setColl n { c with
        horizon := max c.horizon (c.snapshots.foldl min (min (cmdPos k.raw) s.wlk.watermark)) }).finish cid .ok))) ∧
      (s.SubmittedAdmin cid 0x53 k → cmdPos k.raw ∈ c.snapshots → exec (.snapshotRelease t cid) s = .next (State.settle
        (((s.at t).setColl n { c with snapshots := c.snapshots.erase (cmdPos k.raw) }).finish cid .ok))) ∧
      (∀ v, s.SubmittedAdmin cid 0x43 k → s.accepts pgBft = true → s.openVolume? (fieldAt k.raw 12 4) = some v → v.owner = c.owner →
        s.writeBarred (fieldAt k.raw 12 4) = false → exec (.collectionCheckpoint t cid false) s = .next (State.settle
          (({ s.at t with bft := { s.bft with seq := s.bft.seq + 1, ckpts := s.bft.ckpts.set (fieldAt k.raw 12 4 * 65536 + n) { coll := c, floors := s.wlk.sources.map (fun (e : Nat × Source) => (e.1, e.2.w, e.2.next)), seq := s.bft.seq + 1 } } }).finish cid .ok)))) ∧
    (s.openColl? n = none → s.SubmittedAdmin cid 0x51 k → exec (.collectionDestroy t cid) s = .next ((s.at t).finish cid .notFound).settle) ∧
    (∀ ck v, s.SubmittedAdmin cid 0x55 k → s.bft.ckpts.find? (fieldAt k.raw 12 4 * 65536 + n) = some ck → s.openVolume? (fieldAt k.raw 12 4) = some v →
      n < 65536 → (s.domain ck.coll.owner).state = .active → v.owner = ck.coll.owner →
      ((s.coll? n).isSome = true → exec (.collectionRestore t cid) s = .next ((s.at t).finish cid .busy).settle) ∧
      (s.coll? n = none → ck.major = 1 → ck.floors = [] → ck.coll.fullDim = 0 →
        (s.takeHeart ck.coll.owner (ck.coll.extentsFor ck.coll.slots.length)).2 = true →
        ∃ u : State, exec (.collectionRestore t cid) s = .next (u.finish cid .ok).settle ∧
          (u.coll? n).map (fun c => (c.slots, c.horizon, c.snapshots, c.merging, c.extents)) = some (ck.coll.slots, ck.coll.horizon,
            ck.coll.snapshots, none, ck.coll.extentsFor ck.coll.slots.length) ∧ (∀ j, j ≠ n → u.coll? j = s.coll? j) ∧ u.host = s.host ∧ u.win = s.win)) ∧
    (∀ c m, s.live = true → s.coll? m = some c → c.isClosed = some cid → s.collBusy m cid = false → ∃ u : State,
      exec (.objectDrained t .collection m) s = .next (u.finish cid .ok).settle ∧ u.coll? m = none ∧ (∀ j, j ≠ m → u.coll? j = s.coll? j) ∧
        (u.domain c.owner).usedHeart = (s.domain c.owner).usedHeart - (c.extents + (c.entering.map fun e => e.2.2).getD 0) ∧ u.qmg = s.qmg)) ∧
  (∀ (s : State) (t cid : Nat) (k : Cmd), s.SubmittedAdmin cid 0x54 k →
    let n := fieldAt k.raw 12 2
    ((256 ≤ n ∨ 2 < fieldAt k.raw 49 1) → exec (.sourceSet t cid) s = .next ((s.at t).finish cid .malformed).settle) ∧
    (∀ map, n < 256 → fieldAt k.raw 49 1 = 2 → s.source? n = none → s.wlk.leastFloor.find? n = none →
      map = (s.at t).cmdRead k (cmdPtrA k.raw) 512 → (∀ d, s.dom.fuses.maxDomains ≤ d → bitmapBit map d = false) →
      ∃ u : State, exec (.sourceSet t cid) s = .next (u.finish cid .ok).settle ∧
        u.source? n = some { active := true, domains := map, w := s.wlk.watermark } ∧ (∀ m, m ≠ n → u.source? m = s.source? m) ∧
        u.wlk.wasActive = true ∧ u.wlk.colls = s.wlk.colls ∧ u.host = s.host ∧ u.win = s.win) ∧
    (∀ v, n < 256 → fieldAt k.raw 49 1 = 0 → s.source? n = some v →
      s.qmg.cmds.any (fun e => [0x08, 0x09, 0x0A].contains (cmdOpcode e.2.raw) && mutSource e.2.raw == n) = false →
      ∃ u : State, exec (.sourceSet t cid) s = .next (u.finish cid .ok).settle ∧ u.source? n = none ∧
        (∀ m, m ≠ n → u.source? m = s.source? m) ∧ u.wlk.colls = s.wlk.colls ∧ u.host = s.host ∧ u.win = s.win))

/-! ### Searches -/

/-- A search is admitted (03 R88 to R91; 04 R110, R114, R115, R118; 16 R535). A descriptor out of range is refused; an as-of position
below the horizon is STALE; any other search enters the admission queue as-of its position, or as-of the watermark where it names none,
with the structures of that instant. When its wait has run out it fails BUSY under OnTimeout, and is otherwise ready as-of the
watermark, or STALE where that has fallen behind the horizon. -/
def Obligations.SearchesAdmitted : Prop :=
  ∀ (s : State) (t cid : Nat),
    (∀ k, s.Submitted cid 0x01 k → s.coll? (fieldAt k.raw 8 4) = none → exec (.search t cid) s = .next ((s.at t).finish cid .notFound).settle) ∧
    (∀ k c, s.Submitted cid 0x01 k → s.coll? (fieldAt k.raw 8 4) = some c →
      let u := s.at t
      let raw := u.cmdRead k (cmdPtrA k.raw) 64
      let predicate := u.readPredicate k (fieldAt raw 32 8)
      let full := if fieldAt raw 8 2 = 0 || fieldAt raw 40 8 = 0 then [] else u.cmdRead k (fieldAt raw 40 8) (2 * c.fullDim)
      let d := u.descOf c raw (u.cmdRead k (cmdPtrA k.raw + 64) (2 * c.navDim)) full predicate
      let asOf := if cmdPos k.raw = 0 then s.wlk.watermark else cmdPos k.raw
      (∀ st, descRefusal c raw d = some st → exec (.search t cid) s = .next (u.refuseSearch cid st none).settle) ∧
      (descRefusal c raw d = none → bitOf (s.reg pgDom 0x040) 0 = false →
        (asOf < c.horizon → exec (.search t cid) s = .next (u.refuseSearch cid .stale none).settle) ∧
        (c.horizon ≤ asOf → d.scatter = false → ∃ v : State, exec (.search t cid) s = .next v.settle ∧
          (v.search? cid).map (fun q => (q.coll, q.asOf, q.stage, q.desc, q.order, q.timedOut)) =
            some (fieldAt k.raw 8 4, asOf, .queued, d, s.wlk.order, false) ∧
          (∀ n, n ≠ cid → v.search? n = s.search? n) ∧ v.wlk.order = s.wlk.order + 1 ∧ v.cmd? cid = some { k with phase := .started } ∧
          v.wlk.colls = s.wlk.colls ∧ v.host = s.host ∧ v.win = s.win)) ∧
      (descRefusal c raw d = none → bitOf (s.reg pgDom 0x040) 0 = true → s.walkerShare k.domain = 0 →
        exec (.search t cid) s = .next (u.refuseSearch cid .quota none).settle)) ∧
    (∀ q, s.live = true → s.search? cid = some q → q.stage = .queued → q.timedOut = false → s.wlk.watermark < q.asOf →
      (q.queuedAt + q.desc.waitUs * 1000 ≤ (s.at t).tapeTime → q.desc.onTimeout = true →
        exec (.watermarkTimeout t cid) s = .next ((s.at t).failSearch cid .busy).settle) ∧
      (∀ c, q.queuedAt + q.desc.waitUs * 1000 ≤ (s.at t).tapeTime → q.desc.onTimeout = false → s.coll? q.coll = some c →
        (c.horizon ≤ s.wlk.watermark → exec (.watermarkTimeout t cid) s = .next (State.settle
          ((s.at t).setSearch cid { q with timedOut := true, asOf := s.wlk.watermark, readyAt := some (max s.now t) }))) ∧
        (s.wlk.watermark < c.horizon → exec (.watermarkTimeout t cid) s =
          .next ((s.at t).failSearch cid .stale (some s.wlk.watermark)).settle)) ∧
      ((s.at t).tapeTime < q.queuedAt + q.desc.waitUs * 1000 → exec (.watermarkTimeout t cid) s = .next (s.at t).settle))

/-- A search walks (04 R110 to R112, R123, R124, R132, R136, R147; 06 R205). The Ready search whose turn it is takes a context and leaves
the queue; a convoy closes when its window has passed, and is counted by its queries; a pass that returns is over and counted; none of
these writes memory or changes a stored vector. -/
def Obligations.SearchesWalk : Prop :=
  ∀ (s : State) (t n : Nat), s.live = true →
    (∀ q c, s.accepts pgWlk = true → (s.at t).nextReady = some (n, q) → s.search? n = some q → s.coll? q.coll = some c → q.aborting = false →
      ∃ (v : State) (r : Search), exec (.searchContextTake t) s = .next v.settle ∧ v.search? n = some r ∧ r.stage ≠ .queued ∧
        r.coll = q.coll ∧ r.asOf = q.asOf ∧ v.wlk.colls = s.wlk.colls ∧ v.qmg = s.qmg ∧ v.host = s.host ∧ v.win = s.win) ∧
    ((s.at t).nextReady = none → exec (.searchContextTake t) s = .next (s.at t).settle) ∧
    (∀ x, s.wlk.convoys.find? n = some x → x.issued = false → x.openedAt + s.convoyWin x.flat ≤ max s.now t →
      ∃ v : State, exec (.convoyWindowExpiry t n) s = .next v.settle ∧ v.wlk.convoys.find? n = some { x with issued := true } ∧
        (∀ m, m ≠ n → v.wlk.convoys.find? m = s.wlk.convoys.find? m) ∧
        v.wlk.occupancy.getD (x.queries.length - 1) 0 = min 0xFFFFFFFF (s.wlk.occupancy.getD (x.queries.length - 1) 0 + 1) ∧
        v.wlk.colls = s.wlk.colls ∧ v.qmg = s.qmg ∧ v.host = s.host ∧ v.win = s.win) ∧
    (∀ x, s.wlk.convoys.find? n = some x → max s.now t < x.openedAt + s.convoyWin x.flat → exec (.convoyWindowExpiry t n) s = .next (s.at t).settle) ∧
    (∀ x c, s.wlk.convoys.find? n = some x → n < s.wlk.nextConvoy → x.issued = true → s.coll? x.coll = some c →
      s.unitHeld (granuleStack x.row) (granuleUnit x.row) = false → s.pseudoOpen (granuleStack x.row) (granuleUnit x.row / 8) = true →
      ∃ v : State, exec (.walkerPassComplete t n []) s = .next v.settle ∧ v.wlk.convoys.find? n = none ∧
        v.count (pgPnm (granuleStack x.row)) 0x068 = (s.count (pgPnm (granuleStack x.row)) 0x068 + 1) % 2 ^ 64 ∧ v.flt = s.flt) ∧
    (∀ x, s.wlk.convoys.find? n = some x → x.issued = false → ∀ c, s.coll? x.coll = some c → exec (.walkerPassComplete t n []) s =
      .next (s.at t).settle) ∧
    (s.wlk.slowFrom + 1000000000 ≤ (s.at t).tapeTime →
      (s.reg pgWlk 0x08C = 0 → exec (.stragglerCheck t) s = .next (State.settle { s.at t with
        wlk := { s.wlk with slowFrom := (s.at t).tapeTime, slow := [] } })) ∧
      (s.reg pgWlk 0x08C ≠ 0 → s.reg pgWlk 0x08C * 1000 < percentile99 s.wlk.slow → ∃ (v : State) (m : FaultMsg),
        exec (.stragglerCheck t) s = .next v.settle ∧ v.wlk = { s.wlk with slowFrom := (s.at t).tapeTime, slow := [] } ∧
          v.flt = { s.flt with inbox := s.flt.inbox ++ [m] } ∧ m.kind = 2 ∧ m.severity = 0 ∧ v.host = s.host ∧ v.win = s.win))

/-- A search ends (04 R137, R138, R141; 05 R187; 07 R237, R246; 11 R360, R363, R378). The local cast of a walked search is the best K of what
it found; it goes to re-scoring, or is posted where no rule and no shard is waited for; shards that have not answered count as missing
when the wait is over; an alarm is held until its evidence is there, and its record goes to the ring or is dropped where the domain has
none. -/
def Obligations.SearchesEnd : Prop :=
  ∀ (s : State) (t cid : Nat) (q : Search) (k : Cmd) (c : Coll), s.live = true → s.search? cid = some q → s.cmd? cid = some k →
    s.coll? q.coll = some c →
    let cast := castOf (max q.desc.k q.desc.rescore) (higherBetter c.metric) true [{ entries := q.results }] []
    (s.accepts pgCst = true → q.stage = .walked → q.desc.exact = false → 1 ≤ q.desc.rescore → q.desc.rescoreOnNear = false →
      ∃ v : State, exec (.selection t cid [] 0) s = .next v.settle ∧
        (v.search? cid).map (fun r => (r.stage, r.report, r.localList.map fun e => (e.key, e.score))) =
          some (.rescoring, cast.report, cast.chosen.map fun e => (e.key, e.score)) ∧
        v.count pgCst 0x050 = (s.count pgCst 0x050 + 1) % 2 ^ 64 ∧ v.qmg = s.qmg ∧ v.flt = s.flt ∧ v.host = s.host ∧ v.win = s.win) ∧
    (s.accepts pgCst = true → q.stage = .walked → q.desc.exact = false → q.desc.rescore = 0 → q.desc.scatter = false → q.rules = [] →
      ∃ u : State, exec (.selection t cid [] 0) s = .next (u.postSearch cid 0 false).settle ∧
        (u.search? cid).map (fun r => (r.report, r.localList.map fun e => (e.key, e.score))) =
          some (cast.report, cast.chosen.map fun e => (e.key, e.score)) ∧ u.qmg = s.qmg ∧ u.flt = s.flt ∧ u.host = s.host ∧ u.win = s.win) ∧
    (q.stage ≠ .walked → exec (.selection t cid [] 0) s = .next (s.at t).settle) ∧
    (q.stage = .rescoring → q.aborting = false → q.desc.scatter = false → q.rules = [] → q.localList = [] →
      ∃ u : State, exec (.rescoreReadComplete t cid []) s = .next (u.postSearch cid 0 false).settle ∧
        (u.search? cid).map (·.localList) = some [] ∧ u.qmg = s.qmg ∧ u.flt = s.flt ∧ u.host = s.host ∧ u.win = s.win) ∧
    (∀ e, q.stage = .rescoring → q.aborting = false → q.desc.scatter = false → q.rules = [] → q.localList = [e] → 1 ≤ q.desc.rescore →
      1 ≤ q.desc.k → isNaN32 e.score = false →
      ∃ u : State, exec (.rescoreReadComplete t cid [e.slot]) s = .next (u.postSearch cid 0 false).settle ∧
        (u.search? cid).map (fun r => (r.rescoreFail, r.rescoreDone, r.rescoreIncomplete, r.localList)) =
          some (q.rescoreFail + 1, q.rescoreDone, true, [e]) ∧
        u.count pgWlk 0x088 = min 0xFFFFFFFF (s.count pgWlk 0x088 + 1) ∧ u.qmg = s.qmg ∧ u.flt = s.flt ∧ u.host = s.host ∧ u.win = s.win) ∧
    (∀ e w, q.stage = .rescoring → q.aborting = false → q.desc.scatter = false → q.rules = [] → q.localList = [e] → 1 ≤ q.desc.rescore →
      1 ≤ q.desc.k → w = fullScore c.metric c.fullFormat c.fullDim q.desc.fullQ (((c.slots.find? e.slot).map fun x => x.full).getD []) →
      isNaN32 w = false → ∃ u : State, exec (.rescoreReadComplete t cid []) s = .next (u.postSearch cid 0 false).settle ∧
        (u.search? cid).map (fun r => (r.rescoreFail, r.rescoreDone, r.localList)) =
          some (q.rescoreFail, q.rescoreDone + 1, [{ e with full := true, score := w }]) ∧
        u.qmg = s.qmg ∧ u.flt = s.flt ∧ u.host = s.host ∧ u.win = s.win) ∧
    (q.stage = .gathering → (s.at t).shardWaitOver q = false → exec (.shardWaitExpiry t cid) s = .next (s.at t).settle) ∧
    (q.stage = .gathering → (s.at t).shardWaitOver q = true → exec (.shardWaitExpiry t cid) s = .next (State.settle (((s.at t).setSearch cid
      { q with shards := q.shards.map fun (a : ShardAsk) => if a.settled then a else { a with missing := true } }).mergeShards cid))) ∧
    (q.stage = .evidence → q.sets = [] → s.ring? k.domain = none → ∃ u : State,
      exec (.evidenceFetchComplete t cid []) s = .next (u.postSearch cid 0 true).settle ∧
        (u.search? cid).map (·.record) = some (sillageRecord q k [] []) ∧ u.count pgQmg 0x410 = min 0xFFFFFFFF (s.count pgQmg 0x410 + 1) ∧
        bitOf (u.reg pgQmg 0x404) 0 = true ∧ (∃ m : FaultMsg, u.flt = { s.flt with inbox := s.flt.inbox ++ [m] } ∧ m.kind = 5) ∧
        u.host = s.host ∧ u.win = s.win) ∧
    (∀ r, q.stage = .ringWait → s.ring? k.domain = some r → q.record.length + 64 ≤ r.length → (s.at t).tapeTime < q.ringUntil →
      r.fits (leNat ((s.at t).readBytes s.view r.tail 8)) q.record.length = false → exec (.sillageTailPoll t cid) s = .next (s.at t).settle) ∧
    (∀ r, q.stage = .ringWait → s.ring? k.domain = some r → q.record.length + 64 ≤ r.length → r.head + q.record.length ≤ r.length →
      r.head < r.length → r.fits (leNat ((s.at t).readBytes s.view r.tail 8)) q.record.length = true → ∃ u : State,
      exec (.sillageTailPoll t cid) s = .next (u.postSearch cid (r.base + r.head) true).settle ∧
        u.ring? k.domain = some { r with head := (r.head + q.record.length) % r.length } ∧
        u.count pgQmg 0x408 = (s.count pgQmg 0x408 + 1) % 2 ^ 64 ∧ u.flt = s.flt ∧
        (linkUp s = true → u.readBytes s.view (r.base + r.head) q.record.length = q.record) ∧
        (∀ a, a < r.base + r.head ∨ r.base + r.head + q.record.length ≤ a → u.readByte s.view a = (s.at t).readByte s.view a))

/-- Rings, evidence and CST (11 R361, R376; 07 R248, R249). A good ring of an Active domain is set with its head at 0, and base 0 takes the
domain's ring away; evidence is bound by a volume of the collection's owner and a U64 field; CST answers a gather's unique values with
counts, and an index of a maximum, and counts both. -/
def Obligations.RingsAndCasting : Prop :=
  ∀ (s : State) (t cid : Nat) (k : Cmd),
    (s.SubmittedAdmin cid 0x31 k → fieldAt k.raw 8 2 < s.dom.fuses.maxDomains →
      (cmdPtrA k.raw = 0 → exec (.sillageRing t cid) s = .next (State.settle (({ s.at t with
        qmg := { s.qmg with rings := s.qmg.rings.erase (fieldAt k.raw 8 2) } }).finish cid .ok))) ∧
      (cmdPtrA k.raw ≠ 0 → cmdPtrA k.raw % 4096 = 0 → cmdPtrB k.raw % 8 = 0 → isPow2 (cmdPtrC k.raw) = true → 65536 ≤ cmdPtrC k.raw →
        cmdPtrC k.raw ≤ 4294967296 → fieldAt k.raw 52 4 ≤ 100000 → (s.domain (fieldAt k.raw 8 2)).state = .active →
        exec (.sillageRing t cid) s = .next (State.settle (((s.at t).setRing (fieldAt k.raw 8 2) { base := cmdPtrA k.raw, tail := cmdPtrB k.raw, length := cmdPtrC k.raw, waitUs := fieldAt k.raw 52 4 }).finish cid .ok)))) ∧
    (∀ c v, s.SubmittedAdmin cid 0x30 k → s.openColl? (fieldAt k.raw 8 4) = some c →
      (fieldAt k.raw 12 4 = 0xFFFFFFFF → exec (.evidenceBind t cid) s = .next (State.settle
        (((s.at t).setColl (fieldAt k.raw 8 4) { c with binding := none }).finish cid .ok))) ∧
      (fieldAt k.raw 12 4 ≠ 0xFFFFFFFF → s.openVolume? (fieldAt k.raw 12 4) = some v →
        (v.owner ≠ c.owner → exec (.evidenceBind t cid) s = .next ((s.at t).finish cid .denied).settle) ∧
        (v.owner = c.owner → fieldAt k.raw 49 1 < 8 → (schemaField c.schema (fieldAt k.raw 49 1)).1 = 1 →
          (schemaField c.schema (fieldAt k.raw 49 1)).2.2 = 8 → 64 ≤ fieldAt k.raw 52 4 → fieldAt k.raw 52 4 ≤ 4096 → fieldAt k.raw 52 4 % 64 = 0 →
          exec (.evidenceBind t cid) s = .next (State.settle (((s.at t).setColl (fieldAt k.raw 8 4) { c with
            binding := some { volume := fieldAt k.raw 12 4, locator := fieldAt k.raw 49 1, bytes := fieldAt k.raw 52 4 } }).finish cid .ok))))) ∧
    (s.live = true → s.accepts pgCst = true →
      (∀ u, s.cst.uniques.find? cid = some u → u.served = false → ∃ v : State, exec (.uniqueWithCounts t cid) s = .next v.settle ∧
        v.cst.uniques.find? cid = some { u with counts := uniqueCounts u.values, sums := uniqueSums u.values u.bags, served := true } ∧
        (∀ x n, (x, n) ∈ uniqueCounts u.values → n = u.values.count x) ∧
        v.count pgCst 0x078 = min 0xFFFFFFFF (s.count pgCst 0x078 + 1) ∧
        v.count pgCst 0x058 = (s.count pgCst 0x058 + u.values.length) % 2 ^ 64 ∧ v.regs = s.regs ∧ v.host = s.host ∧ v.win = s.win) ∧
      (∀ values higher, values.length ≤ 16777216 → ∃ v : State, exec (.indexOfMaximum t values higher) s = .next v.settle ∧
        v.cst = { s.cst with index := some (indexOfMax higher values) } ∧
        ((∀ w ∈ values, isNaN32 w = true) → v.cst.index = some (0xFFFFFFFF, 0x7FC00000#32)) ∧
        v.count pgCst 0x07C = min 0xFFFFFFFF (s.count pgCst 0x07C + 1) ∧ v.regs = s.regs ∧ v.host = s.host ∧ v.win = s.win))

/-! ### Near-Bank Units -/

/-- Raw runs (06 R216 to R220, R226, R230). A RUN is DENIED while the stack's raw programs are off, MALFORMED with the reason of the first check that
fails, BUSY under a share of 0, and is otherwise loaded as the next run, which waits; it starts when its turn and its units allow, its
segments end one after another, and its end writes the header and the entries and posts OK.

Instructions of a raw program on one unit (06 R197): OPEN opens the row its operand gives and CLOSE closes the bank; LDV copies columns of the
open row into V; SWR writes Q's registers there and nothing elsewhere; MOVV copies V's elements into Q. No other instruction touches a raw
extent's bytes. -/
def Obligations.RawPrograms : Prop :=
  (∀ (s : State) (t cid n : Nat) (k : Cmd),
    (s.Submitted cid 0x28 k → fieldAt k.raw 48 1 = 0 →
      let u := s.at t
      let stack := fieldAt k.raw 8 4 / 512
      let pg := pgPnm stack
      let h := u.cmdRead k (cmdPtrA k.raw) 32
      let m := imageOf h
      let instrs := (List.range m.count).map fun i => leNat (u.cmdRead k (cmdPtrA k.raw + 32 + 8 * i) 8)
      let rows := (List.range m.listLen).map fun i => leNat (u.cmdRead k (cmdPtrA k.raw + 32 + 8 * m.count + 2 * i) 2)
      let why := refusalReason (s.pnmStack stack) (s.reg pg 0x048) (s.reg pg 0x050) (fieldAt k.raw 8 4) (fieldAt k.raw 49 1) (fieldAt k.raw 50 1) m instrs rows
      (bitOf (s.reg pg 0x040) 1 = false → exec (.run t cid false) s = .next (u.finish cid .denied).settle) ∧
      (bitOf (s.reg pg 0x040) 1 = true → fieldAt h 0 1 / 16 = 1 → m.ok = true →
        (why ≠ 0 → exec (.run t cid false) s = .next (u.refuseRun cid stack why k .malformed).settle) ∧
        (why = 0 → (unitsOf (fieldAt k.raw 50 1)).any (fun x => (s.pnmStack stack).disabled.contains (8 * fieldAt k.raw 49 1 + x)) = false →
          (exec (.run t cid true) s = .next (u.refuseRun cid stack 0 k .uncorrected).settle) ∧
          (s.reg pg 0x04C ≠ 0 → ∃ (v : State) (r : RawRun), exec (.run t cid false) s = .next v.settle ∧
            v.pnm.runs = s.pnm.runs.set s.pnm.nextRun r ∧ v.pnm.nextRun = s.pnm.nextRun + 1 ∧ v.pnm.stackList = s.pnm.stackList ∧
            (r.cid, r.stack, r.pseudo, r.mask, r.extent, r.instrs, r.rowList, r.phase) =
              (cid, stack, fieldAt k.raw 49 1, fieldAt k.raw 50 1, fieldAt k.raw 8 4, instrs, rows, .waiting) ∧
            v.cmd? cid = some { k with phase := .started } ∧ v.regs = s.regs ∧ v.counts = s.counts ∧ v.host = s.host ∧ v.win = s.win)))) ∧
    (∀ r, s.live = true → s.pnm.runs.find? n = some r →
      ((s.at t).canStart n r = true → ∃ (v : State) (x : RawRun), exec (.rawRunStart t n) s = .next v.settle ∧ v.pnm.runs = s.pnm.runs.set n x ∧
        x.phase = .running ∧ x.startAt = max s.now t ∧ x.segEnd = max s.now t + cycNs ((r.segs.head?.map fun g => g.2).getD 0) ∧
        x.units.map (fun e => e.1) = unitsOf r.mask ∧ v.qmg = s.qmg ∧ v.host = s.host ∧ v.win = s.win) ∧
      ((s.at t).canStart n r = false → exec (.rawRunStart t n) s = .next (s.at t).settle) ∧
      (∀ g, r.segs = [g] → r.phase = .running → r.segEnd ≤ max s.now t → r.aborting = false → ∃ (v : State) (x : RawRun),
        exec (.rawSegmentEnd t n []) s = .next v.settle ∧ v.pnm.runs.find? n = some x ∧ x.phase = .ended ∧ x.segs = [] ∧
          x.segsRun = r.segsRun + 1 ∧ x.cycles = r.cycles + g.2 ∧ x.cid = r.cid ∧ v.qmg = s.qmg ∧ v.host = s.host ∧ v.win = s.win) ∧
      (r.segs ≠ [] → max s.now t < r.segEnd → exec (.rawSegmentEnd t n []) s = .next (s.at t).settle) ∧
      (s.cmd? r.cid = some k → r.phase = .ended → exec (.rawRunEnd t n) s = .next (State.settle ((((s.at t).cmdWrite r.cid (cmdPtrC k.raw) 0
        (runHeader r 0 ++ r.entries.reverse.flatten)).bump (pgPnm r.stack) 0x070 |>.finish r.cid .ok (min r.emits r.maxEmits)).dropRun n))))) ∧
  (∀ (s : State) (r : RawRun) (unit : Nat) (u : UnitRegs) (x : Step),
    let w := x.ins
    let row := rowAddr r.pseudo unit (insA w) ((u.rows.getD (insA w) none).getD 0)
    (insOp w = 0x02 → s.unitStep r unit u x = (s, { u with rows := u.rows.set (insA w) (x.row r.rowList) })) ∧
    (insOp w = 0x03 → s.unitStep r unit u x = (s, { u with rows := u.rows.set (insA w) none })) ∧
    (insOp w = 0x04 → (s.unitStep r unit u x).1 = s ∧ ∀ i < 16 * insC w, (s.unitStep r unit u x).2.vElem (16 * insImm w + i) =
      leNat (Memory.readN s.tier.rawBytes (rawByteAt r.extent row (32 * insB w) + 2 * i) 2)) ∧
    (insOp w = 0x09 → (s.unitStep r unit u x).2 = u ∧ (∀ i < 16 * insImm w,
      leNat (Memory.readN (s.unitStep r unit u x).1.tier.rawBytes (rawByteAt r.extent row (32 * insB w) + 2 * i) 2) = u.qElem (8 * insC w + i) % 65536) ∧
      ∀ a, (a < rawByteAt r.extent row (32 * insB w) ∨ rawByteAt r.extent row (32 * insB w) + 32 * insImm w ≤ a →
      Memory.read (s.unitStep r unit u x).1.tier.rawBytes a = Memory.read s.tier.rawBytes a)) ∧
    (insOp w = 0x0A → (s.unitStep r unit u x).1 = s ∧ ∀ i < 8 * insB w, (s.unitStep r unit u x).2.qElem (8 * insA w + i) = u.vElem (insImm w + i)) ∧
    (insOp w ≠ 0x09 → (s.unitStep r unit u x).1 = s))

/-- Scratch rows, refreshes and units (06 R202, R211 to R214, R219, R228, R229). A scratch range is opened in the region table or refused beyond it; closing
it protects it at once; a due refresh sets the next due time on the same grid, later than now; a share of 0 completes the run that waits
BUSY; a unit's parity error disables it once and is sent; corrections over the limit are sent once. -/
def Obligations.NearBankBlocks : Prop :=
  ∀ (s : State) (t cid stack : Nat) (k : Cmd),
    (s.Submitted cid 0x28 k → fieldAt k.raw 48 1 = 1 → fieldAt k.raw 8 4 / 512 = stack →
      (scratchRange k = none → exec (.scratchOpen t cid) s = .next ((s.at t).finish cid .malformed).settle) ∧
      (∀ first rows, scratchRange k = some (first, rows) →
        (262144 < first + rows → exec (.scratchOpen t cid) s = .next ((s.at t).finish cid .denied).settle) ∧
        (first + rows ≤ 262144 → (∀ e ∈ (s.pnmStack stack).regions, e.2.1 ≠ fieldAt k.raw 8 4) → (s.pnmStack stack).regions.length < 256 →
          exec (.scratchOpen t cid) s = .next (State.settle ((((s.at t).setPnmStack stack { s.pnmStack stack with
            regions := Table.set (s.pnmStack stack).regions (((s.pnmStack stack).regions.lowestFree 0 256).getD 0) (fieldAt k.raw 8 4, first, rows) }).cmdWrite cid (cmdPtrC k.raw) 0
              (bareHeader 0 0)).finish cid .ok))))) ∧
    (∀ first rows, s.Submitted cid 0x28 k → fieldAt k.raw 48 1 = 2 → fieldAt k.raw 8 4 / 512 = stack → scratchRange k = some (first, rows) →
      first + rows ≤ 262144 → s.pnm.runs = [] → s.pnm.closing = [] → exec (.scratchClose t cid) s = .next (State.settle
        (((((s.at t).setPnmStack stack { s.pnmStack stack with regions := closeRange (s.pnmStack stack).regions (fieldAt k.raw 8 4) first rows }).setCmd cid
          { k with phase := .started }).cmdWrite cid (cmdPtrC k.raw) 0 (bareHeader 0 0)).finish cid .ok))) ∧
    (∀ pseudo, stack < 8 → pseudo < 64 → s.pnm.runs.any (fun e => e.2.phase == .running && e.2.stack == stack && e.2.pseudo == pseudo) = false →
      ((s.pnmStack stack).due pseudo ≤ max s.now t → ∃ due, max s.now t < due ∧ due ≤ max s.now t + 3900 ∧
        (∃ m, due = (s.pnmStack stack).due pseudo + 3900 * m) ∧ exec (.refresh t stack pseudo) s = .next (State.settle ((s.at t).setPnmStack stack
          { s.pnmStack stack with dueAt := (s.pnmStack stack).dueAt.set pseudo due }))) ∧
      (max s.now t < (s.pnmStack stack).due pseudo → exec (.refresh t stack pseudo) s = .next (s.at t).settle)) ∧
    (∀ val : Word, s.live = true → stack < 8 →
      let w := (s.at t).writeFields (pgPnm stack) 0x04C val.toNat
      ((w.reg (pgPnm stack) 0x04C ≠ 0 ∨ s.pnm.runs = []) → exec (.pnmRawShareWrite t 0 stack val) s = .next w.settle) ∧
      (∀ n r, w.reg (pgPnm stack) 0x04C = 0 → s.pnm.runs = [(n, r)] → r.stack = stack → r.phase = .waiting →
        exec (.pnmRawShareWrite t 0 stack val) s = .next ((w.runBusy r).dropRun n).settle)) ∧
    (∀ unit, s.live = true → stack < 8 → unit < 512 →
      (unit ∉ (s.pnmStack stack).disabled → exec (.unitParityError t stack unit) s = .next (State.settle
        (((s.at t).setPnmStack stack { s.pnmStack stack with disabled := (s.pnmStack stack).disabled ++ [unit] }).sendFault (pgPnm stack) .unitFailed unit))) ∧
      (unit ∈ (s.pnmStack stack).disabled → exec (.unitParityError t stack unit) s = .next (s.at t).settle) ∧
      (s.reg (pgPnm stack) 0x054 ≠ 0 → s.reg (pgPnm stack) 0x054 < (s.pnmStack stack).corrIn.getD unit 0 → exec (.innerCorrRate t stack unit) s =
        .next (State.settle (((s.at t).setPnmStack stack { s.pnmStack stack with corrIn := (s.pnmStack stack).corrIn.set unit 0 }).sendFault (pgPnm stack)
          .innerCorrRate unit))) ∧
      ((s.pnmStack stack).corrIn.getD unit 0 ≤ s.reg (pgPnm stack) 0x054 → exec (.innerCorrRate t stack unit) s = .next (s.at t).settle))

/-! ### The encoder -/

/-- Encode commands (08 R286, R295; 09 R320; 15 R502, R503). A handle that names no Score is DENIED; a count beyond the range, or an event
record out of range, is MALFORMED; an ENCODE whose events pass their checks and find pool extents waits with its events, pooled; a
drop of a sequence that no batch holds takes it out of the pool, and one whose sequence a batch holds waits; an ENCODE_SEARCH enters the
same way. -/
def Obligations.EncodeCommands : Prop :=
  ∀ (s : State) (t cid : Nat) (k : Cmd), s.live = true → s.cmd? cid = some k → (s.at t).encBehind cid k = false →
    let h := encHandle k
    (∀ reads, s.Submitted cid 0x03 k → s.accepts pgGth = true → encDrops k = false →
      (s.score? h = none → exec (.encode t cid reads) s = .next ((s.at t).finish cid .denied).settle) ∧
      ((s.score? h).isSome = true → 16777216 < encCount k → exec (.encode t cid reads) s = .next ((s.at t).finish cid .malformed).settle) ∧
      (∀ v es u, s.score? h = some v → 1 ≤ encCount k → encCount k ≤ 16777216 → (s.at t).eventsGo k (encCount k) (cmdPtrA k.raw) = some es →
        (s.at t).eventRefusal k h v (encCount k) es = none → (s.at t).growPool h (es.map fun e => fieldAt e.head 0 8) = (u, true) →
        ∃ (w : State) (c : EncCmd), exec (.encode t cid .allRead) s = .next w.settle ∧ w.enc.cmds.find? cid = some c ∧ c.score = h ∧
          c.since = max s.now t ∧ c.events.map (fun e => (e.cid, e.seq, e.pos, e.item)) =
            es.map (fun e => (cid, fieldAt e.head 0 8, fieldAt e.head 8 8, fieldAt e.head 16 8)) ∧
          w.cmd? cid = some { k with phase := .started } ∧ w.wlk = s.wlk ∧ w.host = s.host ∧ w.win = s.win) ∧
      (∀ v es u, s.score? h = some v → encCount k ≤ 16777216 → (s.at t).eventsGo k (encCount k) (cmdPtrA k.raw) = some es →
        (s.at t).eventRefusal k h v (encCount k) es = none → (s.at t).growPool h (es.map fun e => fieldAt e.head 0 8) = (u, false) →
        exec (.encode t cid reads) s = .next (u.finish cid .quota).settle)) ∧
    (∀ v, s.Submitted cid 0x03 k → encDrops k = true → encCount k = 0 → s.score? h = some v →
      (fieldAt k.raw 56 8 ∈ s.busySeqs h → exec (.encodeDropSequence t cid) s = .next (State.settle ((s.at t).setCmd cid { k with phase := .waiting }))) ∧
      (fieldAt k.raw 56 8 ∉ s.busySeqs h → v.pool.has (fieldAt k.raw 56 8) = false →
        exec (.encodeDropSequence t cid) s = .next ((s.at t).finish cid .notFound).settle) ∧
      (fieldAt k.raw 56 8 ∉ s.busySeqs h → v.pool.has (fieldAt k.raw 56 8) = true → exec (.encodeDropSequence t cid) s =
        .next (State.settle ((((s.at t).setScore h { v with pool := v.pool.erase (fieldAt k.raw 56 8) }).trimPool h).finish cid .ok)))) ∧
    (∀ reads, s.Submitted cid 0x04 k → s.accepts pgGth = true →
      (s.score? h = none → exec (.encodeSearch t cid reads) s = .next ((s.at t).refuseSearch cid .denied none).settle) ∧
      (∀ v es st, s.score? h = some v → (s.at t).eventsGo k 1 (cmdPtrA k.raw) = some es → ((s.at t).askedSearch k v es).refusal = some st → st ≠ .tooLong →
        exec (.encodeSearch t cid reads) s = .next ((s.at t).refuseSearch cid st none).settle) ∧
      (∀ v es u, s.score? h = some v → (s.at t).eventsGo k 1 (cmdPtrA k.raw) = some es → ((s.at t).askedSearch k v es).refusal = none →
        (s.at t).eventRefusal k h v 1 es = none → (s.at t).growPool h (es.map fun e => fieldAt e.head 0 8) = (u, true) →
        ∃ (w : State) (c : EncCmd), exec (.encodeSearch t cid .allRead) s = .next w.settle ∧ w.enc.cmds.find? cid = some c ∧ c.score = h ∧
          c.raw = ((s.at t).askedSearch k v es).raw ∧ c.events.map (fun e => (e.cid, e.seq, e.pos)) =
            es.map (fun e => (cid, fieldAt e.head 0 8, fieldAt e.head 8 8)) ∧
          w.cmd? cid = some { k with phase := .started } ∧ w.wlk = s.wlk ∧ w.host = s.host ∧ w.win = s.win))

/-- Batches (08 R281, R287, R288, R293, R300; 09 R315, R316, R322). A batch whose oldest event has waited its time closes; the oldest closed batch
that may run takes the lowest free cluster; slices stream one after another; a tile whose checksum is wrong is counted and read once more,
and abandons the batch the second time; a commit frees the cluster, counts the events, and completes a command whose last event it holds; an
array's parity error disables it once and is sent. -/
def Obligations.Batches : Prop :=
  ∀ (s : State) (t cluster : Nat), s.live = true → cluster < 4 →
    (∀ h, (s.forming h).closed = [] → let cur := (s.forming h).cur
      let since := (cur.map fun e => ((s.enc.cmds.find? e.cid).map fun c => c.since).getD (max s.now t)).foldl min (max s.now t)
      (cur ≠ [] → since + min 10000 (s.reg (pgEnc 0) 0x04C) * 1000 ≤ max s.now t → ∃ v : State, exec (.batchWaitExpiry t h) s = .next v.settle ∧
        v.enc.closed = s.enc.closed ++ [{ score := h, events := cur }] ∧ v.enc.running = s.enc.running ∧ v.qmg = s.qmg ∧ v.host = s.host ∧
        v.win = s.win)) ∧
    (∀ b rest v, (List.range 4).find? s.clusterFree = some cluster → s.enc.closed = b :: rest → s.score? b.score = some v →
      s.clustersOf b.score < imgMaxClusters v.image → exec (.batchStart t) s = .next (State.settle { s.at t with
        enc := { s.enc with closed := rest, running := s.enc.running.set cluster { b with startAt := max s.now t } } })) ∧
    ((List.range 4).find? s.clusterFree = none → exec (.batchStart t) s = .next (s.at t).settle) ∧
    (∀ b v, s.enc.running.find? cluster = some b → s.score? b.score = some v →
      (b.tile = none → b.slices < (imgSlices v.image).length → exec (.sliceStreamStart t cluster) s = .next (State.settle { s.at t with
        enc := { s.enc with running := s.enc.running.set cluster { b with tile := some 0 } } })) ∧
      (b.tile.isSome = true → exec (.sliceStreamStart t cluster) s = .next (s.at t).settle) ∧
      (∀ j bytes tile, b.tile = some j → ((imgSlices v.image).getD b.slices [])[j]? = some tile →
        (crc32c bytes = (tileDesc v.image tile).2.2 → j + 1 < ((imgSlices v.image).getD b.slices []).length →
          exec (.tileLanding t cluster bytes none) s = .next (State.settle { s.at t with
            enc := { s.enc with running := s.enc.running.set cluster { b with tile := some (j + 1), reread := false } } })) ∧
        (crc32c bytes = (tileDesc v.image tile).2.2 → ((imgSlices v.image).getD b.slices []).length ≤ j + 1 →
          exec (.tileLanding t cluster bytes none) s = .next (State.settle { s.at t with
            enc := { s.enc with running := s.enc.running.set cluster { b with tile := none, slices := b.slices + 1, reread := false } } })) ∧
        (crc32c bytes ≠ (tileDesc v.image tile).2.2 → b.reread = false → ∃ w : State, exec (.tileLanding t cluster bytes none) s = .next w.settle ∧
          w.enc = { s.enc with running := s.enc.running.set cluster { b with reread := true } } ∧
          w.count (pgEnc cluster) 0x060 = min 0xFFFFFFFF (s.count (pgEnc cluster) 0x060 + 1) ∧ w.flt = s.flt) ∧
        (crc32c bytes ≠ (tileDesc v.image tile).2.2 → b.reread = true → ∃ w : State, exec (.tileLanding t cluster bytes none) s = .next w.settle ∧
          w.enc.running.find? cluster = none ∧ ∃ m : FaultMsg, w.flt = { s.flt with inbox := s.flt.inbox ++ [m] } ∧ m.kind = 0x16)) ∧
      (b.tile = none → (imgSlices v.image).length ≤ b.slices → ∃ w : State, exec (.batchCommit t cluster []) s = .next w.settle ∧
        w.enc.running.find? cluster = none ∧ w.count (pgEnc cluster) 0x058 = (s.count (pgEnc cluster) 0x058 + b.events.length) % 2 ^ 64 ∧
        ∀ e c k, b.events = [e] → s.enc.cmds.find? e.cid = some c → c.events.length = e.index + 1 → s.cmd? e.cid = some k →
          cmdOpcode k.raw = 0x03 → w.cmd? e.cid = none ∧ w.enc.cmds.find? e.cid = none)) ∧
    (∀ array, array < 16 →
      ((cluster, array) ∉ s.enc.disabled → exec (.arrayParityError t cluster array) s = .next (State.settle
        (({ s.at t with enc := { s.enc with disabled := s.enc.disabled ++ [(cluster, array)] } }).sendFault (pgEnc cluster) .arrayFailed array))) ∧
      ((cluster, array) ∈ s.enc.disabled → exec (.arrayParityError t cluster array) s = .next (s.at t).settle))

/-- Scores (09 R308 to R310, R312 to R314, R323, R324; 08 R278). A load whose image passes every phase makes a Score under the next handle, charged to its
domain, and returns the handle; one whose signatures do not verify is DENIED with reason 10 and nothing stays of it; with Adopt the
predecessor closes and the load waits for it; an unload closes the Score; keys are registered and removed by their number; ENC_LCLEAR
clears a layer's counters and leaves its scale. -/
def Obligations.Scores : Prop :=
  ∀ (s : State) (t cid : Nat) (k : Cmd),
    (s.SubmittedAdmin cid 0x20 k → ∀ u1 u2 fs n,
      let d := fieldAt k.raw 8 2
      let im := (s.at t).cmdRead k (cmdPtrA k.raw) (cmdPtrC k.raw)
      let h := (n - 1) % 65535 + 1
      d < s.dom.fuses.maxDomains → (s.domain d).state = .active → headerRefusal ((s.at t).cmdRead k (cmdPtrA k.raw) 128) (cmdPtrC k.raw) = none →
      structureReason im = 0 → (s.at t).takeHeart d (heartCharge im) = (u1, true) → u1.takeTop d (topCharge im) = (u2, some fs) →
      u2.nextIssue = some n → s.enc.scores.length < 256 →
      let v : Score := { owner := d, image := im.take (fieldAt im 40 8), scales := u2.firstScales im, extents := heartCharge im, frames := fs }
      (bitOf (fieldAt k.raw 49 1) 0 = false → u2.signed im d = true → tilesMatch im = true → exec (.scoreLoad t cid false) s = .next (State.settle
        (({ u2 with enc := { u2.enc with scores := u2.enc.scores.set h v, issued := n } }.cmdWrite cid (cmdPtrB k.raw) 0
          (loadResult 0 h v.extents fs.length)).finish cid .ok))) ∧
      (bitOf (fieldAt k.raw 49 1) 0 = false → u2.boundKey im d = none → exec (.scoreLoad t cid false) s = .next (State.settle
        (((u2.giveHeart d (heartCharge im)).giveTop d fs).refuseLoad cid k .denied 10))) ∧
      (bitOf (fieldAt k.raw 49 1) 0 = true → u2.signed im d = true → tilesMatch im = true → u2.adoptRefusal d (fieldAt k.raw 50 2) im = none →
        ∃ w : State, exec (.scoreLoadAdopt t cid false) s = .next w.settle ∧ w.score? h = some { v with adopts := some (fieldAt k.raw 50 2) } ∧
          (w.score? (fieldAt k.raw 50 2)).map (·.isClosed) = some (some cid) ∧ w.cmd? cid = some { k with phase := .waiting } ∧
          w.host = s.host ∧ w.win = s.win)) ∧
    (s.SubmittedAdmin cid 0x21 k → fieldAt k.raw 8 2 < s.dom.fuses.maxDomains →
      (∀ v, s.openScore? (fieldAt k.raw 8 2) (fieldAt k.raw 50 2) = some v → exec (.scoreUnload t cid) s = .next (State.settle
        (((s.at t).setScore (fieldAt k.raw 50 2) { v with isClosed := some cid }).setCmd cid { k with phase := .waiting }))) ∧
      (s.openScore? (fieldAt k.raw 8 2) (fieldAt k.raw 50 2) = none → exec (.scoreUnload t cid) s = .next ((s.at t).finish cid .denied).settle)) ∧
    (s.SubmittedAdmin cid 0x80 k →
      let block := (s.at t).cmdRead k (cmdPtrA k.raw) 160
      let map := (s.at t).cmdRead k (cmdPtrB k.raw) 512
      (s.sec.keys.has (keyId k) = true → exec (.scoreKeyAdd t cid) s = .next ((s.at t).finish cid .busy).settle) ∧
      (s.sec.keys.has (keyId k) = false → s.sec.keys.length < 256 → keyId k ≠ 0xFFFFFFFF → keyBlockOk block = true →
        leNat map < 2 ^ s.dom.fuses.maxDomains → exec (.scoreKeyAdd t cid) s = .next (State.settle
          (({ s.at t with sec := { s.sec with keys := s.sec.keys.set (keyId k) { block := block, domains := map } } }).finish cid .ok)))) ∧
    (s.SubmittedAdmin cid 0x81 k →
      (s.sec.keys.has (keyId k) = true → exec (.scoreKeyRemove t cid) s = .next (State.settle
        (({ s.at t with sec := { s.sec with keys := s.sec.keys.erase (keyId k) } }).finish cid .ok))) ∧
      (s.sec.keys.has (keyId k) = false → exec (.scoreKeyRemove t cid) s = .next ((s.at t).finish cid .notFound).settle)) ∧
    (∀ cluster val x r, s.live = true → cluster < 4 → bitOf (BitVec.toNat (val : Word)) 0 = true →
      let h := bitsOf (s.reg (pgEnc 0) 0x080) 31 16
      let i := 2 * bitsOf (s.reg (pgEnc 0) 0x080) 9 0
      s.score? h = some x → x.scales.find? i = some r → ∃ (w : State) (y : Score), exec (.encLclear t 0 cluster val) s = .next w.settle ∧
        w.score? h = some y ∧ y.scales.find? i = some { eL := r.eL, hist := r.hist } ∧ y.pool = x.pool ∧ y.image = x.image ∧
        w.regs = s.regs ∧ w.qmg = s.qmg ∧ w.host = s.host ∧ w.win = s.win)

/-! ### Embedding tables and the Base tier -/

/-- Gathers and updates (10 R338, R339, R341, R342, R344 to R348, R351, R353). A gather of at most 64 indices whose checks pass writes a
header and every output vector's elements, and completes OK with the count of samples; a larger one waits for CST's unique values; a row whose
home copy cannot be read gives UNCORRECTED and no results. WRITE_ROWS writes one stored row; a gradient that is not finite leaves its
row; a finite one under SGD stores the row's values less the rate times the gradient; MIGRATE promotes or demotes one row, and so does GTH
by itself each interval. -/
def Obligations.GathersAndUpdates : Prop :=
  ∀ (s : State) (t cid : Nat) (k : Cmd), s.accepts pgGth = true →
    (s.Submitted cid 0x10 k →
      let h := (s.at t).cmdRead k (cmdPtrA k.raw) 16
      let n := fieldAt h 2 2
      let samples := fieldAt h 4 4
      let width := fieldAt h 8 2
      let bags := (List.range n).map fun j => (s.at t).bagAt k ((s.at t).cmdRead k (cmdPtrA k.raw + 16 + 32 * j) 32)
      let taken := (bags.map fun b => b.count).sum
      (∀ reads, fieldAt h 0 1 / 16 ≠ 1 → exec (.gather t cid reads) s = .next ((s.at t).finish cid .version).settle) ∧
      (∀ reads st, fieldAt h 0 1 / 16 = 1 → 1 ≤ n → n ≤ 4096 → (s.at t).bagRefusal k bags samples width = some st →
        exec (.gather t cid reads) s = .next ((s.at t).finish cid st).settle) ∧
      (fieldAt h 0 1 / 16 = 1 → 1 ≤ n → n ≤ 4096 → (s.at t).bagRefusal k bags samples width = none → 1 ≤ samples → samples ≤ 4096 →
        16 ≤ width → width ≤ 4096 →
        (taken ≤ 64 → ∃ (u : State) (header : List Byte), header.length = 32 ∧ exec (.gather t cid .allRead) s = .next ((u.cmdWrite cid (cmdPtrC k.raw) 0
          (header ++ ((List.range samples).flatMap fun i => u.poolSample k bags i width).flatMap fun x => (outElem (bitOf (fieldAt h 1 1) 0) x).1)).finish
            cid .ok samples).settle ∧ (∀ m, (u.tab? m).map (fun x => x.vers) = (s.tab? m).map (fun x => x.vers)) ∧ u.qmg = s.qmg ∧ u.host = s.host ∧ u.win = s.win) ∧
        (taken ≤ 64 → ∀ loc, ∃ u : State, exec (.gather t cid (.homeFailed loc)) s = .next (u.finish cid .uncorrected).settle ∧ u.qmg = s.qmg ∧ u.host = s.host) ∧
        (∀ reads, 64 < taken → s.cst.uniques.find? cid = none → exec (.gather t cid reads) s = .next (State.settle
          (({ s.at t with cst := { s.cst with uniques := s.cst.uniques.set cid ((s.at t).uniqueOf bags) } }).setCmd cid { k with phase := .started }))))) ∧
    (s.Submitted cid 0x11 k → s.updBehind cid k = false →
      let n := fieldAt k.raw 8 4
      let asked := fieldAt k.raw 12 4
      let i := leNat ((s.at t).cmdRead k (cmdPtrA k.raw) 8)
      ∀ x uid row, s.tab? n = some x → k.slotFor n asked = some uid → cmdPtrC k.raw = 1 → s.keyOf x i = some row →
      (fieldAt k.raw 48 1 = 0 → bitOf (s.reg pgGth 0x040) 0 = true → x.kind ≠ 2 → x.vers.has uid = true →
        ∃ (u : State) (y : Tab), exec (.writeRows t cid) s = .next (u.finish cid .ok 1).settle ∧ u.tab? n = some y ∧
          y.rowBytes uid row = (s.at t).cmdRead k (cmdPtrB k.raw) x.stride ∧ (∀ v r, ¬ (v = uid ∧ r = row) → y.rowBytes v r = x.rowBytes v r) ∧
          (∀ m, m ≠ n → u.tab? m = s.tab? m) ∧ u.count pgGth 0x07C = min 0xFFFFFFFF (s.count pgGth 0x07C + 1) ∧ u.qmg = s.qmg ∧ u.host = s.host ∧ u.win = s.win) ∧
      (fieldAt k.raw 48 1 = 0 → bitOf (s.reg pgGth 0x040) 0 = false → exec (.writeRows t cid) s = .next ((s.at t).finish cid .denied).settle) ∧
      (fieldAt k.raw 48 1 = 1 → bitOf (s.reg pgGth 0x040) 0 = true → x.kind ≠ 2 → fieldAt k.raw 49 1 = 0 → badRate k.raw 52 = false → bitOf (fieldAt k.raw 50 1) 0 = true →
        let g := (List.range x.elems).map fun e => Fl.ofBits fp32 (leNat ((s.at t).cmdRead k (cmdPtrB k.raw + 4 * e) 4))
        let lr := f32 (BitVec.ofNat 32 (fieldAt k.raw 52 4))
        let st := x.store (s.freeCtr + 1) (((x.values (x.rowBytes uid row)).zip g).map fun p => (p.1.sub ((lr.mul p.2).round fp32)).round fp32)
        (g.any (fun z => !z.isFinite) = true → exec (.applyGradients t cid) s = .next (State.settle
          (((((s.at t).bump pgGth 0x078).gthBad 4).countOor 0).finish cid .ok 1))) ∧
        (g.any (fun z => !z.isFinite) = false → x.adagrad = false → exec (.applyGradients t cid) s = .next (State.settle
          ((((((((s.at t).putRow (n, uid, row) (st.1 ++ zeroBytes (x.stride - st.1.length))).bump pgGth 0x07C).bump pgGth 0x084 st.2).when (0 < st.2)
            (fun z => z.gthBad 8))).countOor 0).finish cid .ok 1)))) ∧
      (fieldAt k.raw 48 1 = 4 → bitOf (fieldAt k.raw 50 1) 2 = true → (uid, row) ∉ x.hot → x.hot.length < x.hotRoom → exec (.migrate t cid []) s = .next (State.settle
        (((((s.at t).setTab n { x with dir := x.dir.set (uid * 2 ^ 32 + row) (wordOf (x.dir.getD (uid * 2 ^ 32 + row) 0) 2 2), hot := x.hot ++ [(uid, row)] }).bump
          pgGth 0x070).countOor 0).finish cid .ok 1))) ∧
      (fieldAt k.raw 48 1 = 4 → bitOf (fieldAt k.raw 50 1) 2 = false → ∀ fails, exec (.migrate t cid fails) s = .next (State.settle
        ((((s.at t).setTab n (x.demote (uid, row))).countOor 0).finish cid .ok 1)))) ∧
    (s.live = true → ∀ n x, s.tab? n = some x →
      (x.autoHot = true → x.kind ≠ 2 → bitOf (s.reg pgGth 0x040) 2 = true → x.autoAt + s.reg pgGth 0x04C * 1000 ≤ (s.at t).tapeTime →
        ∀ down, exec (.autoHotInterval t n [] down) s = .next (State.settle ((s.at t).setTab n
          ((down.map fun row => (x.current, row)).foldl Tab.demote { x with autoAt := (s.at t).tapeTime })))) ∧
      (x.autoHot = false → ∀ up down, exec (.autoHotInterval t n up down) s = .next (s.at t).settle))

/-- Tables and their versions (10 R326, R328, R330, R333 to R336, R356). A good descriptor makes a table charged to its owner; a destroy closes the
table at once, and when the last command that names it has completed its extents and frames return and the destroy completes; a version opened
takes the next slot, empty or a copy of the current one; the current version is never dropped, and a dropped one is named no more and leaves
the hot area; a switch waits for its turn and then makes its version current. -/
def Obligations.TablesAndVersions : Prop :=
  ∀ (s : State) (t cid : Nat) (k : Cmd),
    (s.SubmittedAdmin cid 0x28 k →
      let d := (s.at t).cmdRead k (cmdPtrA k.raw) 64
      let x := tabOf d
      let n := fieldAt d 36 4
      fieldAt d 0 1 / 16 = 1 →
      (s.tabOk d x = false → exec (.tableCreate t cid) s = .next ((s.at t).finish cid .malformed).settle) ∧
      (s.tabOk d x = true → (s.tab? n).isSome = true → exec (.tableCreate t cid) s = .next ((s.at t).finish cid .busy).settle) ∧
      (∀ u v fs ext, ext = (if x.kind = 2 then 0 else x.slots * ceilDiv x.rowCount (268435456 / x.stride)) → s.tabOk d x = true → s.tab? n = none →
        (s.domain x.owner).state = .active → (s.at t).takeHeart x.owner ext = (u, true) → u.takeTop x.owner (fieldAt d 34 1) = (v, some fs) →
        exec (.tableCreate t cid) s = .next (State.settle ((v.setTab n { x with extents := ext, frames := fs, autoAt := v.tapeTime }).finish cid .ok)))) ∧
    (s.SubmittedAdmin cid 0x29 k →
      let n := fieldAt k.raw 8 4
      (s.openTab? n = none → exec (.tableDestroy t cid) s = .next ((s.at t).finish cid .notFound).settle) ∧
      (∀ x, s.openTab? n = some x → (s.gth.tables.any fun e => e.2.kind == 2 && (e.2.accA == n || e.2.accB == n)) = true →
        exec (.tableDestroy t cid) s = .next ((s.at t).finish cid .busy).settle) ∧
      (∀ x, s.openTab? n = some x → (s.gth.tables.any fun e => e.2.kind == 2 && (e.2.accA == n || e.2.accB == n)) = false →
        exec (.tableDestroy t cid) s = .next (State.settle (((s.at t).setTab n { x with isClosed := some cid }).setCmd cid { k with phase := .waiting })))) ∧
    (∀ n x, s.live = true → s.tab? n = some x → x.isClosed = some cid → (s.qmg.cmds.any fun e => e.2.namesTab n) = false →
      ∃ u : State, exec (.objectDrained t .table n) s = .next (u.finish cid .ok).settle ∧ u.tab? n = none ∧ (∀ m, m ≠ n → u.tab? m = s.tab? m) ∧
        (u.domain x.owner).usedHeart = (s.domain x.owner).usedHeart - x.extents ∧ (u.domain x.owner).usedTop = (s.domain x.owner).usedTop - x.frames.length ∧
        u.qmg = s.qmg ∧ u.host = s.host ∧ u.win = s.win) ∧
    (s.Submitted cid 0x11 k → s.accepts pgGth = true → s.updBehind cid k = false →
      let n := fieldAt k.raw 8 4
      let num := fieldAt k.raw 12 4
      ∀ x, s.tab? n = some x → cmdPtrC k.raw = 0 →
      (fieldAt k.raw 48 1 = 2 → num ≠ currentVersion → (x.vers.any fun v => v.2.num == num && !v.2.dropped) = false → s.freeDropped n x = x →
        (x.slots ≤ x.vers.length → exec (.versionOpen t cid) s = .next ((s.at t).finish cid .quota).settle) ∧
        (x.vers.length < x.slots → exec (.versionOpen t cid) s = .next (State.settle (((s.at t).setTab n { x with nextVer := x.nextVer + 1, vers := x.vers.set x.nextVer { num := num, rows := if bitOf (fieldAt k.raw 50 1) 1 then ((x.vers.find? x.current).map fun v => v.rows).getD [] else [] } }).finish
              cid .ok)))) ∧
      (∀ e, fieldAt k.raw 48 1 = 3 → x.vers.wf = true → List.find? (fun v => v.2.num == num && !v.2.dropped) x.vers = some e →
        (e.1 = x.current → exec (.versionDrop t cid) s = .next ((s.at t).finish cid .busy).settle) ∧
        (e.1 ≠ x.current → ∃ (v : State) (y : Tab), exec (.versionDrop t cid) s = .next v.settle ∧ v.cmd? cid = none ∧ v.tab? n = some y ∧ y.current = x.current ∧
          (∀ z, y.vers.find? e.1 = some z → z.dropped = true) ∧ (∀ h ∈ y.hot, h.1 ≠ e.1) ∧ (∀ m, m ≠ n → v.tab? m = s.tab? m)))) ∧
    (s.Submitted cid 0x12 k → s.accepts pgGth = true → s.toSchedule k = false →
      let n := fieldAt k.raw 8 4
      let num := fieldAt k.raw 12 4
      (s.openTab? n = none → exec (.tableSwitch t cid) s = .next ((s.at t).finish cid .notFound).settle) ∧
      (∀ x e, s.openTab? n = some x → x.kind ≠ 2 → List.find? (fun v => v.2.num == num && !v.2.dropped) x.vers = some e →
        (e.1 = x.current → x.switchers = [] → exec (.tableSwitch t cid) s = .next ((s.at t).finish cid .ok).settle) ∧
        (e.1 ≠ x.current → exec (.tableSwitch t cid) s = .next (State.settle
          (((s.at t).setTab n { x with switchers := x.switchers ++ [cid] }).setCmd cid { k with phase := .waiting }))))) ∧
    (s.live = true → s.cmd? cid = some k → cmdOpcode k.raw = 0x12 → k.phase = .waiting → cid < 2 ^ 40 →
      let n := fieldAt k.raw 8 4
      let num := fieldAt k.raw 12 4
      ∀ x e, s.tab? n = some x → List.find? (fun v => v.2.num == num && !v.2.dropped) x.vers = some e →
        (x.switchers.head? = some cid → s.switchBlocked n e.1 cid = false → e.1 ≠ x.current → exec (.tableSwitchTakeEffect t cid) s = .next (State.settle
          ((((s.at t).setTab n { x with switchers := x.switchers.drop 1, cueTarget := x.cueTarget.erase cid, current := e.1 }).bump pgGth 0x080).finish cid .ok))) ∧
        ((x.switchers.head? ≠ some cid ∨ s.switchBlocked n e.1 cid = true) → exec (.tableSwitchTakeEffect t cid) s = .next (s.at t).settle))

/-- Base commands (13 R424, R426, R427, R429 to R431, R446, R447). A range that is wrong is refused; a part never written reads zeros at once, and a written
one is read from its page; a whole unit is programmed to the page that its stream gives; a write that finds no page waits, and after
BFT_STALL_MS completes MEDIA_EXHAUSTED, as does a write on an Exhausted tier, whose volume turns ReadOnly; a discarded range reads zeros or its
old bytes, and no other unit changes. -/
def Obligations.BaseCommands : Prop :=
  ∀ (s : State) (t cid : Nat) (k : Cmd), s.accepts pgBft = true → s.baseBehind cid k = false →
    let vol := baseVol k.raw
    let off := baseOff k.raw
    let len := baseLen k.raw
    let temp := fieldAt k.raw 56 1
    (∀ st, s.Submitted cid 0x18 k → s.baseRefusal k 64 = some st → exec (.baseRead t cid) s = .next ((s.at t).finish cid st).settle) ∧
    (∀ st, s.Submitted cid 0x19 k → s.baseRefusal k 4096 = some st → exec (.baseWrite t cid) s = .next ((s.at t).finish cid st).settle) ∧
    (∀ st, s.Submitted cid 0x1A k → s.baseRefusal k 16384 = some st → exec (.baseDiscard t cid) s = .next ((s.at t).finish cid st).settle) ∧
    (∀ q, s.Submitted cid 0x18 k → s.baseRefusal k 64 = none → off % 4096 + len ≤ 4096 → k.origin = .queue q → k.failed = 0 → k.aborting = false →
      s.bft.ops.any (fun e => e.2.task.cid? == some cid) = false → cmdPtrB k.raw = 0 →
      (s.bft.units.find? (unitKey vol (off / 16384)) = none → linkUp s = true → ∃ u : State, exec (.baseRead t cid) s = .next (u.finish cid .ok (k.done + 1)).settle ∧
        u.readBytes k.view (cmdPtrA k.raw) len = zeroBytes len ∧ u.bft = s.bft) ∧
      (∀ x, s.bft.units.find? (unitKey vol (off / 16384)) = some x → exec (.baseRead t cid) s = .next (State.settle
        (((s.at t).setCmd cid { k with phase := .started }).startOp (.read cid (off / 4096)) x.page)))) ∧
    (s.Submitted cid 0x19 k → s.baseRefusal k 4096 = none → (temp ≤ 1 ∨ temp = 0xFF) →
      (s.bft.exhausted = true → exec (.baseWrite t cid) s = .next (State.settle ((((s.at t).withBft fun f => { f with
        volumes := f.volumes.modify vol (fun v => { v with readOnly := true }), readOnlySeen := true }).finish cid .mediaExhausted).bump pgBft 0x090))) ∧
      (∀ u page, s.writeBarred vol = false → off % 16384 = 0 → len = 16384 → (s.at t).allotMany (streamOf temp) 1 = some (u, [page]) →
        exec (.baseWrite t cid) s = .next (State.settle (((u.withBft fun f => { f with waits := f.waits.erase cid, hostWr := f.hostWr + len }).setCmd cid
          { k with phase := .started }).startOp (.prog cid (unitKey vol (off / 16384)) (Memory.writeN [] 0 (u.cmdRead k (cmdPtrA k.raw) 16384))) page))) ∧
      (s.writeBarred vol = false → s.bft.stalled = false → (s.at t).allotMany (streamOf temp) (ceilDiv (off + len) 16384 - off / 16384) = none →
        exec (.baseWrite t cid) s = .next (State.settle ((((s.at t).bump pgBft 0x08C).withBft fun f => { f with
          stalled := true, waits := f.waits.set cid (f.waits.getD cid (max s.now t)) }).setCmd cid { k with phase := .waiting })))) ∧
    (∀ since, s.live = true → s.bft.waits.find? cid = some since →
      (since + s.reg pgBft 0x050 * 1000000 < max s.now t → exec (.writeStallExpiry t cid) s = .next (State.settle
        ((((s.at t).withBft fun f => { f with waits := f.waits.erase cid }).finish cid .mediaExhausted).bump pgBft 0x090))) ∧
      (max s.now t ≤ since + s.reg pgBft 0x050 * 1000000 → exec (.writeStallExpiry t cid) s = .next (s.at t).settle)) ∧
    (s.Submitted cid 0x1A k → s.baseRefusal k 16384 = none → s.writeBarred vol = false → cmdPtrB k.raw = 0 →
      ∃ u : State, exec (.baseDiscard t cid) s = .next (u.finish cid .ok (len / 4096)).settle ∧
        (∀ a, off ≤ a → a < off + len → u.volByte vol a = 0 ∨
          ∃ x, s.bft.units.find? (unitKey vol (a / 16384)) = some x ∧ u.volByte vol a = Memory.read x.data (a % 16384)) ∧
        (∀ key, (∀ i, off / 16384 ≤ i → i < (off + len) / 16384 → key ≠ unitKey vol i) → u.bft.units.find? key = s.bft.units.find? key) ∧
        u.qmg = s.qmg ∧ u.host = s.host ∧ u.win = s.win)

/-- The devices (13 R423, R431 to R433, R438 to R443, R449, R455). A read that ends well brings its part and counts it; an uncorrectable one is sent as
BaseUncorrectable; a program that ends well moves its unit's entry to the page, and a failed one moves none; a verified copy moves the
entry, and an unverified or overtaken one does not; an erase is counted, and so is one that fails; the third operation in a row that a LUN does
not answer takes it offline; patrol asks for a refresh of a block that needed stage 3; the tier's map is checkpointed, and its
temperatures are polled, when their time has come. -/
def Obligations.FlashOperations : Prop :=
  ∀ (s : State) (t op : Nat) (o : FlashOp), s.live = true → s.bft.ops.find? op = some o →
    (∀ cid p k x, o.task = .read cid p → s.busOpen (blockChan (pageBlock o.page)) = true → s.cmd? cid = some k →
      s.bft.units.find? (unitKey (baseVol k.raw) (p / 4)) = some x → x.lost = false → p % 4 ∉ x.bad → s.bft.victim = none → s.bft.victims = [] →
      128 ≤ s.bft.freeBlocks →
      let a := max (baseOff k.raw) (p * 4096)
      let n := min (baseOff k.raw + baseLen k.raw) (p * 4096 + 4096) - a
      let w := (((s.at t).endOp op).withBft fun f => { f with lunFails := f.lunFails.erase (pageBlock o.page / 65536) }).bump (pgFch (blockChan (pageBlock o.page))) 0x04C
      exec (.flashReadComplete t op .clean) s = .next (State.settle (((w.cmdWrite cid (cmdPtrA k.raw) (a - baseOff k.raw) (w.volBytes (baseVol k.raw) a n)).setCmd cid
        { k with done := k.done + 1 }).baseFinish cid)) ∧
      ∃ (v : State) (m : FaultMsg), exec (.flashReadComplete t op .uncorrectable) s = .next v.settle ∧ v.flt = { s.flt with inbox := s.flt.inbox ++ [m] } ∧
        m.kind = 0x20 ∧ m.w1 = baseVol k.raw % 2 ^ 32 ∧ m.w2 = p * 4096 % 2 ^ 32) ∧
    (s.busOpen (blockChan (pageBlock o.page)) = false → ∀ r, exec (.flashReadComplete t op r) s = .next (s.at t).settle) ∧
    (∀ cid key data, o.task = .prog cid key data → o.page ≠ noPage →
      (∃ v : State, exec (.flashProgramComplete t op true) s = .next v.settle ∧ (v.bft.units.find? key).map (fun x => (x.page, x.data)) = some (o.page, data) ∧
        (∀ j, j ≠ key → v.bft.units.find? j = s.bft.units.find? j) ∧ v.wlk = s.wlk ∧ v.gth = s.gth) ∧
      (∃ v : State, exec (.flashProgramComplete t op false) s = .next v.settle ∧ v.bft.units = s.bft.units ∧ v.bft.progFail = s.bft.progFail + 1 ∧
        v.qmg = s.qmg ∧ v.host = s.host ∧ v.win = s.win)) ∧
    (∀ key src x, o.task = .check key src → s.bft.units.find? key = some x →
      (x.page = src → ∃ v : State, exec (.gcCopyComplete t op true) s = .next v.settle ∧ v.bft.units.find? key = some { x with page := o.page } ∧
        (∀ j, j ≠ key → v.bft.units.find? j = s.bft.units.find? j) ∧ v.qmg = s.qmg ∧ v.host = s.host ∧ v.win = s.win) ∧
      (∀ verified, x.page ≠ src ∨ verified = false → ∃ v : State, exec (.gcCopyComplete t op verified) s = .next v.settle ∧ v.bft.units = s.bft.units ∧
        v.qmg = s.qmg ∧ v.host = s.host ∧ v.win = s.win)) ∧
    (o.task = .erase → pageBlock o.page / 65536 < 512 →
      (∃ v : State, exec (.flashEraseComplete t op true) s = .next v.settle ∧ (v.blk (pageBlock o.page)).erases = (s.blk (pageBlock o.page)).erases + 1 ∧
        v.count (pgFch (blockChan (pageBlock o.page))) 0x054 = min 0xFFFFFFFF (s.count (pgFch (blockChan (pageBlock o.page))) 0x054 + 1) ∧
        v.bft.units = s.bft.units ∧ v.qmg = s.qmg ∧ v.host = s.host ∧ v.win = s.win) ∧
      (∃ v : State, exec (.flashEraseComplete t op false) s = .next v.settle ∧ v.bft.eraseFail = s.bft.eraseFail + 1 ∧ v.bft.units = s.bft.units ∧
        v.qmg = s.qmg ∧ v.host = s.host ∧ v.win = s.win)) ∧
    (o.page ≠ noPage → pageBlock o.page / 65536 < 512 → ∃ v : State, exec (.lunTimeout t op) s = .next v.settle ∧
      v.count (pgFch (pageBlock o.page / 65536 / 16)) 0x05C = min 0xFFFFFFFF (s.count (pgFch (pageBlock o.page / 65536 / 16)) 0x05C + 1) ∧
      v.bft.luns = (if 3 ≤ s.bft.lunFails.getD (pageBlock o.page / 65536) 0 + 1 then s.bft.luns.erase (pageBlock o.page / 65536) else s.bft.luns) ∧
      v.bft.lunFailures = s.bft.lunFailures + (if 3 ≤ s.bft.lunFails.getD (pageBlock o.page / 65536) 0 + 1 then 1 else 0)) ∧
    (∀ b weak stage3, ((bitOf (s.reg pgBft 0x040) 3 = false ∨ (s.blk b).use ≠ .closed) → exec (.basePatrol t b weak stage3) s = .next (s.at t).settle) ∧
      (bitOf (s.reg pgBft 0x040) 3 = true → (s.blk b).use = .closed → bitOf (s.reg pgBft 0x040) 2 = true → b ∉ s.bft.victims → s.bft.victim ≠ some b →
        ∃ v : State, exec (.basePatrol t b weak true) s = .next v.settle ∧ v.bft.refreshes = s.bft.refreshes + 1 ∧ v.bft.units = s.bft.units ∧
          v.qmg = s.qmg ∧ v.host = s.host ∧ v.win = s.win)) ∧
    (bitOf (s.reg pgBft 0x040) 0 = true → s.bft.ftlAt + s.reg pgBft 0x04C * 1000000000 ≤ max s.now t → exec (.ftlCheckpoint t) s = .next (State.settle
      ((s.at t).withBft fun f => { f with ftlAt := max s.now t, ftlHalf := 1 - f.ftlHalf, ftlSeq := f.ftlSeq.set f.ftlHalf (some f.seq) }))) ∧
    (max s.now t < s.bft.ftlAt + s.reg pgBft 0x04C * 1000000000 → exec (.ftlCheckpoint t) s = .next (s.at t).settle) ∧
    (bitOf (s.reg pgBft 0x040) 1 = true → s.bft.tempAt + 60000000000 ≤ max s.now t → ∀ temps : List Int, ∃ v : State,
      exec (.deviceTempPoll t temps) s = .next v.settle ∧ v = { s.at t with bft := v.bft } ∧ v.bft.tempAt = max s.now t ∧ (temps = [] → v.bft.tempNow = none) ∧
      (∀ x ∈ temps, ∃ y, v.bft.tempNow = some y ∧ x ≤ y ∧ y ∈ temps) ∧ v.bft.units = s.bft.units ∧ v.bft.blocks = s.bft.blocks) ∧
    (max s.now t < s.bft.tempAt + 60000000000 → ∀ temps, exec (.deviceTempPoll t temps) s = .next (s.at t).settle)

/-- Volumes and the health page (13 R422, R446, R455). A new volume is charged to its owner; a number in use is BUSY; a destroyed volume closes at
once, and when the last command that names it has completed its units are gone; VOLUME_RW ends ReadOnly while spare is left; the health page is
256 bytes. -/
def Obligations.VolumesAndHealth : Prop :=
  ∀ (s : State) (t cid : Nat) (k : Cmd),
    let d := fieldAt k.raw 8 2
    let n := fieldAt k.raw 12 4
    let gib := fieldAt k.raw 52 4
    (s.SubmittedAdmin cid 0x40 k →
      ((16384 ≤ n ∨ s.dom.fuses.maxDomains ≤ d ∨ gib = 0) → exec (.volumeCreate t cid) s = .next ((s.at t).finish cid .malformed).settle) ∧
      (n < 16384 → d < s.dom.fuses.maxDomains → gib ≠ 0 → s.bft.volumes.has n = true → exec (.volumeCreate t cid) s = .next ((s.at t).finish cid .busy).settle) ∧
      (n < 16384 → d < s.dom.fuses.maxDomains → gib ≠ 0 → s.bft.volumes.has n = false → (s.domain d).state = .active →
        (s.domain d).usedBase + gib ≤ (s.domain d).quotaBase → (s.bft.volumes.map fun e => e.2.gib).sum + gib ≤ s.bft.allocatable →
        exec (.volumeCreate t cid) s = .next (State.settle ((({ s.at t with bft := { s.bft with volumes := s.bft.volumes.set n { owner := d, gib := gib } } }).setDomain d
          { s.domain d with usedBase := (s.domain d).usedBase + gib }).finish cid .ok)))) ∧
    (∀ v, s.SubmittedAdmin cid 0x41 k → s.openVolume? n = some v → exec (.volumeDestroy t cid) s = .next (State.settle
      (({ s.at t with bft := { s.bft with volumes := s.bft.volumes.set n { v with isClosed := some cid } } }).setCmd cid { k with phase := .waiting }))) ∧
    (s.SubmittedAdmin cid 0x41 k → s.openVolume? n = none → exec (.volumeDestroy t cid) s = .next ((s.at t).finish cid .notFound).settle) ∧
    (∀ v, s.SubmittedAdmin cid 0x42 k → s.openVolume? n = some v →
      (s.bft.spareBlocks ≠ 0 → exec (.volumeRw t cid) s = .next (State.settle
        (({ s.at t with bft := { s.bft with volumes := s.bft.volumes.set n { v with readOnly := false } } }).finish cid .ok))) ∧
      (s.bft.spareBlocks = 0 → exec (.volumeRw t cid) s = .next (State.settle (((s.at t).finish cid .mediaExhausted).bump pgBft 0x090)))) ∧
    (s.SubmittedAdmin cid 0x44 k → s.bft.health.length = 256 ∧
      exec (.healthRead t cid) s = .next (State.settle (((s.at t).cmdWrite cid (cmdPtrA k.raw) 0 s.bft.health).finish cid .ok))) ∧
    (∀ m v, s.live = true → s.bft.volumes.find? m = some v → v.isClosed = some cid → (s.qmg.cmds.any fun e => e.2.namesVolume m) = false →
      ∃ u : State, exec (.objectDrained t .volume m) s = .next (u.finish cid .ok).settle ∧ u.bft.volumes.find? m = none ∧
        (∀ j, j ≠ m → u.bft.volumes.find? j = s.bft.volumes.find? j) ∧
        (∀ key, u.bft.units.find? key = if key / 2 ^ 32 = m then none else s.bft.units.find? key) ∧
        (v.charged = true → (u.domain v.owner).usedBase = (s.domain v.owner).usedBase - v.gib) ∧ u.qmg = s.qmg ∧ u.host = s.host ∧ u.win = s.win)

/-! ### Security -/

/-- SPDM (21 R671 to R673, R676). A request on a path that does not answer changes only the time; one out of order is answered with an error; GET_VERSION starts the
connection afresh and each later step of the negotiation adds its own; a session is opened by KEY_EXCHANGE, finished by FINISH, and gone at END_SESSION;
what was signed last is kept for its transport and session. Each is answered, and nothing but SEC's own state changes. -/
def Obligations.SpdmRequests : Prop :=
  ∀ (s : State) (t : Nat) (r : SpdmRequest), s.live = true →
    (s.spdmOpen r = false → ∀ i, i ∈ [Instr.getVersion t r, .getCapabilities t r, .negotiateAlgorithms t r, .getDigests t r, .getCertificate t r, .challenge t r,
      .getMeasurements t r, .keyExchange t r, .finish t r, .heartbeat t r, .keyUpdate t r, .endSession t r, .chunkTransfer t r, .vendorDefinedRequest t r] →
      exec i s = .next (s.at t).settle) ∧
    (s.spdmOpen r = true →
      (r.session = none → exec (.getVersion t r) s = .next (State.settle (((s.at t).setConn' r.path { version := true }).answer r .version))) ∧
      (r.session = none → (s.conn' r.path).version = true → exec (.getCapabilities t r) s = .next (State.settle
        (((s.at t).setConn' r.path { s.conn' r.path with caps := true }).answer r .capabilities))) ∧
      (r.session = none → (s.conn' r.path).caps = true → exec (.negotiateAlgorithms t r) s = .next (State.settle
        (((s.at t).setConn' r.path { s.conn' r.path with algs := true }).answer r .algorithms))) ∧
      (s.negotiated r = false → ∀ i, i ∈ [Instr.getDigests t r, .getCertificate t r, .challenge t r, .getMeasurements t r, .keyExchange t r, .chunkTransfer t r,
        .vendorDefinedRequest t r] → exec i s = .next ((s.at t).answer r .error).settle) ∧
      (s.negotiated r = true →
        exec (.getDigests t r) s = .next ((s.at t).answer r .digests).settle ∧
        (slot0 r = true → exec (.getCertificate t r) s = .next ((s.at t).answer r .certificate).settle ∧
          exec (.challenge t r) s = .next (State.settle (({ s.at t with sec := { s.sec with lastSigned := s.sec.lastSigned.set (signKey r) (s.freeCtr + 1) } }).answer r
            (.challengeAuth (s.freeCtr + 1))))) ∧
        (bitOf (fieldAt r.bytes 2 1) 0 = true → exec (.getMeasurements t r) s = .next (State.settle (({ s.at t with sec := { s.sec with
          lastSigned := s.sec.lastSigned.set (signKey r) (s.freeCtr + 1) } }).answer r (.measurements s.measureEntries (some (s.freeCtr + 1)))))) ∧
        (bitOf (fieldAt r.bytes 2 1) 0 = false → exec (.getMeasurements t r) s = .next ((s.at t).answer r (.measurements s.measureEntries none)).settle) ∧
        (r.session = none → s.sec.sessions.length < 4 → exec (.keyExchange t r) s = .next (State.settle (({ s.at t with sec := { s.sec with
          sessions := s.sec.sessions.set s.sec.nextSession { path := r.path }, nextSession := s.sec.nextSession + 1 } }).answer r (.keyExchange s.sec.nextSession)))) ∧
        (4 ≤ s.sec.sessions.length → exec (.keyExchange t r) s = .next ((s.at t).answer r .error).settle) ∧
        (fieldAt r.bytes 8 4 ≤ 4096 → exec (.chunkTransfer t r) s = .next (State.settle (((s.at t).setConn' r.path { s.conn' r.path with
          large := if bitOf (fieldAt r.bytes 2 1) 0 then [] else (s.conn' r.path).large ++ bytesAt r.bytes 12 (fieldAt r.bytes 8 4) }).answer r .chunkAck)))) ∧
      (∀ n x, r.session = some n → s.sec.sessions.find? n = some x → x.path = r.path →
        (x.finished = false → exec (.finish t r) s = .next (State.settle (({ s.at t with sec := { s.sec with
          sessions := s.sec.sessions.set n { x with finished := true } } }).answer r .finished))) ∧
        (x.finished = true → exec (.heartbeat t r) s = .next ((s.at t).answer r .heartbeatAck).settle ∧
          exec (.keyUpdate t r) s = .next ((s.at t).answer r .keyUpdateAck).settle ∧
          ∃ v : State, exec (.endSession t r) s = .next v.settle ∧ v = { (s.at t).answer r .endSessionAck with sec := v.sec } ∧ v.sec.sessions.find? n = none ∧
            (∀ m, m ≠ n → v.sec.sessions.find? m = s.sec.sessions.find? m) ∧ v.sec.keys = s.sec.keys ∧ v.sec.images = s.sec.images)))

/-- Images, measurements and countersignatures (21 R662, R666, R667, R671, R672; 22 R687, R692). An image that passes every check is kept for its Kind and
clears FailedStarts; one that fails any is MALFORMED. The measurement blocks are seven entries of 64 bytes. A countersignature takes
leaf N while N is below E; at E it waits for a commit of E + 1,024; a commit that fails is counted and its requests receive NotAvailable, as does
a request before the trees are ready; one with nothing signed before receives NoPriorSignature. -/
def Obligations.ImagesAndCountersignatures : Prop :=
  ∀ (s : State) (t cid : Nat) (k : Cmd),
    (s.SubmittedAdmin cid 0x96 k →
      let im := (s.at t).cmdRead k (cmdPtrA k.raw) (fieldAt k.raw 52 4)
      let kind := imageKind im
      ((s.imageReason im kind ≠ 0 ∨ s.sec.regions.getD kind 0 < im.length) → exec (.imageWrite t cid) s = .next ((s.at t).finish cid .malformed).settle) ∧
      (s.imageReason im kind = 0 → im.length ≤ s.sec.regions.getD kind 0 → ¬ (kind = 4 ∧ s.sec.recovery = true) → exec (.imageWrite t cid) s = .next (State.settle
        (({ s.at t with sec := { s.sec with images := s.sec.images.set kind im }, cal := { s.cal with failedStarts := 0 } }).finish cid .ok)))) ∧
    (s.SubmittedAdmin cid 0x82 k → s.measureEntries.flatten.length = 448 ∧ exec (.measureRead t cid) s = .next (State.settle
      (((s.at t).cmdWrite cid (cmdPtrA k.raw) 0 s.measureEntries.flatten).finish cid .ok))) ∧
    (s.live = true → exec (.lmsTreesReady t) s = .next (State.settle { s.at t with sec := { s.sec with lmsReady := true } })) ∧
    (∀ r : SpdmRequest, s.live = true → s.spdmOpen r = true → s.negotiated r = true → isCountersign r = true →
      (s.sec.lastSigned.find? (signKey r) = none → exec (.vendorDefinedRequest t r) s = .next (State.settle ((s.at t).answer r (.vendor (vendorPayload 2 0 []))))) ∧
      (∀ input, s.sec.lastSigned.find? (signKey r) = some input →
        (s.lmsAvailable = false → exec (.vendorDefinedRequest t r) s = .next (State.settle ((s.at t).answer r (.vendor (vendorPayload 1 0 []))))) ∧
        (s.lmsAvailable = true → s.sec.lmsWait = [] → s.sec.lmsCommitting = false →
          (s.sec.lmsNext < s.sec.lmsEnd → ∃ v : State, exec (.vendorDefinedRequest t r) s = .next v.settle ∧ v.sec = { s.sec with lmsNext := s.sec.lmsNext + 1 } ∧
            v.count pgSec 0x06C = min 0xFFFFFFFF (s.count pgSec 0x06C + 1) ∧
            v.outbox = .spdm r.path r.session (.vendor (vendorPayload 0 s.sec.lmsNext (Config.hssSignature s.sec.lmsNext input))) :: s.outbox ∧
            v.bft = s.bft ∧ v.qmg = s.qmg ∧ v.host = s.host ∧ v.win = s.win) ∧
          (s.sec.lmsEnd ≤ s.sec.lmsNext → ∃ v : State, exec (.vendorDefinedRequest t r) s = .next v.settle ∧
            v.sec = { s.sec with lmsWait := [r], lmsCommitting := true } ∧ v.outbox = s.outbox ∧ v.qmg = s.qmg ∧ v.host = s.host ∧ v.win = s.win)))) ∧
    (s.live = true →
      (s.sec.lmsCommitting = false → ∀ ok, exec (.lmsCommit t ok) s = .next (s.at t).settle) ∧
      (s.sec.lmsCommitting = true →
        (∃ v : State, exec (.lmsCommit t false) s = .next v.settle ∧ v.sec = { s.sec with lmsCommitting := false, lmsWait := [] } ∧
          v.count pgSec 0x068 = min 0xFFFFFFFF (s.count pgSec 0x068 + 1) ∧ bitOf (v.reg pgSec 0x044) 2 = true ∧ v.bft = s.bft ∧
          ∀ r ∈ s.sec.lmsWait, .spdm r.path r.session (.vendor (vendorPayload 1 0 [])) ∈ v.outbox) ∧
        (s.sec.lmsWait = [] → exec (.lmsCommit t true) s = .next (State.settle { s.at t with
          sec := { s.sec with lmsCommitting := false, lmsEnd := s.sec.lmsEnd + 1024 }, bft := { s.bft with lmsRec := some (natLE 8 (s.sec.lmsEnd + 1024)) } })) ∧
        (∀ r input, s.sec.lmsWait = [r] → s.sec.lastSigned.find? (signKey r) = some input → s.lmsAvailable = true → s.sec.lmsNext = s.sec.lmsEnd →
          ∃ v : State, exec (.lmsCommit t true) s = .next v.settle ∧ v.sec.lmsEnd = s.sec.lmsEnd + 1024 ∧ v.sec.lmsNext = s.sec.lmsEnd + 1 ∧
            v.bft.lmsRec = some (natLE 8 (s.sec.lmsEnd + 1024)) ∧
            v.outbox = .spdm r.path r.session (.vendor (vendorPayload 0 s.sec.lmsEnd (Config.hssSignature s.sec.lmsEnd input))) :: s.outbox)))

/-! ### Calibration, tests and maintenance -/

/-- The calibration set and maintenance (22 R690 to R693, R699). CAL_READ writes the set in force; CAL_LOAD of a whole set of this device puts it in force, of
another device is DENIED, and of a broken one is MALFORMED; CAL_SAVE commits the set, or completes MEDIA_ERROR and leaves the stored one; maintenance
begins at once, its command completes when the other domains' earlier work has, and MAINT_EXIT ends it. -/
def Obligations.CalibrationSet : Prop :=
  ∀ (s : State) (t cid : Nat) (k : Cmd),
    (s.SubmittedAdmin cid 0x93 k → exec (.calRead t cid) s = .next (State.settle (((s.at t).cmdWrite cid (cmdPtrA k.raw) 0 s.readSet).finish cid .ok))) ∧
    (s.SubmittedAdmin cid 0x94 k →
      let set := (s.at t).cmdRead k (cmdPtrA k.raw) (min (fieldAt ((s.at t).cmdRead k (cmdPtrA k.raw) 64) 4 4) 1048576)
      (setWhole set = false → exec (.calLoad t cid) s = .next ((s.at t).finish cid .malformed).settle) ∧
      (setWhole set = true → setTag set ≠ Config.deviceTag.toNat → exec (.calLoad t cid) s = .next ((s.at t).finish cid .denied).settle) ∧
      (setWhole set = true → setTag set = Config.deviceTag.toNat → exec (.calLoad t cid) s = .next (State.settle
        (({ s.at t with cal := { s.cal with inForce := set, defaults := false } }).finish cid .ok)))) ∧
    (s.SubmittedAdmin cid 0x95 k →
      let seeds := seedList s.readSet (min 64 (fieldAt s.readSet 20 4)) (fieldAt s.readSet 36 4)
      (bitOf (fieldAt k.raw 49 1) 0 = false → exec (.calSave t cid true) s = .next (State.settle
        (({ s.at t with bft := { s.bft with calRec := some (relaid s.readSet seeds), seq := s.bft.seq + 1 } }).finish cid .ok))) ∧
      (bitOf (fieldAt k.raw 49 1) 0 = false → exec (.calSave t cid false) s = .next ((s.at t).finish cid .mediaError).settle) ∧
      (∀ commits, bitOf (fieldAt k.raw 49 1) 0 = true → s.score? (fieldAt k.raw 50 2) = none →
        exec (.calSave t cid commits) s = .next ((s.at t).finish cid .notFound).settle) ∧
      (∀ v more, bitOf (fieldAt k.raw 49 1) 0 = true → s.score? (fieldAt k.raw 50 2) = some v → withSeed seeds (scoreSeed v) = some more →
        exec (.calSave t cid true) s = .next (State.settle
          (({ s.at t with bft := { s.bft with calRec := some (relaid s.readSet more), seq := s.bft.seq + 1 } }).finish cid .ok)))) ∧
    (s.SubmittedAdmin cid 0x91 k →
      let others := s.qmg.cmds.any fun e => decide (e.1 < cid) && e.2.domain != 0 && (s.cueHolding e.1).isNone
      (others = false → exec (.maintEnter t cid) s = .next (State.settle (({ s.at t with cal := { s.cal with maintenance := true } }).finish cid .ok))) ∧
      (others = true → exec (.maintEnter t cid) s = .next (State.settle
        (({ s.at t with cal := { s.cal with maintenance := true } }).setCmd cid { k with phase := .waiting })))) ∧
    (s.SubmittedAdmin cid 0x92 k → exec (.maintExit t cid) s = .next (State.settle
      (({ s.at t with cal := { s.cal with maintenance := false } }).finish cid .ok)))

/-- Rehearsal windows and tests (22 R694 to R698). A test of a target that does not exist is MALFORMED; without the Immediate flag it waits for a cue's window; a
window on a free target opens for its length and serves its command; a destructive test is BUSY outside maintenance, and inside runs whole; at a
window's end the new value is in force where the training passed, the window is gone, and its command completes. -/
def Obligations.RehearsalWindows : Prop :=
  ∀ (s : State) (t cid : Nat) (k : Cmd),
    let n := fieldAt k.raw 8 2
    let len := fieldAt k.raw 52 2
    let w : Window := { ends := max s.now t + len * 1000, sweep := false, swapped := false, serves := [cid] }
    (∀ e, s.Submitted cid 0x31 k →
      (targetOf n = none →
        (fieldAt k.raw 48 1 = 0 → exec (.laneBist t cid) s = .next ((s.at t).finish cid .malformed).settle) ∧
        (fieldAt k.raw 48 1 = 1 → exec (.heartSweep t cid) s = .next ((s.at t).finish cid .malformed).settle) ∧
        (fieldAt k.raw 48 1 = 2 → exec (.heartMarch t cid e) s = .next ((s.at t).finish cid .malformed).settle) ∧
        (fieldAt k.raw 48 1 = 3 → exec (.portLoopback t cid e) s = .next ((s.at t).finish cid .malformed).settle)) ∧
      (∀ p l, targetOf n = some (.lane p l) → fieldAt k.raw 48 1 = 0 → 1 ≤ len → len ≤ 50 →
        (bitOf (cmdFlags k.raw) 0 = false → exec (.laneBist t cid) s = .next (State.settle ((s.at t).setCmd cid { k with phase := .waiting, detail := 0 }))) ∧
        (bitOf (cmdFlags k.raw) 0 = true → s.targetBusy (.lane p l) = true → exec (.laneBist t cid) s = .next ((s.at t).finishTest cid k .busy 0 0).settle) ∧
        (bitOf (cmdFlags k.raw) 0 = true → s.targetBusy (.lane p l) = false → (s.port p).understudy = some l → exec (.laneBist t cid) s = .next (State.settle
          ({ s.at t with cal := { s.cal with windows := s.cal.windows.set n { w with sweep := true } } }.setCmd cid { k with phase := .started })))) ∧
      (∀ i c, targetOf n = some (.pseudo i c) → fieldAt k.raw 48 1 = 1 → 1 ≤ len → len ≤ 50 → bitOf (cmdFlags k.raw) 0 = true → s.targetBusy (.pseudo i c) = false →
        exec (.heartSweep t cid) s = .next (State.settle
          ({ s.at t with cal := { s.cal with windows := s.cal.windows.set n { w with sweep := true } } }.setCmd cid { k with phase := .started }))) ∧
      (∀ i c, targetOf n = some (.pseudo i c) → fieldAt k.raw 48 1 = 2 →
        (s.cal.maintenance = false → exec (.heartMarch t cid e) s = .next ((s.at t).finishTest cid k .busy 0 0).settle) ∧
        (s.cal.maintenance = true → bitOf (cmdFlags k.raw) 0 = true → s.cal.windows.has n = false → s.windowIn (0x1000 + 64 * i) (0x1040 + 64 * i) = false →
          exec (.heartMarch t cid e) s = .next (((s.at t).march i c).finishTest cid k .ok e 0).settle)) ∧
      (∀ p, targetOf n = some (.lane p 0) → fieldAt k.raw 48 1 = 3 →
        (s.cal.maintenance = false → exec (.portLoopback t cid e) s = .next ((s.at t).finishTest cid k .busy 0 0).settle) ∧
        (s.cal.maintenance = true → bitOf (cmdFlags k.raw) 0 = true → s.cal.windows.has n = false → (s.port p).up = true →
          exec (.portLoopback t cid e) s = .next (((s.at t).portFall p).finishTest cid k .ok e 0).settle))) ∧
    (s.Submitted cid 0x30 k →
      (targetOf n = none → exec (.calibrate t cid) s = .next ((s.at t).finish cid .malformed).settle) ∧
      (∀ x, targetOf n = some x → (len = 0 ∨ 50 < len) → exec (.calibrate t cid) s = .next ((s.at t).finish cid .malformed).settle) ∧
      (∀ x, targetOf n = some x → 1 ≤ len → len ≤ 50 →
        (bitOf (cmdFlags k.raw) 0 = false → exec (.calibrate t cid) s = .next (State.settle ((s.at t).setCmd cid { k with phase := .waiting, detail := 0 }))) ∧
        (bitOf (cmdFlags k.raw) 0 = true → s.targetBusy x = true → exec (.calibrate t cid) s = .next ((s.at t).finishTest cid k .busy 0 0).settle) ∧
        (bitOf (cmdFlags k.raw) 0 = true → s.targetBusy x = false → x.isLane = false → exec (.calibrate t cid) s = .next (State.settle
          ({ s.at t with cal := { s.cal with windows := s.cal.windows.set n w } }.setCmd cid { k with phase := .started }))))) ∧
    (∀ m r, s.live = true → s.cal.windows.find? m = none → exec (.rehearsalWindowEnd t m r) s = .next (s.at t).settle) ∧
    (∀ m i c r (x : Window), s.live = true → s.cal.windows.find? m = some x → targetOf m = some (.pseudo i c) → x.sweep = false → x.serves = [cid] →
      s.cmd? cid = some k → cmdOpcode k.raw = 0x30 → ∃ v : State, exec (.rehearsalWindowEnd t m r) s = .next v.settle ∧ v.cal.windows.find? m = none ∧
        (∀ j, j ≠ m → v.cal.windows.find? j = s.cal.windows.find? j) ∧ v.cmd? cid = none ∧
        v.cal.current.find? m = (if r.trained then some r.newValue else s.cal.current.find? m) ∧
        v.count pgCal 0x064 = min 0xFFFFFFFF (s.count pgCal 0x064 + 1) ∧
        (r.trained = false → v.count pgCal 0x068 = min 0xFFFFFFFF (s.count pgCal 0x068 + 1) ∧ bitOf (v.reg pgCal 0x044) 5 = true))

/-! ### The fabric's links -/

/-- Ports come up and go down (17 R545 to R549, R551, R552). A bring-up of a present, supported module with two good lanes, an offer that shares a generation and
meets the floor, and sixteen delay exchanges leaves the port up with what was negotiated; one without its module fails; a retry waits 100 ms. A
link's first failure is sent; a lane swap puts the Understudy in the lane's place; a retrained lane becomes the Understudy, and one
that fails is sent; an offer already seen is taken and not answered; probes are answered with their times, and sixteen echoes give the delay. -/
def Obligations.PortsAndLanes : Prop :=
  ∀ (s : State) (t p : Nat), s.live = true → p < 4 → p < s.fab.ports.length →
    (∀ b, s.sec.recovery = false → s.fabCtrl p 0 = true → (s.port p).up = false →
      (b.modulePresent = false → exec (.portBringUp t p b) s = .next (State.settle
        (((s.at t).setPort p { s.port p with modulePresent := false, tried := max s.now t }).bringUpFails p))) ∧
      ((s.port p).tried + 100000000 ≤ max s.now t → b.modulePresent = false → exec (.portBringUpRetry t p b) s = .next (State.settle
        (((s.at t).setPort p { s.port p with modulePresent := false, tried := max s.now t }).bringUpFails p))) ∧
      (max s.now t < (s.port p).tried + 100000000 → exec (.portBringUpRetry t p b) s = .next (s.at t).settle) ∧
      (∀ i bs g mi, (i = Instr.portBringUp t p b ∨ (i = Instr.portBringUpRetry t p b ∧ (s.port p).tried + 100000000 ≤ max s.now t)) → b.modulePresent = true →
        b.moduleSupported = true → 2 ≤ ((s.port p).withLanes b.goodLanes).lanes.length → b.offer = some bs → (offerOf bs).choose = some (g, mi) →
        s.lacksFloor (offerOf bs) = false → b.delays.length = 16 → ∃ v : State, exec i s = .next v.settle ∧ (v.port p).up = true ∧ (v.port p).negotiated = true ∧
          (v.port p).gen = g ∧ (v.port p).minor = mi ∧ (v.port p).offer = some (offerOf bs) ∧ (v.port p).lanes = ((s.port p).withLanes b.goodLanes).lanes ∧
          (v.port p).delay = meanDelay (b.delays.map fun d => d.2.2.2 - d.1 - (d.2.2.1 - d.2.1)) ∧ (∀ j, j ≠ p → v.port j = s.port j) ∧
          v.qmg = s.qmg ∧ v.host = s.host ∧ v.win = s.win)) ∧
    (s.fabCtrl p 0 = false → ∀ b, exec (.portBringUp t p b) s = .next (s.at t).settle ∧ exec (.portBringUpRetry t p b) s = .next (s.at t).settle) ∧
    ((s.port p).up = true → ∃ v : State, exec (.fabricLinkDown t p) s = .next v.settle ∧ (v.port p).up = false ∧
      (v.port p).replay = [] ∧ (v.shpPort p).sending = none ∧ (∀ j, j ≠ p → v.port j = s.port j) ∧ v.qmg = s.qmg ∧ v.host = s.host ∧ v.win = s.win ∧
      ((s.port p).wasUp = false → v.flt = s.flt) ∧
      ((s.port p).wasUp = true → ∃ m : FaultMsg, v.flt = { s.flt with inbox := s.flt.inbox ++ [m] } ∧ m.kind = 0x43)) ∧
    (∀ logical u old, (s.port p).up = true → s.fabCtrl p 1 = true → (s.port p).understudy = some u → (s.port p).lanes[logical]? = some old →
      exec (.laneSwap t p logical) s = .next (State.settle (((((s.at t).setPort p { s.port p with lanes := (s.port p).lanes.set logical u, understudy := none, displaced := (s.port p).displaced ++ [old] }).bump (pgFab p) 0x0A0).sticky (pgFab p) 0x044 0x10).sendFault (pgFab p) .laneSwap))) ∧
    (∀ logical, (s.port p).understudy = none → exec (.laneSwap t p logical) s = .next (s.at t).settle) ∧
    (∀ lane, lane ∈ (s.port p).displaced →
      exec (.laneRetrainEnd t p lane true) s = .next (State.settle ((s.at t).setPort p { s.port p with displaced := (s.port p).displaced.erase lane, understudy := some lane })) ∧
      exec (.laneRetrainEnd t p lane false) s = .next (State.settle (((s.at t).setPort p { s.port p with displaced := (s.port p).displaced.erase lane, failed := (s.port p).failed ++ [lane] }).sendFault (pgFab p) .laneFailed))) ∧
    (∀ here, exec (.modulePresenceChange t p here true) s = .next (State.settle ((s.at t).setPort p { s.port p with modulePresent := here }))) ∧
    exec (.modulePresenceChange t p true false) s = .next (State.settle
      (((s.at t).setPort p { s.port p with modulePresent := true }).sendFault (pgFab p) .moduleUnsupported)) ∧
    (∀ payload g mi, (s.port p).up = true → payload.length = 32 → (s.port p).offer = some (offerOf payload) → (offerOf payload).choose = some (g, mi) →
      s.lacksFloor (offerOf payload) = false → exec (.versionOfferReceive t p payload) s = .next (State.settle ((s.at t).setPort p { s.port p with offer := some (offerOf payload), negotiated := true, gen := g, minor := mi }))) ∧
    ((s.port p).negotiated = true →
      (∀ tag, exec (.delayProbe t p tag) s = .next (State.settle { s.at t with
        outbox := .control p 3 (natLE 8 tag ++ natLE 8 (max s.now t) ++ natLE 8 (max s.now t)) :: s.outbox })) ∧
      (∀ t1 t2 t3 t4, (s.port p).samples.length < 15 → exec (.delayEcho t p t1 t2 t3 t4) s = .next (State.settle ((s.at t).setPort p { s.port p with samples := (s.port p).samples ++ [t4 - t1 - (t3 - t2)] }))) ∧
      (∀ t1 t2 t3 t4, (s.port p).samples.length = 15 → exec (.delayEcho t p t1 t2 t3 t4) s = .next (State.settle ((s.at t).setPort p { s.port p with samples := [], delay := meanDelay ((s.port p).samples ++ [t4 - t1 - (t3 - t2)]) }))))

/-- Flits and forwarding (17 R553 to R558; 18 R596). A damaged flit is counted and a Data flit of the kind is answered by a NAK; the expected Data flit moves
the sequence on and joins its message; one out of sequence moves nothing; an Idle flit's AckSeq and credit are taken; a NAK replays
what is not acknowledged, and the eighth in a row retrains the port; a message for another node goes on with one hop less, and one with no hop
left is discarded and counted. -/
def Obligations.FlitsAndForwarding : Prop :=
  ∀ (s : State) (t p : Nat), s.live = true → p < 4 → p < s.fab.ports.length → (s.port p).up = true →
    (∀ flit, (∃ v : State, exec (.dataFlitReceive t p flit true) s = .next v.settle ∧ v.count (pgFab p) 0x090 = min 0xFFFFFFFF (s.count (pgFab p) 0x090 + 1) ∧
        v.count (pgFab p) 0x094 = min 0xFFFFFFFF (s.count (pgFab p) 0x094 + 1) ∧ (v.port p).nakSent = true ∧ (v.port p).rxSeq = (s.port p).rxSeq ∧
        v.outbox = .control p 0 (natLE 2 (((s.port p).rxSeq + 65535) % 65536)) :: s.outbox ∧ v.qmg = s.qmg ∧ v.host = s.host ∧ v.win = s.win) ∧
      (flitOk flit = false → ∃ v : State, exec (.dataFlitReceive t p flit false) s = .next v.settle ∧ (v.port p).nakSent = true ∧
        (v.port p).rxSeq = (s.port p).rxSeq ∧ v.count (pgFab p) 0x094 = min 0xFFFFFFFF (s.count (pgFab p) 0x094 + 1) ∧ v.qmg = s.qmg ∧ v.host = s.host ∧ v.win = s.win) ∧
      (flitOk flit = true → fieldAt flit 0 1 = 1 → fieldAt flit 2 2 = (s.port p).rxSeq → bitOf (fieldAt flit 1 1) 4 = false →
        ∃ v : State, exec (.dataFlitReceive t p flit false) s = .next v.settle ∧ (v.port p).rxSeq = ((s.port p).rxSeq + 1) % 65536 ∧
          (v.port p).rx.find? (fieldAt flit 1 1 % 8) = some ((if bitOf (fieldAt flit 1 1) 3 then [] else (s.port p).rx.getD (fieldAt flit 1 1 % 8) []) ++ bytesAt flit 8 240) ∧
          v.count (pgFab p) 0x0B8 = (s.count (pgFab p) 0x0B8 + 1) % 2 ^ 64 ∧ v.qmg = s.qmg ∧ v.host = s.host ∧ v.win = s.win) ∧
      (flitOk flit = true → fieldAt flit 0 1 = 1 → fieldAt flit 2 2 ≠ (s.port p).rxSeq → ∃ v : State, exec (.dataFlitReceive t p flit false) s = .next v.settle ∧
        (v.port p).rxSeq = (s.port p).rxSeq ∧ (v.port p).rx = (s.port p).rx ∧ v.qmg = s.qmg ∧ v.host = s.host ∧ v.win = s.win) ∧
      (flitOk flit = false → exec (.idleFlitReceive t p flit) s = .next (State.settle ((s.at t).bump (pgFab p) 0x094))) ∧
      (flitOk flit = true → fieldAt flit 0 1 = 0 → exec (.idleFlitReceive t p flit) s = .next (State.settle
        ((((s.at t).setPort p ((s.port p).takeAck flit)).credited p).returnOwed p)))) ∧
    (∀ ack, (s.port p).replay.findIdx? (fun e => e.1 == ack) = none →
      ((s.port p).replay = [] → exec (.nakReceive t p ack) s = .next (State.settle ((s.at t).setPort p (s.port p)))) ∧
      ((s.port p).replay ≠ [] → (s.port p).replays < 7 → exec (.nakReceive t p ack) s = .next (State.settle
        ((((s.at t).setPort p { s.port p with replays := (s.port p).replays + 1 }).bump (pgFab p) 0x098).emit (.replay p ((s.port p).replay.map fun e => e.2))))) ∧
      ((s.port p).replay ≠ [] → 7 ≤ (s.port p).replays → ∃ v : State, exec (.nakReceive t p ack) s = .next v.settle ∧ (v.port p).up = false ∧
        (v.port p).retraining = true ∧ (v.port p).replay = (s.port p).replay ∧ v.count (pgFab p) 0x09C = min 0xFFFFFFFF (s.count (pgFab p) 0x09C + 1) ∧
        v.qmg = s.qmg ∧ v.host = s.host ∧ v.win = s.win)) ∧
    (∀ m : FabMsg, m.port = p → (wire m).whole = true → (wire m).dest ≠ s.nodeId → (wire m).dest ≠ 0xFFFF →
      (((wire m).hops = 0 ∨ (wire m).major ≠ 1 ∨ s.routePort (wire m).dest = none) → exec (.messageForward t m) s = .next ((s.at t).bump (pgFab p) 0x0A4).settle) ∧
      (∀ out, 1 ≤ (wire m).hops → (wire m).major = 1 → 1 ≤ (wire m).type → (wire m).type ≤ 9 → s.routePort (wire m).dest = some out →
        let w : Msg := { wire m with header := overlay (wire m).header 3 (natLE 1 (fieldAt (wire m).header 3 1 - 16)) }
        (s.shpRoom out w = true → exec (.messageForward t m) s = .next (State.settle ((s.at t).shpQueue out w))) ∧
        (s.shpRoom out w = false → exec (.messageForward t m) s = .next (State.settle
          { (s.at t).shpWaits w with fab := { s.fab with forwards := s.fab.forwards ++ [(p, w)] } }))))

/-! ### The fabric's messages -/

/-- Connections (17 R552, R559 to R561, R579). An Ack lets go of what it covers; an Open that finds a common generation and the floor met is answered and
enters Open, and so does its reply; one that finds none leaves the connection Closed; a Close ends an Open connection; what is not acknowledged in
time is sent again, sixteen times, and then the connection goes Down; an opening is tried again every 100 ms; CONN_RESET opens afresh. -/
def Obligations.Connections : Prop :=
  ∀ (s : State) (t : Nat) (f : FabMsg), let m := wire f; let c := s.conn m.src
    (s.SegmentArrives f 0 → ((c.state ≠ .open ∨ segPeer m ≠ s.fab.incarnation) → exec (.transportAck t f) s = .next (s.at t).settle) ∧
      (∀ i, c.state = .open → segPeer m = s.fab.incarnation → c.unacked.findIdx? (fun e => e.1 == m.seq) = some i → c.queued = [] →
        exec (.transportAck t f) s = .next (State.settle ((s.at t).setConn m.src { c with unacked := c.unacked.drop (i + 1), resends := 0, progressAt := max s.now t })))) ∧
    (∀ g mi, (segOffer m).choose = some (g, mi) → s.lacksFloor (segOffer m) = false →
      (s.SegmentArrives f 1 → c.state = .closed → ∃ v : State, exec (.transportOpen t f) s = .next v.settle ∧ (v.conn m.src).state = .open ∧ (v.conn m.src).gen = g ∧
        (v.conn m.src).minor = mi ∧ (v.conn m.src).offer = segOffer m ∧ v.qmg = s.qmg ∧ v.host = s.host ∧ v.win = s.win) ∧
      (s.SegmentArrives f 2 → c.state = .opening → segPeer m = s.fab.incarnation → ∃ v : State, exec (.transportOpenReply t f) s = .next v.settle ∧
        (v.conn m.src).state = .open ∧ (v.conn m.src).gen = g ∧ (v.conn m.src).minor = mi ∧ (v.conn m.src).offer = segOffer m ∧
        v.qmg = s.qmg ∧ v.host = s.host ∧ v.win = s.win) ∧
      (s.SegmentArrives f 2 → c.state ≠ .opening → exec (.transportOpenReply t f) s = .next (s.at t).settle)) ∧
    (s.SegmentArrives f 1 → c.state = .opening → s.nodeId < m.src → exec (.transportOpen t f) s = .next (s.at t).settle) ∧
    ((∀ e ∈ s.fab.reqs, e.2.node ≠ m.src) →
      (s.SegmentArrives f 2 → c.state = .opening → segPeer m = s.fab.incarnation → (segOffer m).choose = none → ∃ v : State,
        exec (.transportOpenReply t f) s = .next v.settle ∧ (v.conn m.src).state = .closed ∧ v.flt = s.flt ∧ v.qmg = s.qmg ∧ v.host = s.host ∧ v.win = s.win) ∧
      (s.SegmentArrives f 3 → ∃ v : State, exec (.transportClose t f) s = .next v.settle ∧ (c.state = .open → (v.conn m.src).state = .down) ∧
        (c.state = .opening → (v.conn m.src).state = .closed) ∧ (v.conn m.src).state ≠ .open ∧ v.qmg = s.qmg ∧ v.host = s.host ∧ v.win = s.win)) ∧
    (∀ n, s.live = true → let d := s.conn n
      ((d.state ≠ .open ∨ d.unacked = [] ∨ max s.now t < d.progressAt + s.reg (pgFab 0) 0x074 * 1000) → exec (.connectionResend t n) s = .next (s.at t).settle) ∧
      (d.state = .open → d.unacked ≠ [] → d.progressAt + s.reg (pgFab 0) 0x074 * 1000 ≤ max s.now t →
        (∀ p, d.resends < 16 → s.routePort n = some p → exec (.connectionResend t n) s = .next (State.settle
          ((((s.at t).setConn n { d with resends := d.resends + 1, progressAt := max s.now t }).bump (pgFab 0) 0x0C8 d.unacked.length).requeue p (d.unacked.map fun e => e.2)))) ∧
        (16 ≤ d.resends → (∀ e ∈ s.fab.reqs, e.2.node ≠ n) → ∃ (v : State) (w : FaultMsg), exec (.connectionResend t n) s = .next v.settle ∧
          (v.conn n).state = .down ∧ v.flt = { s.flt with inbox := s.flt.inbox ++ [w] } ∧ w.kind = 0x45 ∧ v.qmg = s.qmg ∧ v.host = s.host ∧ v.win = s.win)) ∧
      ((d.state = .opening ∨ d.state = .down) → d.openedAt + 100000000 ≤ max s.now t → ∃ v : State, exec (.connectionOpenRetry t n) s = .next v.settle ∧
        v.conn n = { d with state := .opening, openedAt := max s.now t } ∧ (∀ j, j ≠ n → v.conn j = s.conn j) ∧ v.qmg = s.qmg ∧ v.host = s.host ∧ v.win = s.win) ∧
      ((d.state = .open ∨ d.state = .closed ∨ max s.now t < d.openedAt + 100000000) → exec (.connectionOpenRetry t n) s = .next (s.at t).settle)) ∧
    (∀ cid k, s.SubmittedAdmin cid 0x76 k → let n := fieldAt k.raw 8 2
      (1024 ≤ n → exec (.connReset t cid) s = .next ((s.at t).finish cid .malformed).settle) ∧
      (n < 1024 → (∀ e ∈ s.fab.reqs, e.2.node ≠ n) → ∃ u : State, exec (.connReset t cid) s = .next (u.finish cid .ok).settle ∧
        (u.conn n).state = .opening ∧ (u.conn n).unacked = [] ∧ (∀ j, j ≠ n → u.conn j = s.conn j) ∧ u.qmg = s.qmg ∧ u.host = s.host ∧ u.win = s.win))

/-- Requests and replies (17 R564, R567 to R569; 18 R603). A numbered message that is not its connection's next changes only the time. A shard's search enters
the node as a command of the header's domain; a carried command needs CmdAccept, is MALFORMED where no message may carry it, and else
enters the same way; a reply completes the request it answers, and one that answers none changes nothing more. -/
def Obligations.RequestsAndReplies : Prop :=
  ∀ (s : State) (t : Nat) (f : FabMsg), let m := wire f; let u := s.acked t m; let cid := s.qmg.nextCid
    (∀ ty, s.Arrives f ty → ((s.conn m.src).state ≠ .open ∨ m.seq ≠ (s.conn m.src).seqRx) →
      ∀ i, i ∈ [Instr.queryScatterSearch t f, .queryScatterCommand t f, .resultGatherReceive t f, .mutationReplicateReceive t f, .wingsShipReceive t f,
        .bulkSegReceive t f, .cueSyncReceive t f, .leaseGrantReceive t f, .leaseQueryReceive t f, .leaseReportReceive t f] → exec i s = .next (s.at t).settle) ∧
    (s.NextArrives f 1 → fieldAt m.payload 0 1 = 0 → bitOf (s.reg pgShp 0x040) 3 = false →
      let coll := fieldAt m.payload 4 4
      let pl := m.payload
      let dn := fieldAt pl 16 4
      let full := bytesAt pl (32 + roundUp dn 16 + roundUp (fieldAt pl 20 4) 16) (fieldAt pl 24 4)
      let predicate := bytesAt pl (32 + roundUp dn 16) (fieldAt pl 20 4)
      let raw := natLE 1 1 ++ natLE 1 0 ++ natLE 1 (16 + m.cls) ++ natLE 1 0 ++ natLE 4 m.requestId ++ natLE 4 coll ++ zeroBytes 4 ++ natLE 8 (fieldAt pl 8 8) ++ zeroBytes 40
      let k : Cmd := { origin := .scatterSearch f.port m.src m.requestId (fieldAt pl 2 2) m.cls, domain := m.domain, raw := raw, data := pl, winBase := u.view.base, winSize := u.view.size }
      let w := (u.carried k).1
      w.qmg.nextCid = cid + 1 ∧
      (w.cmd? cid = none → exec (.queryScatterSearch t f) s = .next w.settle) ∧
      (∀ c, (w.cmd? cid).isSome = true → w.coll? coll = some c → w.notOurs coll (fieldAt pl 2 2) = false → dn = 64 + 2 * c.navDim →
        exec (.queryScatterSearch t f) s = .next (State.settle (w.admitSearch cid coll (fieldAt pl 8 8) (bytesAt pl 32 64) predicate
          (w.descOf c (bytesAt pl 32 64) (bytesAt pl 96 (dn - 64)) full predicate) false none))) ∧
      (∀ c, (w.cmd? cid).isSome = true → w.coll? coll = some c → w.notOurs coll (fieldAt pl 2 2) = true →
        exec (.queryScatterSearch t f) s = .next (State.settle (w.refuseSearch cid .busy none)))) ∧
    (s.NextArrives f 1 → fieldAt m.payload 0 1 = 1 →
      (s.fabCtrl f.port 2 = false → exec (.queryScatterCommand t f) s = .next (State.settle (u.bump (pgFab f.port) 0x0A4))) ∧
      (s.fabCtrl f.port 2 = true → bitOf (s.reg pgShp 0x040) 3 = false →
        let k : Cmd := { origin := .scatterCommand f.port m.src m.requestId m.cls, domain := m.domain, raw := bytesAt (m.payload ++ zeroBytes 128) 64 64, data := m.payload, winBase := u.view.base, winSize := u.view.size }
        (cmdFormat k.raw = 1 → u.notCarried k = true → exec (.queryScatterCommand t f) s = .next (State.settle
          ((({ u with qmg := { u.qmg with nextCid := cid + 1 } }).setCmd cid k).finish cid .malformed))) ∧
        (u.notCarried k = false → exec (.queryScatterCommand t f) s = .next (State.settle (u.carried k).1)))) ∧
    (s.NextArrives f 2 →
      (s.fab.reqs.find? m.requestId = none → exec (.resultGatherReceive t f) s = .next u.settle) ∧
      (∀ r c, s.fab.reqs.find? m.requestId = some r → r.node = m.src → m.epoch ≤ s.fab.epoch → r.what = .cues c → exec (.resultGatherReceive t f) s = .next (State.settle
        (({ u with fab := { u.fab with reqs := u.fab.reqs.erase m.requestId } }).finish c (statusOf (fieldAt m.payload 4 2))))) ∧
      (∀ r n i, s.fab.reqs.find? m.requestId = some r → r.node = m.src → m.epoch ≤ s.fab.epoch → r.what = .shard n i → exec (.resultGatherReceive t f) s = .next (State.settle
        (({ u with fab := { u.fab with reqs := u.fab.reqs.erase m.requestId } }).shardReply n i m.payload))))

/-- Replication, transfers, cues and leases (17 R570, R571, R573 to R577). A message under an older epoch is answered FENCED; one under a newer makes the node take
it and lapse; a Probe is answered with the source's figures and a mutation applied as a command; a segment joins its transfer, and a wrong one drops
it; cues are taken from the Twin alone; a Grant raises the epoch or extends the lease and is answered by a Report, as a Query is; a lapse changes
nothing but the time. -/
def Obligations.LeasesAndTransfers : Prop :=
  ∀ (s : State) (t : Nat) (f : FabMsg), let m := wire f; let u := s.acked t m
    (∀ ty i, s.NextArrives f ty → (ty = 3 ∧ i = Instr.mutationReplicateReceive t f) ∨ (ty = 4 ∧ i = .wingsShipReceive t f) ∨ (ty = 5 ∧ i = .bulkSegReceive t f) ∨
      (ty = 8 ∧ i = .cueSyncReceive t f) → (m.epoch < s.fab.epoch → exec i s = .next (State.settle (u.replyStatus m .fenced))) ∧
      (s.fab.epoch < m.epoch → exec i s = .next (State.settle ((u.takeEpoch m.epoch).replyStatus m .fenced))) ∧
      (m.epoch = s.fab.epoch → (s.at t).leaseHeld = false → exec i s = .next (State.settle (u.replyStatus m .fenced)))) ∧
    (m.epoch = s.fab.epoch → (s.at t).leaseHeld = true →
      (s.NextArrives f 3 → bitOf (fieldAt m.payload 7 1) 1 = true → let src := (s.source? (mutSource (replCmd f.port m).raw)).getD {}
        exec (.mutationReplicateReceive t f) s = .next (State.settle (u.reply m m.cls { status := .ok, detail := src.next, watermark := some src.w }))) ∧
      (s.NextArrives f 3 → bitOf (fieldAt m.payload 7 1) 1 = false → (replCmd f.port m).isMut = true → u.admission (replCmd f.port m) = none →
        bitOf (u.privs m.domain) 3 = true → let w := (u.carried (replCmd f.port m)).1
        w.canMutate s.qmg.nextCid (cmdOpcode (replCmd f.port m).raw) = true → exec (.mutationReplicateReceive t f) s = .next (State.settle (mutate s.qmg.nextCid w))) ∧
      (∀ kind i, (kind = 0 ∧ i = Instr.wingsShipReceive t f) ∨ (kind = 1 ∧ i = .bulkSegReceive t f) → s.NextArrives f (4 + kind) →
        let key := transferKey m.src kind (fieldAt m.payload 0 4)
        (∀ x, takeSegment (s.fab.transfers.find? key) m.domain m.payload = .ok x → (kind = 1 ∨ x.next < x.segs) → exec i s = .next (State.settle
          (({ u with fab := { u.fab with transfers := u.fab.transfers.set key x } }).replyStatus m .ok))) ∧
        (∀ st, takeSegment (s.fab.transfers.find? key) m.domain m.payload = .error st → exec i s = .next (State.settle ((u.dropTransfers m.src m.domain).replyStatus m st)))) ∧
      (s.NextArrives f 4 → ∀ x, takeSegment (s.fab.transfers.find? (transferKey m.src 0 (fieldAt m.payload 0 4))) m.domain m.payload = .ok x → x.next = x.segs →
        let r := u.installShard m.src m.domain (fieldAt m.payload 0 4) x.data
        exec (.wingsShipReceive t f) s = .next (State.settle ((r.1.dropTransfers m.src m.domain).replyStatus m r.2))) ∧
      (s.NextArrives f 8 → s.twin? ≠ some m.src → exec (.cueSyncReceive t f) s = .next (State.settle (u.replyStatus m .denied))) ∧
      (s.NextArrives f 8 → s.twin? = some m.src → m.payload.length = 40 → fieldAt m.payload 0 8 < 4096 →
        let r := u.writeCue (fieldAt m.payload 0 8) (entryOf (m.payload.drop 8))
        exec (.cueSyncReceive t f) s = .next (State.settle (r.1.replyStatus m r.2)))) ∧
    (s.NextArrives f 6 → s.fabCtrl f.port 3 = true → fieldAt m.payload 0 4 = s.reg (pgFab 0) 0x04C →
      (fieldAt m.payload 4 1 = 0 → 1000000 ≤ fieldAt m.payload 8 8 → fieldAt m.payload 8 8 ≤ 10000000000 → ∃ v : State,
        exec (.leaseGrantReceive t f) s = .next v.settle ∧ v.fab.epoch = max s.fab.epoch m.epoch ∧
        v.fab.expiry = (if m.epoch < s.fab.epoch then s.fab.expiry else if m.epoch = s.fab.epoch then max s.fab.expiry ((s.at t).tapeTime + fieldAt m.payload 8 8)
          else (s.at t).tapeTime + fieldAt m.payload 8 8) ∧ v.qmg = s.qmg ∧ v.host = s.host ∧ v.win = s.win) ∧
      (fieldAt m.payload 4 1 = 1 → exec (.leaseQueryReceive t f) s = .next (u.report m).settle) ∧
      (fieldAt m.payload 4 1 = 2 → exec (.leaseReportReceive t f) s = .next u.settle)) ∧
    exec (.leaseLapse t) s = .next (s.at t).settle

/-- Fabric administration (17 R552, R558, R566, R570, R573, R574, R575, R579). Routes, shard maps and replications are set as asked; the feature floor of Stepping A0,
which offers no feature, rises above nothing; a lease granted by command has the effect of a message; SHARD_SEND and CUE_SEND wait for
their answers; an idle replication reports the watermark, at most once in its interval. -/
def Obligations.FabricAdministration : Prop :=
  ∀ (s : State) (t cid : Nat) (k : Cmd),
    let n := fieldAt k.raw 8 4
    (s.SubmittedAdmin cid 0x70 k → let n := fieldAt k.raw 8 2; let p := fieldAt k.raw 49 1; let a := fieldAt k.raw 50 1
      (n < 1024 → p < 4 → (a < 4 ∨ a = 0xFF) → exec (.routeSet t cid) s = .next (State.settle
        (({ s.at t with fab := { s.fab with routes := s.fab.routes.set n (p, a, fieldAt k.raw 51 1) } }).finish cid .ok))) ∧
      ((1024 ≤ n ∨ 4 ≤ p) → exec (.routeSet t cid) s = .next ((s.at t).finish cid .malformed).settle)) ∧
    (s.SubmittedAdmin cid 0x71 k → let count := fieldAt k.raw 52 2
      let es := (List.range count).map fun i => let e := (s.at t).cmdRead k (cmdPtrA k.raw + 8 * i) 8; (fieldAt e 0 2, fieldAt e 2 2, bitOf (fieldAt e 4 1) 0)
      ((count = 0 ∨ 1024 < count) → exec (.shardmapSet t cid) s = .next ((s.at t).finish cid .malformed).settle) ∧
      (1 ≤ count → count ≤ 1024 → (s.openColl? n).isSome = true → (∀ e ∈ es, e.1 < 1024 ∧ e.2.1 < 1024) → exec (.shardmapSet t cid) s = .next (State.settle
        (({ s.at t with fab := { s.fab with shardMaps := s.fab.shardMaps.set n es } }).finish cid .ok)))) ∧
    (∀ c, s.SubmittedAdmin cid 0x72 k → s.openColl? n = some c → fieldAt k.raw 12 2 < 256 →
      (bitOf (fieldAt k.raw 49 1) 0 = false → exec (.replSet t cid) s = .next (State.settle
        (({ s.at t with fab := { s.fab with repls := s.fab.repls.erase n } }).finish cid .ok))) ∧
      (bitOf (fieldAt k.raw 49 1) 0 = true → s.fab.repls.find? n = none → exec (.replSet t cid) s = .next (State.settle (({ s.at t with fab := { s.fab with repls := s.fab.repls.set n { source := fieldAt k.raw 12 2, domain := c.owner, twinW := s.wlk.watermark, sentTo := s.wlk.watermark } } }).finish cid .ok)))) ∧
    (s.SubmittedAdmin cid 0x73 k → let dur := fieldAt k.raw 52 4
      ((dur < 1000 ∨ 10000000 < dur) → exec (.leaseGrant t cid) s = .next ((s.at t).finish cid .malformed).settle) ∧
      (1000 ≤ dur → dur ≤ 10000000 → ∃ u : State, exec (.leaseGrant t cid) s = .next (u.finish cid .ok).settle ∧ u.fab.epoch = max s.fab.epoch (cmdPos k.raw) ∧
        (s.fab.epoch < cmdPos k.raw → u.fab.expiry = (s.at t).tapeTime + dur * 1000) ∧ u.qmg = s.qmg ∧ u.host = s.host ∧ u.win = s.win)) ∧
    (s.SubmittedAdmin cid 0x74 k →
      (cmdPos k.raw = 0 → s.fab.floor = 0 → exec (.featureFloor t cid) s = .next (State.settle (({ s.at t with fab := { s.fab with floor := 0 } }).finish cid .ok))) ∧
      (cmdPos k.raw ≠ 0 → cmdPos k.raw ||| s.fab.floor = cmdPos k.raw → exec (.featureFloor t cid) s = .next ((s.at t).finish cid .version).settle) ∧
      (cmdPos k.raw ||| s.fab.floor ≠ cmdPos k.raw → exec (.featureFloor t cid) s = .next ((s.at t).finish cid .malformed).settle)) ∧
    (s.SubmittedAdmin cid 0x75 k → let node := fieldAt k.raw 12 2
      (1024 ≤ node → exec (.shardSend t cid) s = .next ((s.at t).finish cid .malformed).settle) ∧
      (node < 1024 → s.newestCkpt n = none → exec (.shardSend t cid) s = .next ((s.at t).finish cid .notFound).settle) ∧
      (node < 1024 → (s.openColl? n).isSome = true → (s.newestCkpt n).isSome = true → ∃ v : State, exec (.shardSend t cid) s = .next v.settle ∧
        v.cmd? cid = some { k with phase := .waiting } ∧ (v.fab.ships.find? cid).map (fun x => x.node) = some node ∧
        v.fab.reqs.find? s.fab.nextReq = some { node := node, what := .ship cid } ∧ v.wlk = s.wlk ∧ v.bft = s.bft ∧ v.host = s.host ∧ v.win = s.win)) ∧
    (s.SubmittedAdmin cid 0x77 k → let first := fieldAt k.raw 52 2; let count := fieldAt k.raw 49 1
      ((count = 0 ∨ 8 < count ∨ 4096 < first + count) → exec (.cueSend t cid) s = .next ((s.at t).finish cid .malformed).settle) ∧
      (1 ≤ count → count ≤ 8 → first + count ≤ 4096 → s.twin? = none → exec (.cueSend t cid) s = .next ((s.at t).finish cid .notFound).settle) ∧
      (∀ twin, 1 ≤ count → count ≤ 8 → first + count ≤ 4096 → s.twin? = some twin → ∃ v : State, exec (.cueSend t cid) s = .next v.settle ∧
        v.cmd? cid = some { k with phase := .waiting } ∧ v.fab.reqs.find? s.fab.nextReq = some { node := twin, what := .cues cid } ∧ v.cue = s.cue ∧
        v.host = s.host ∧ v.win = s.win)) ∧
    (∀ c r, s.live = true → s.fab.repls.find? c = some r →
      ((r.broken = true ∨ s.twin? = none ∨ (s.at t).leaseHeld = false ∨ max s.now t < r.idleAt + s.reg (pgFab 0) 0x07C * 1000) →
        exec (.replIdleSend t c) s = .next (s.at t).settle) ∧
      (∀ twin, r.broken = false → s.twin? = some twin → (s.at t).leaseHeld = true → r.idleAt + s.reg (pgFab 0) 0x07C * 1000 ≤ max s.now t → r.probing = false →
        r.held = [] → r.sentTo < s.wlk.watermark → ∃ v : State, exec (.replIdleSend t c) s = .next v.settle ∧
          v.fab.repls.find? c = some { r with idleAt := max s.now t, sentTo := s.wlk.watermark } ∧
          v.fab.reqs.find? s.fab.nextReq = some { node := twin, what := .replicate c } ∧ v.qmg = s.qmg ∧ v.host = s.host ∧ v.win = s.win))

/-! ### Egress and block resets -/

/-- Egress (18 R587, R588, R590, R592, R594, R599, R601; 20 R640). A port that is up sends its oldest tape-and-lease message that holds credit, then its oldest fault message,
then the service message that the scheduler chooses; the gate entry in force is noted, and a message whose gate closed while it is sent is
counted once; a table error ends the hierarchy, is shown and is sent; a bucket refills by its rate up to its burst; the end of a
block's reset leaves no command of its work outstanding. -/
def Obligations.EgressAndBlockReset : Prop :=
  ∀ (s : State) (t p : Nat), s.live = true → p < 4 →
    ((s.port p).up = false ∨ s.accepts pgShp = false ∨ s.accepts (pgFab p) = false → exec (.messageTransmit t p) s = .next (s.at t).settle) ∧
    ((s.port p).up = true → s.accepts pgShp = true → s.accepts (pgFab p) = true →
      (∀ x, (s.shpPort p).tape.find? (fun y => s.canSend p y.msg) = some x → ∃ v : State, exec (.messageTransmit t p) s = .next v.settle ∧
        .fabric p x.msg ∈ v.outbox ∧ v.qmg = s.qmg ∧ v.host = s.host ∧ v.win = s.win) ∧
      (∀ x, (s.shpPort p).tape.find? (fun y => s.canSend p y.msg) = none → (s.shpPort p).sending = none →
        (s.shpPort p).fault.find? (fun y => s.canSend p y.msg) = some x → ∃ v : State, exec (.messageTransmit t p) s = .next v.settle ∧
          .fabric p x.msg ∈ v.outbox ∧ v.qmg = s.qmg ∧ v.host = s.host ∧ v.win = s.win) ∧
      (∀ x q, (s.shpPort p).tape.find? (fun y => s.canSend p y.msg) = none → (s.shpPort p).fault = [] → (s.shpPort p).sending = none → s.portRate p = 0 →
        let w := (s.at t).noteWaits p
        (if w.hierarchical then w.chooseHier p else w.chooseFall p) = some (x, q) → ∃ v : State, exec (.messageTransmit t p) s = .next v.settle ∧
          .fabric p x.msg ∈ v.outbox ∧ v.qmg = s.qmg ∧ v.host = s.host ∧ v.win = s.win)) ∧
    ((s.shpPort p).sending = none → exec (.gateEntryChange t p) s = .next (State.settle ((s.at t).setShpPort p { s.shpPort p with entry := (s.at t).gateEntry p }))) ∧
    (∀ x, (s.shpPort p).sending = some x → max s.now t < x.ends → x.late = false → (s.at t).gateOpen p x.cls = false →
      exec (.gateEntryChange t p) s = .next (State.settle (((s.at t).setShpPort p { s.shpPort p with
        entry := (s.at t).gateEntry p, sending := some { x with late := true } }).bump pgShp 0x09C))) ∧
    (∃ (v : State) (m : FaultMsg), exec (.shaperTableError t) s = .next v.settle ∧ v.shp = { s.shp with tableErr := true } ∧ bitOf (v.reg pgShp 0x044) 5 = true ∧
      v.flt = { s.flt with inbox := s.flt.inbox ++ [m] } ∧ m.kind = 0x48 ∧ v.qmg = s.qmg ∧ v.host = s.host ∧ v.win = s.win) ∧
    exec (.shaperBucketRefill t p none) s = .next (State.settle ((s.at t).setShpPort p { s.shpPort p with
      bucket := some { level := bucketLevel (s.shpPort p).bucket (s.portRate p) (s.portBurst p) (max s.now t), at_ := max s.now t } })) ∧
    (∀ d, exec (.shaperBucketRefill t p (some d)) s = .next (State.settle ((s.at t).setShpPort p { s.shpPort p with
      subs := (s.shpPort p).subs.set d { level := bucketLevel ((s.shpPort p).subs.find? d) (s.subRate d) (s.subBurst d) (max s.now t), at_ := max s.now t } }))) ∧
    (∀ page, (s.flt.resets.has page = false → exec (.blockResetDone t page) s = .next (s.at t).settle) ∧
      (s.flt.resets.has page = true → ∃ v : State, exec (.blockResetDone t page) s = .next v.settle ∧ v.flt.resets = s.flt.resets.erase page ∧
        ∀ n ∈ s.worksIn page, v.cmd? n = none))
end

