-- ==== Sys2Proof/Decode.lean ====
section
/-!
DEFINITION. The decoder the host's table asks for. The table's rows are operations and events and none has bits.
-/

namespace Sys2Proof

/-- The step that a word spells by the table's bits: no row of the table gives bits, so no word spells one (log entry 1). -/
def decodeTableWord (_nbits _w : Nat) : Option Instr := none

end Sys2Proof
end

