-- ==== Sys2Proof/Laws/Memory.lean ====
section
/-!
SUPPORT. Laws of memory: a read after a write, and that every memory operation keeps the canonical form.
-/

namespace Sys2Proof.Machine

/-- Every listed address is above `a`. -/
def Memory.above (a : Nat) (m : Memory) : Prop := ∀ e ∈ m, a < e.1

theorem Memory.wf_cons {k : Nat} {b : Byte} {m : Memory} :
    Memory.wf ((k, b) :: m) = true ↔ b ≠ 0 ∧ Memory.above k m ∧ Memory.wf m = true := by
  induction m generalizing k b with
  | nil => simp [Memory.wf, Memory.above]
  | cons e rest ih =>
    obtain ⟨k', b'⟩ := e
    simp only [Memory.wf, Bool.and_eq_true, bne_iff_ne, ne_eq, decide_eq_true_eq]
    constructor
    · rintro ⟨⟨h0, h1⟩, h2⟩
      refine ⟨h0, ?_, h2⟩
      intro e he
      rcases List.mem_cons.mp he with rfl | he
      · exact h1
      · exact Nat.lt_trans h1 ((ih.mp h2).2.1 e he)
    · rintro ⟨h0, h1, h2⟩
      exact ⟨⟨h0, h1 _ (List.mem_cons_self ..)⟩, h2⟩

theorem Memory.above_put {m : Memory} {j a : Nat} {b : Byte} (h : Memory.above j m) (ha : j < a) : Memory.above j (m.put a b) := by
  induction m with
  | nil => intro e he; simp [Memory.put] at he; subst he; exact ha
  | cons e rest ih =>
    obtain ⟨k, c⟩ := e
    have hr : Memory.above j rest := fun e he => h e (List.mem_cons_of_mem _ he)
    intro e he
    simp only [Memory.put] at he
    split at he
    · rcases List.mem_cons.mp he with rfl | he
      · exact ha
      · exact h e he
    · split at he
      · rcases List.mem_cons.mp he with rfl | he
        · exact ha
        · exact hr e he
      · rcases List.mem_cons.mp he with rfl | he
        · exact h _ (List.mem_cons_self ..)
        · exact ih hr e he

theorem Memory.put_wf {m : Memory} (h : m.wf = true) (a : Nat) {b : Byte} (hb : b ≠ 0) : (m.put a b).wf = true := by
  induction m with
  | nil => exact Memory.wf_cons.mpr ⟨hb, fun e he => by simp at he, rfl⟩
  | cons e rest ih =>
    obtain ⟨k, c⟩ := e
    have h' := Memory.wf_cons.mp h
    simp only [Memory.put]
    split
    · rename_i h1
      refine Memory.wf_cons.mpr ⟨hb, ?_, h⟩
      intro e he
      rcases List.mem_cons.mp he with rfl | he
      · exact h1
      · exact Nat.lt_trans h1 (h'.2.1 e he)
    · split
      · rename_i h2; subst h2; exact Memory.wf_cons.mpr ⟨hb, h'.2.1, h'.2.2⟩
      · exact Memory.wf_cons.mpr ⟨h'.1, Memory.above_put h'.2.1 (by omega), ih h'.2.2⟩

/-- Taking entries away keeps the canonical form. -/
theorem Memory.filter_wf {m : Memory} (h : m.wf = true) (p : Host.Cell → Bool) : Memory.wf (m.filter p) = true := by
  induction m with
  | nil => rfl
  | cons e rest ih =>
    obtain ⟨k, c⟩ := e
    have h' := Memory.wf_cons.mp h
    rw [List.filter_cons]
    split
    · exact Memory.wf_cons.mpr ⟨h'.1, fun e he => h'.2.1 e (List.mem_filter.mp he).1, ih h'.2.2⟩
    · exact ih h'.2.2

/-- A write keeps the canonical form. -/
theorem Memory.write_wf {m : Memory} (h : m.wf = true) (a : Nat) (b : Byte) : (m.write a b).wf = true := by
  unfold Memory.write
  split
  · exact Memory.filter_wf h _
  · rename_i hb; exact Memory.put_wf h a hb

/-- So does a write of several bytes. -/
theorem Memory.writeN_wf {m : Memory} (h : m.wf = true) (a : Nat) (bs : List Byte) : (m.writeN a bs).wf = true := by
  induction bs generalizing m a with
  | nil => exact h
  | cons b rest ih => exact ih (Memory.write_wf h a b) (a + 1)

theorem Memory.read_put_self (m : Memory) (a : Nat) (b : Byte) : (m.put a b).read a = b := by
  induction m with
  | nil => simp [Memory.put, Memory.read]
  | cons e rest ih =>
    obtain ⟨k, c⟩ := e
    simp only [Memory.put]
    split
    · simp [Memory.read]
    · split
      · simp [Memory.read]
      · rename_i h2; simp [Memory.read, Ne.symm h2, ih]

theorem Memory.read_put_ne {m : Memory} {a x : Nat} (b : Byte) (h : x ≠ a) : (m.put a b).read x = m.read x := by
  induction m with
  | nil => simp [Memory.put, Memory.read, Ne.symm h]
  | cons e rest ih =>
    obtain ⟨k, c⟩ := e
    simp only [Memory.put]
    split
    · simp [Memory.read, Ne.symm h]
    · split
      · rename_i h2; subst h2; simp [Memory.read, Ne.symm h]
      · simp [Memory.read, ih]

/-- What reads 0 after its entry is taken away. -/
theorem Memory.read_filter_self (m : Memory) (a : Nat) : Memory.read (m.filter fun e => e.1 != a) a = 0 := by
  induction m with
  | nil => rfl
  | cons e rest ih =>
    obtain ⟨k, c⟩ := e
    rw [List.filter_cons]
    by_cases h : k = a
    · simp [h, ih]
    · simp [h, Memory.read, ih]

theorem Memory.read_filter_ne {m : Memory} {a x : Nat} (h : x ≠ a) : Memory.read (m.filter fun e => e.1 != a) x = m.read x := by
  induction m with
  | nil => rfl
  | cons e rest ih =>
    obtain ⟨k, c⟩ := e
    rw [List.filter_cons]
    by_cases h2 : k = a
    · subst h2; simp [Memory.read, Ne.symm h, ih]
    · simp [h2, Memory.read, ih]

/-- A byte reads as it was written. -/
@[simp] theorem Memory.read_write_self (m : Memory) (a : Nat) (b : Byte) : (m.write a b).read a = b := by
  unfold Memory.write
  split
  · rename_i hb; rw [Memory.read_filter_self, hb]
  · exact Memory.read_put_self m a b

/-- A write leaves every other byte. -/
theorem Memory.read_write_ne {m : Memory} {a x : Nat} (b : Byte) (h : x ≠ a) : (m.write a b).read x = m.read x := by
  unfold Memory.write
  split
  · exact Memory.read_filter_ne h
  · exact Memory.read_put_ne b h

/-- A write of several bytes leaves every byte outside them. -/
theorem Memory.read_writeN_outside {m : Memory} {a x : Nat} (bs : List Byte) (h : x < a ∨ a + bs.length ≤ x) :
    (m.writeN a bs).read x = m.read x := by
  induction bs generalizing m a with
  | nil => rfl
  | cons b rest ih =>
    simp only [List.length_cons] at h
    simp only [Memory.writeN]
    rw [ih (by omega), Memory.read_write_ne b (by omega)]

/-- The memories of the node. -/
def State.memWf (s : State) : Prop := s.host.wf = true ∧ s.win.wf = true

/-- What was written is read back. -/
theorem Memory.read_writeN_inside (m : Memory) (a : Nat) {bs : List Byte} {i : Nat} (h : i < bs.length) :
    (m.writeN a bs).read (a + i) = bs[i] := by
  induction bs generalizing m a i with
  | nil => simp at h
  | cons b rest ih =>
    cases i with
    | zero =>
      show ((m.write a b).writeN (a + 1) rest).read a = b
      rw [Memory.read_writeN_outside rest (Or.inl (Nat.lt_succ_self a)), Memory.read_write_self]
    | succ j =>
      have := ih (m.write a b) (a + 1) (i := j) (by simpa using h)
      simpa [Memory.writeN, Nat.add_assoc, Nat.add_comm 1 j] using this

theorem State.writeByte_memWf {s : State} (h : s.memWf) (v : View) (a : Nat) (b : Byte) : (s.writeByte v a b).memWf := by
  unfold State.writeByte
  split
  · exact ⟨h.1, Memory.write_wf h.2 _ _⟩
  · split
    · exact ⟨Memory.write_wf h.1 _ _, h.2⟩
    · exact h

theorem State.writeBytesGo_memWf {s : State} (h : s.memWf) (v : View) (a : Nat) (bs : List Byte) :
    (s.writeBytesGo v a bs).memWf := by
  induction bs generalizing s a with
  | nil => exact h
  | cons b rest ih => exact ih (State.writeByte_memWf h v a b) (a + 1)

/-- Every write of the node keeps the canonical form of both memories. -/
theorem State.writeBytes_memWf {s : State} (h : s.memWf) (v : View) (a : Nat) (bs : List Byte) : (s.writeBytes v a bs).memWf := by
  unfold State.writeBytes
  dsimp only
  split
  · exact State.writeBytesGo_memWf h v a bs
  · exact State.writeBytesGo_memWf h v a bs

theorem State.reset_memWf : State.reset.memWf := ⟨rfl, rfl⟩

end Sys2Proof.Machine
end

