-- ==== Sys2Proof/Laws/State.lean ====
section
/-!
SUPPORT. What each named update of the state leaves of each field it does not write, and what every step ends with.
-/

namespace Sys2Proof.Machine

variable (s : State)

/-! ### `State.at` -/

@[simp] theorem State.at_now (t : Nat) : (s.at t).now = max s.now t := rfl
@[simp] theorem State.at_pending (t : Nat) : (s.at t).pending = s.pending := rfl
@[simp] theorem State.at_regs (t : Nat) : (s.at t).regs = s.regs := rfl
@[simp] theorem State.at_hiCap (t : Nat) : (s.at t).hiCap = s.hiCap := rfl
@[simp] theorem State.at_counts (t : Nat) : (s.at t).counts = s.counts := rfl
@[simp] theorem State.at_freeCtr (t : Nat) : (s.at t).freeCtr = s.freeCtr + 1 := rfl
@[simp] theorem State.at_host (t : Nat) : (s.at t).host = s.host := rfl
@[simp] theorem State.at_win (t : Nat) : (s.at t).win = s.win := rfl
@[simp] theorem State.at_outbox (t : Nat) : (s.at t).outbox = s.outbox := rfl
@[simp] theorem State.at_flt (t : Nat) : (s.at t).flt = s.flt := rfl
@[simp] theorem State.at_cbd (t : Nat) : (s.at t).cbd = s.cbd := rfl
@[simp] theorem State.at_prm (t : Nat) : (s.at t).prm = s.prm := rfl
@[simp] theorem State.at_cue (t : Nat) : (s.at t).cue = s.cue := rfl
@[simp] theorem State.at_qmg (t : Nat) : (s.at t).qmg = s.qmg := rfl
@[simp] theorem State.at_dom (t : Nat) : (s.at t).dom = s.dom := rfl
@[simp] theorem State.at_cxl (t : Nat) : (s.at t).cxl = s.cxl := rfl
@[simp] theorem State.at_fab (t : Nat) : (s.at t).fab = s.fab := rfl
@[simp] theorem State.at_shp (t : Nat) : (s.at t).shp = s.shp := rfl
@[simp] theorem State.at_wlk (t : Nat) : (s.at t).wlk = s.wlk := rfl
@[simp] theorem State.at_tier (t : Nat) : (s.at t).tier = s.tier := rfl
@[simp] theorem State.at_cst (t : Nat) : (s.at t).cst = s.cst := rfl
@[simp] theorem State.at_pnm (t : Nat) : (s.at t).pnm = s.pnm := rfl
@[simp] theorem State.at_gth (t : Nat) : (s.at t).gth = s.gth := rfl
@[simp] theorem State.at_enc (t : Nat) : (s.at t).enc = s.enc := rfl
@[simp] theorem State.at_sec (t : Nat) : (s.at t).sec = s.sec := rfl
@[simp] theorem State.at_bft (t : Nat) : (s.at t).bft = s.bft := rfl
@[simp] theorem State.at_cal (t : Nat) : (s.at t).cal = s.cal := rfl
@[simp] theorem State.at_pwr (t : Nat) : (s.at t).pwr = s.pwr := rfl
@[simp] theorem State.at_dbg (t : Nat) : (s.at t).dbg = s.dbg := rfl
@[simp] theorem State.at_live (t : Nat) : (s.at t).live = s.live := rfl
@[simp] theorem State.at_reg (t page off : Nat) : (s.at t).reg page off = s.reg page off := rfl
@[simp] theorem State.at_count (t page off : Nat) : (s.at t).count page off = s.count page off := rfl
@[simp] theorem State.at_cmd? (t cid : Nat) : (s.at t).cmd? cid = s.cmd? cid := rfl

/-! ### `State.onlyIf`, `State.withCmd` -/

@[simp] theorem State.onlyIf_true (f : State → State) : s.onlyIf true f = f s := rfl
@[simp] theorem State.onlyIf_false (f : State → State) : s.onlyIf false f = s := rfl

/-- A command that is found and may run is run. -/
theorem State.withCmd_found {s : State} {cid : Nat} {k : Cmd} {ok : Cmd → Bool} (f : Cmd → State → State)
    (hl : s.live = true) (hk : s.cmd? cid = some k) (hw : k.warm = none) (ho : ok k = true) : s.withCmd cid ok f = f k s := by
  simp [State.withCmd, hk, hl, hw, ho]

/-- A number that no command holds runs nothing. -/
theorem State.withCmd_absent {s : State} {cid : Nat} (ok : Cmd → Bool) (f : Cmd → State → State) (hk : s.cmd? cid = none) :
    s.withCmd cid ok f = s := by
  simp [State.withCmd, hk]

/-! ### Registers, counters, what leaves the node, faults -/

@[simp] theorem State.emit_host (o : Out) : (s.emit o).host = s.host := rfl
@[simp] theorem State.emit_win (o : Out) : (s.emit o).win = s.win := rfl
@[simp] theorem State.emit_outbox (o : Out) : (s.emit o).outbox = o :: s.outbox := rfl
@[simp] theorem State.emit_regs (o : Out) : (s.emit o).regs = s.regs := rfl
@[simp] theorem State.setReg_host (p o v : Nat) : (s.setReg p o v).host = s.host := rfl
@[simp] theorem State.setReg_win (p o v : Nat) : (s.setReg p o v).win = s.win := rfl
@[simp] theorem State.setReg_counts (p o v : Nat) : (s.setReg p o v).counts = s.counts := rfl
@[simp] theorem State.setReg_flt (p o v : Nat) : (s.setReg p o v).flt = s.flt := rfl
@[simp] theorem State.bump_host (p o n : Nat) : (s.bump p o n).host = s.host := rfl
@[simp] theorem State.bump_win (p o n : Nat) : (s.bump p o n).win = s.win := rfl
@[simp] theorem State.bump_regs (p o n : Nat) : (s.bump p o n).regs = s.regs := rfl
@[simp] theorem State.bump64_host (p o n : Nat) : (s.bump64 p o n).host = s.host := rfl
@[simp] theorem State.bump64_win (p o n : Nat) : (s.bump64 p o n).win = s.win := rfl
@[simp] theorem State.sendFault_host (p : Nat) (k : Kind) (d a : Nat) (n : Bool) : (s.sendFault p k d a n).host = s.host := rfl
@[simp] theorem State.sendFault_win (p : Nat) (k : Kind) (d a : Nat) (n : Bool) : (s.sendFault p k d a n).win = s.win := rfl
@[simp] theorem State.sendFault_inbox (p : Nat) (k : Kind) (d a : Nat) (n : Bool) :
    (s.sendFault p k d a n).flt.inbox = s.flt.inbox ++ [faultMsg s p k d a n] := rfl

/-! ### `State.settle` -/

@[simp] theorem State.settle_host : s.settle.host = s.host := rfl
@[simp] theorem State.settle_win : s.settle.win = s.win := rfl
@[simp] theorem State.settle_now : s.settle.now = s.now := rfl
@[simp] theorem State.settle_regs : s.settle.regs = s.regs := rfl
@[simp] theorem State.settle_counts : s.settle.counts = s.counts := rfl
@[simp] theorem State.settle_pending : s.settle.pending = s.pending := rfl
@[simp] theorem State.settle_flt : s.settle.flt = s.flt := rfl
@[simp] theorem State.settle_cue : s.settle.cue = s.cue := rfl
@[simp] theorem State.settle_qmg : s.settle.qmg = s.qmg := rfl
@[simp] theorem State.settle_dom : s.settle.dom = s.dom := rfl
@[simp] theorem State.settle_watermark : s.settle.wlk.watermark = max s.wlk.watermark s.givenWatermark := rfl
@[simp] theorem State.settle_given : s.settle.givenWatermark = s.givenWatermark := rfl

/-- The watermark never falls when a step ends (03 R84). -/
theorem State.settle_watermark_le : s.wlk.watermark ≤ s.settle.wlk.watermark := Nat.le_max_left _ _

theorem done_eq : done s = .next s.settle := rfl

end Sys2Proof.Machine
end

