-- ==== Sys2Proof/Laws/Table.lean ====
section
/-!
SUPPORT. Laws of sparse tables: what a set, an erase and a change of every entry leave, and that the numbers keep rising.
-/

namespace Sys2Proof.Table

variable {α : Type}

@[simp] theorem find?_nil (k : Nat) : find? ([] : Table α) k = none := rfl

@[simp] theorem find?_set_self (t : Table α) (k : Nat) (a : α) : find? (set t k a) k = some a := by
  induction t with
  | nil => simp [set, find?]
  | cons e rest ih =>
    obtain ⟨k', a'⟩ := e
    simp only [set]
    split
    · simp [find?]
    · split
      · simp [find?]
      · rename_i h1 h2
        simp [find?, ih, Ne.symm h2]

theorem find?_set_ne (t : Table α) {k j : Nat} (a : α) (h : j ≠ k) : find? (set t k a) j = find? t j := by
  induction t with
  | nil => simp [set, find?, Ne.symm h]
  | cons e rest ih =>
    obtain ⟨k', a'⟩ := e
    simp only [set]
    split
    · simp [find?, Ne.symm h]
    · split
      · rename_i h2
        simp [find?, ← h2, Ne.symm h]
      · simp [find?, ih]

@[simp] theorem getD_set_self (t : Table α) (k : Nat) (a d : α) : getD (set t k a) k d = a := by simp [getD]

theorem getD_set_ne (t : Table α) {k j : Nat} (a d : α) (h : j ≠ k) : getD (set t k a) j d = getD t j d := by
  simp [getD, find?_set_ne t a h]

theorem find?_erase_ne (t : Table α) {k j : Nat} (h : j ≠ k) : find? (erase t k) j = find? t j := by
  induction t with
  | nil => rfl
  | cons e rest ih =>
    obtain ⟨k', a'⟩ := e
    simp only [erase, List.filter_cons] at ih ⊢
    by_cases h2 : k' = k
    · subst h2; simp [find?, Ne.symm h, ih]
    · simp [find?, h2, ih]

/-- An erased entry is gone. -/
@[simp] theorem find?_erase_self (t : Table α) (k : Nat) : find? (erase t k) k = none := by
  induction t with
  | nil => rfl
  | cons e rest ih =>
    obtain ⟨k', a'⟩ := e
    simp only [erase, List.filter_cons] at ih ⊢
    by_cases h2 : k' = k
    · simp [h2, ih]
    · simp [find?, h2, ih]

@[simp] theorem has_erase_self (t : Table α) (k : Nat) : has (erase t k) k = false := by simp [has]

@[simp] theorem find?_mapVal (t : Table α) (f : α → α) (k : Nat) : find? (mapVal t f) k = (find? t k).map f := by
  induction t with
  | nil => simp [mapVal]
  | cons e rest ih =>
    obtain ⟨k', a'⟩ := e
    simp only [mapVal, List.map_cons, find?] at *
    split
    · simp
    · exact ih

/-- Every number of the table is above `k`. -/
def above (k : Nat) (t : Table α) : Prop := ∀ e ∈ t, k < e.1

theorem wf_cons {k : Nat} {a : α} {t : Table α} : wf ((k, a) :: t) = true ↔ above k t ∧ wf t = true := by
  induction t generalizing k a with
  | nil => simp [wf, above]
  | cons e rest ih =>
    obtain ⟨k', a'⟩ := e
    simp only [wf, Bool.and_eq_true, decide_eq_true_eq]
    constructor
    · rintro ⟨h1, h2⟩
      refine ⟨?_, h2⟩
      intro e he
      rcases List.mem_cons.mp he with rfl | he
      · exact h1
      · exact Nat.lt_trans h1 ((ih.mp h2).1 e he)
    · rintro ⟨h1, h2⟩
      exact ⟨h1 _ (List.mem_cons_self ..), h2⟩

theorem above_set {t : Table α} {j k : Nat} {a : α} (h : above j t) (hk : j < k) : above j (set t k a) := by
  induction t with
  | nil => intro e he; simp [set] at he; subst he; exact hk
  | cons e rest ih =>
    obtain ⟨k', a'⟩ := e
    have hr : above j rest := fun e he => h e (List.mem_cons_of_mem _ he)
    have h0 : j < k' := h _ (List.mem_cons_self ..)
    simp only [set]
    split
    · intro e he
      rcases List.mem_cons.mp he with rfl | he
      · exact hk
      · exact h e he
    · split
      · intro e he
        rcases List.mem_cons.mp he with rfl | he
        · exact hk
        · exact hr e he
      · intro e he
        rcases List.mem_cons.mp he with rfl | he
        · exact h0
        · exact ih hr e he

/-- A set keeps the numbers rising. -/
theorem set_wf {t : Table α} (h : wf t = true) (k : Nat) (a : α) : wf (set t k a) = true := by
  induction t with
  | nil => simp [set, wf]
  | cons e rest ih =>
    obtain ⟨k', a'⟩ := e
    have h' := wf_cons.mp h
    simp only [set]
    split
    · rename_i h1
      refine wf_cons.mpr ⟨?_, h⟩
      intro e he
      rcases List.mem_cons.mp he with rfl | he
      · exact h1
      · exact Nat.lt_trans h1 (h'.1 e he)
    · split
      · rename_i h2; subst h2; exact wf_cons.mpr ⟨h'.1, h'.2⟩
      · rename_i h1 h2
        refine wf_cons.mpr ⟨above_set h'.1 (by omega), ih h'.2⟩

/-- An erase keeps the numbers rising. -/
theorem erase_wf {t : Table α} (h : wf t = true) (k : Nat) : wf (erase t k) = true := by
  induction t with
  | nil => rfl
  | cons e rest ih =>
    obtain ⟨k', a'⟩ := e
    have h' := wf_cons.mp h
    simp only [erase, List.filter_cons] at ih ⊢
    split
    · exact wf_cons.mpr ⟨fun e he => h'.1 e (List.mem_filter.mp he).1, ih h'.2⟩
    · exact ih h'.2

end Sys2Proof.Table
end

