-- ==== Sys2Proof/Tests/Slice0.lean ====
section
/-!
SUPPORT. Tests: the well-formedness check refuses an ill-formed step of each kind, the statements of Certificates have states
that meet their hypotheses, clause by clause, and single steps of a small node give what the manual's tables say.
-/

open Sys2Proof Sys2Proof.Machine

namespace Sys2Proof.Tests

set_option Elab.async false

/-! ### Small nodes -/

/-- A node in service with everything else as at reset. -/
def running : State := { cal := { phase := .running } }

/-- The same with its host link up. -/
def linked : State := { running with cxl := { mode := 3 } }

/-- A byte string of `n` bytes with fields (offset, size, value) set. -/
def bytesOf (n : Nat) (fs : List (Nat × Nat × Nat)) : List Byte :=
  fs.foldl (fun r f => r.take f.1 ++ natLE f.2.1 f.2.2 ++ r.drop (f.1 + f.2.1)) (zeroBytes n)

/-- A 64-byte command entry of an opcode with fields set. -/
def entry (op : Nat) (fs : List (Nat × Nat × Nat)) : List Byte := bytesOf 64 ((0, 1, op) :: (2, 1, 0x10) :: fs)

/-- An ADMIN entry. -/
def adminEntry (op : Nat) (fs : List (Nat × Nat × Nat)) : List Byte := entry 0x38 ((48, 1, op) :: fs)

/-- An admitted command of queue 1 and domain `d`. -/
def cmdOf (raw : List Byte) (d : Nat := 0) : Cmd := { origin := .queue 1, domain := d, raw := raw }

/-- `s` with command 7 admitted. -/
def having (s : State) (k : Cmd) : State := { s with qmg := { s.qmg with cmds := [(7, k)], nextCid := 8 } }

/-- `s` with a register set. -/
def reg (s : State) (page off v : Nat) : State := s.setReg page off v


/-! ### Ill-formed steps: one for each check, each a boundary value, refused; and the last value inside, let through -/

theorem test_wf_functions : [Instr.registerWrite 0 256 0 4 0, .registerWrite 0 0 0 3 0, .cueHostCommit 0 256 0, .cueEnableSet 0 256 0, .cueEntRead 0 256,
    .cueEntWrite 0 256, .cueEntDisarm 0 256, .cueEntCmdInvalid 0 256 0, .qdbSqTailWrite 0 256 0 0, .qdbCqHeadWrite 0 256 0 0, .q0EnableWrite 0 256 0,
    .wlkHistClear 0 256 0, .wlkFvcExtentsWrite 0 256 0, .encLclear 0 256 0 0, .pnmRawShareWrite 0 256 0 0, .cbdEoi 0 256 0, .cbdArm 0 256 0, .cbdSwSet 0 256 0,
    .cbdSwClr 0 256 0, .fltCntClear 0 256 0 0, .fltGcntClear 0 256 0, .fltRelease 0 256 0, .fltInjGo 0 256 0, .drydownEnableSet 0 256 0, .shpGclSwap 0 256 0,
    .quiesceWrite 0 256 0 0, .enableWrite 0 256 0 0, .blockResetWrite 0 256 0 0, .blkLockWrite 0 256 0 0, .irqEnWrite 0 256 0 0, .flrVf 0 256,
    .msixMaskClear 0 256 0 true, .moderationTimerExpiry 0 256 0, .tapeSourceDisable 0 256 0, .portDisable 0 256 0 0, .cbdHostEnableSet 0 256 0,
    .msixEnableClear 0 256].all (fun i => !i.wf) = true ∧
    [Instr.registerWrite 0 255 0 8 0, .flrVf 0 255, .msixMaskClear 0 255 2047 true, .portDisable 0 255 3 0].all Instr.wf = true := by decide

theorem test_wf_parts : [Instr.hmcUeLocRead 0 8, .qdbSqTailWrite 0 0 4096 0, .qdbCqHeadWrite 0 0 4096 0, .encLclear 0 0 4 0, .pnmRawShareWrite 0 0 8 0,
    .fltCntClear 0 0 240 0, .quiesceWrite 0 0 240 0, .enableWrite 0 0 240 0, .blockResetWrite 0 0 240 0, .blkLockWrite 0 0 240 0, .irqEnWrite 0 0 240 0,
    .queueDrained 0 2048, .domainRetireComplete 0 4096, .refresh 0 8 0, .refresh 0 0 64, .innerCorrRate 0 8 0, .innerCorrRate 0 0 512, .sliceStreamStart 0 4,
    .tileLanding 0 4 [] none, .batchCommit 0 4 [], .patrolScrub 0 8 [] [], .outerCorrRate 0 8, .msixMaskClear 0 0 2048 true, .moderationTimerExpiry 0 0 2048,
    .levelSourceAssert 0 1024, .edgeLatchHandoff 0 1024, .prompterHandlerEnd 0 8, .prompterHeartbeat 0 8, .prompterHang 0 8, .prompterResetRelease 0 8,
    .blockResetDone 0 240, .clockStop 0 240, .supplyDroopSample 0 6 0, .thermalSample 0 (List.replicate 71 0), .thermalHardTrip 0 72, .faultInputEdge 0 2,
    .porRelease 0 4 false, .resetInputFall 0 3, .referenceLoss 0 3, .supplyFail 0 6, .supplyReturn 0 6, .unitParityError 0 8 0, .unitParityError 0 0 512,
    .arrayParityError 0 4 0, .arrayParityError 0 0 16, .doeAbort 0 3, .i3cDynamicAddress 0 128].all (fun i => !i.wf) = true ∧
    [Instr.hmcUeLocRead 0 7, .qdbSqTailWrite 0 0 4095 0, .encLclear 0 0 3 0, .blockResetDone 0 239, .queueDrained 0 2047, .refresh 0 7 63, .innerCorrRate 0 7 511,
    .levelSourceAssert 0 1023, .prompterHang 0 7, .thermalHardTrip 0 71, .supplyFail 0 5, .arrayParityError 0 3 15, .doeAbort 0 2].all Instr.wf = true := by decide

theorem test_wf_links : [Instr.linkTrain 0 3 3 true true, .linkTrainRetry 0 32 3 true true, .perstRelease 0 3 3 true true, .tapeSerFrame 0 [] true,
    .tapeBeaconReceive 0 4 (zeroBytes 24), .tapeBeaconReceive 0 3 [], .tapeSourceLoss 0 .ser 4, .memWr 0 0 [] true, .memWrPtl 0 0 (zeroBytes 64) [] false .clean, .laneSwap 0 4 0, .laneSwap 0 0 4,
    .fabricLinkDown 0 4, .versionOfferReceive 0 4 (zeroBytes 32), .versionOfferReceive 0 3 (zeroBytes 33), .delayProbe 0 4 0, .delayEcho 0 4 0 0 0 0,
    .dataFlitReceive 0 4 (zeroBytes 256) false, .dataFlitReceive 0 3 [] false, .nakReceive 0 4 0, .messageForward 0 { port := 4, header := zeroBytes 32, payload := [] },
    .transportAck 0 { port := 3, header := zeroBytes 31, payload := [] }, .connectionResend 0 1024, .connectionOpenRetry 0 1024, .messageTransmit 0 4,
    .gateEntryChange 0 4, .eyeMeasure 0 5 0 0 0, .eyeMeasure 0 0 16 0 0, .opticalPowerRead 0 4 0 0, .opticalPowerRead 0 3 5 0, .portDisable 0 0 4 0,
    .idleFlitReceive 0 4 (zeroBytes 256), .idleFlitReceive 0 3 [], .shaperBucketRefill 0 4 none, .laneRetrainEnd 0 4 0 true, .laneRetrainEnd 0 3 5 true,
    .modulePresenceChange 0 4 true true].all (fun i => !i.wf) = true ∧
    [Instr.linkTrain 0 16 3 true true, .tapeBeaconReceive 0 3 (zeroBytes 24), .laneSwap 0 3 3, .messageForward 0 { port := 3, header := zeroBytes 32, payload := [] },
    .connectionResend 0 1023, .eyeMeasure 0 4 15 0 0, .opticalPowerRead 0 3 4 0, .laneRetrainEnd 0 3 4 true].all Instr.wf = true := by decide

/-! ### Values that the manual or a standard gives -/

/-- The check value of CRC-32 for "123456789", a frame's own check, and CRC-32C's. -/
theorem test_crcs : crc32 [0x31, 0x32, 0x33, 0x34, 0x35, 0x36, 0x37, 0x38, 0x39] = 0xCBF43926 ∧
    crc32c [0x31, 0x32, 0x33, 0x34, 0x35, 0x36, 0x37, 0x38, 0x39] = 0xE3069283 := by decide +kernel

/-- SHA-384 of "abc" begins cb00753f45a35e8b (FIPS 180). -/
theorem test_sha384 : (sha384 [0x61, 0x62, 0x63]).take 8 = [0xCB, 0x00, 0x75, 0x3F, 0x45, 0xA3, 0x5E, 0x8B] := by decide +kernel

/-- No row of the table has bits, so no word spells a step. -/
theorem test_decode (n w : Nat) : Sys2Proof.decodeTableWord n w = none := rfl
/-! ### The machine as a whole, registers, the Call Board, faults -/

theorem witness_StepRunsFrontCommand :
    ({ running with pending := [.ppsLapse 5, .leaseLapse 6] } : State).pending = .ppsLapse 5 :: [.leaseLapse 6] ∧ running.pending = [] := by
  decide

theorem witness_StepKeepsInvariant : State.reset.Inv ∧ step State.reset = .next State.reset := by
  refine ⟨⟨by unfold State.WatermarkGiven; decide, ?_, ?_, ?_⟩, rfl⟩ <;> (intro e he; cases he)

theorem witness_OutOfServiceOnlyTimeMoves : State.reset.live = false := by decide

theorem witness_RegisterWritesTurnedAway : (1 ≠ 0 ∧ 255 ≠ 0) ∧ running.live = true ∧ (0x40 < 0xF0000 ∧ 2 ≠ 4) ∧
    (0xEFFFE < 0xF0000 ∧ 0xEFFFE % 4 ≠ 0) ∧ 0x100000 ≤ 0x100000 ∧ (0xF0000 ≤ 0xF0000 ∧ 0xFFFFC < 0x100000) := by decide

theorem witness_RegisterAccess : running.live = true ∧ running.PlainRegister 6 0x044 0xC0 .cue { off := 0x044, w1c := 0xC0 } ∧
    running.PlainRegister 6 0x050 9 .cue { off := 0x050, lk := allBits } ∧ 6 * 4096 + 0x050 < 0xF0000 ∧
    (running.at 5).split? (0x4070 / 4096) (0x4070 % 4096) = some 0 ∧ 7 < 8 := by
  refine ⟨by decide, by constructor <;> decide, by constructor <;> decide, by decide, by decide, by decide⟩

theorem witness_ControlAndEnableWrites : running.live = true ∧ blockAt 10 = some (.top, 0) ∧ blockAt 9 = some (.cal, 0) ∧
    bitOf (1 : Word).toNat 0 = true ∧ bitOf (0 : Word).toNat 0 = false ∧
    (let s : State := { reg running 10 0x010 3 with cal := { phase := .running, maintenance := true } }
     s.live = true ∧ s.cal.maintenance = true ∧ s.quiesced 10 = true) ∧
    running.cal.maintenance = false ∧ bitOf (4 : Word).toNat 2 = true ∧ 10 ∉ [pgFlt, pgCbd, pgSec, pgPrm] ∧ pgPrm ∈ [pgFlt, pgCbd, pgSec, pgPrm] := by
  decide

theorem witness_SoftwareSources : running.live = true := by decide

/-- Vector 0 of PF0 with a timer that runs since 0 and events pending; CBD_VMOD sets TimerUs to 5. -/
def timed : State := { (linked.setRegAt pgCbd 0x054 0 (5 * 65536 + 9)) with
  cbd := { vecs := [(0, { timer := some 0, pending := 2, masked := false })], fns := [(0, { enable := true, mask := false })] } }

theorem witness_CallBoardMessages : timed.live = true ∧ (timed.vec (0 * 2048 + 0)).timer = some 0 ∧ (2 : Word) ≠ 1 ∧
    (0 + timed.vecTimerUs 0 * 1000 ≤ max timed.now 5000 ∧ timed.vecBlocked 0 = false) ∧
    (let s : State := { timed with cxl := {} }
     (s.vec 0).timer = some 0 ∧ s.vecBlocked 0 = true ∧ (s.vec 0).held = false) ∧
    max timed.now 4999 < 0 + timed.vecTimerUs 0 * 1000 ∧
    (let s : State := { timed with cbd := { timed.cbd with vecs := [(0, { held := true, masked := false })] } }
     (s.vec (0 * 2048 + 0)).held = true ∧ (s.cbd.fns.getD 0 {}).mask = false ∧ linkUp s = true ∧ bitOf (s.reg pgCbd 0x040) 0 = true ∧
       (s.vec 0).masked = false) ∧
    (let s : State := { running with cbd := { latched := [(42, 5)] } }
     s.cbd.latched.find? 42 = some 5 ∧ s.cbd.latched.find? 52 = none) := by decide

/-- Software source 992 asserted and routed to PF0's vector 3 and Prompter 2. -/
def sourced : State := { running.setRegAt pgCbd 0x04C 992 0x80000003 with
  cbd := { sw := 1, masks := [(992, 4)], fns := [(0, { enable := true, mask := false })] } }

theorem witness_LevelSources : sourced.live = true ∧ (sourced.asserted 992 = true ∧ isEdgeSource 992 = false ∧ 992 ∉ sourced.cbd.known) ∧
    (bitOf (sourced.route 992) 31 = true ∧ (sourced.prompterFor (sourced.prmMask 992)).isSome = true) ∧
    ({ running with cbd := { sw := 1 } } : State).asserted 992 = true ∧ bitOf (({ running with cbd := { sw := 1 } } : State).route 992) 31 = false ∧
    running.asserted 992 = false ∧ isEdgeSource 42 = true ∧
    (let s : State := { running with cbd := { inPrm := [(992, 7)] } }
     7 < 8 ∧ ∀ e ∈ s.cbd.inPrm, e.2 = 7 → s.asserted e.1 = false) := by decide

/-- A node with one fault message waiting: QueueError of QMG. -/
def faulty : State := running.sendFault pgQmg .queueError 5

theorem witness_FaultMessages : faulty.awake = true ∧ faulty.flt.inbox = [faultMsg running pgQmg .queueError 5 0 false] ∧
    bitOf (faulty.reaction (faultMsg running pgQmg .queueError 5 0 false)) 0 = true ∧
    bitOf (faulty.reaction (faultMsg running pgQmg .queueError 5 0 false)) 4 = false ∧
    bitOf (faulty.reaction (faultMsg running pgPwr .thermalTrip 0 0 false)) 4 = true ∧
    bitOf (0x40000000 : Word).toNat 30 = true ∧ bitOf (0 : Word).toNat 30 = false ∧ running.dom.ftm = false ∧
    (let s : State := { reg running pgFlt 0x090 0x01060001 with dom := { ftm := true } }
     let m : FaultMsg := { w0 := s.reg pgFlt 0x090 ||| 0x08000000, w1 := s.reg pgFlt 0x094, w2 := s.reg pgFlt 0x098, w3 := s.reg pgFlt 0x09C }
     s.live = true ∧ s.dom.ftm = true ∧ m.known = true ∧ m.present = true) := by decide

/-- A node in the fault state since tape time 0, with a Drydown under way. -/
def drying : State := { running with flt := { faulted := true, dryFrom := some 0 } }

theorem witness_DrydownRecoversOrSticks : drying.live = true ∧ bitOf (drying.reg pgFlt 0x040) 0 = true ∧ drying.flt.dryFrom = some 0 ∧
    drying.flt.faulted = true ∧ drying.flt.stuck = false ∧ 0 + drying.reg pgFlt 0x05C * 1000 ≤ (drying.at 100000000).tapeTime ∧
    (drying.flt.recovered.filter fun x => decide ((drying.at 100000000).tapeTime ≤ x + drying.reg pgFlt 0x060 * 1000000)).length < drying.reg pgFlt 0x064 ∧
    (let s : State := { drying with flt := { drying.flt with recovered := [3, 2, 1] } }
     s.reg pgFlt 0x064 ≤ (s.flt.recovered.filter fun x => decide ((s.at 100000000).tapeTime ≤ x + s.reg pgFlt 0x060 * 1000000)).length) ∧
    running.flt.faulted = false ∧ running.flt.chipReset = none ∧ running.flt.lastToggle + 500000 ≤ max running.now 500000 ∧
    bitOf (1 : Word).toNat 0 = true ∧ running.flt.dryFrom = none := by decide

/-- A node with Prompter 7 running and frame 3 issued. -/
def supervised : State := { running with prm := running.prm.set 7 { running := true }, tier := { frames := [(3, 1)] } }

theorem witness_PrompterSupervision : supervised.live = true ∧ 7 < 8 ∧ (supervised.prompter 7).running = true ∧
    (supervised.prompter 7).beat + supervised.reg pgFlt 0x070 * 1000 ≤ max supervised.now 10000000 ∧
    (let s : State := { running with prm := (running.prm.set 7 { running := false, heldFrom := some 0 }) }
     (s.prompter 7).heldFrom.isSome = true) ∧
    supervised.decisionBad 2 3 = true ∧ supervised.decisionBad 2 4 = false := by decide

/-! ### Completions, power, starts, the CXL attachment -/

/-- Module 3 present and lane 15 of the CXL link locked. -/
def measured : State := { linked with cxl := { linked.cxl with width := 16 }, fab := { ports := [{}, {}, {}, { modulePresent := true }] } }

theorem witness_MarginNotices : measured.live = true ∧ 5 < 6 ∧ measured.reg pgPwr 0x210 ≠ 0 ∧ measured.reg pgPwr 0x210 ≤ 65535 ∧ 65535 < 65536 ∧
    (measured.pwr.notices.getD (8 * 2 ^ 20 + 4 * 65536 + 5) {}).raised = false ∧ (reg measured pgPwr 0x210 0).reg pgPwr 0x210 = 0 ∧
    4 < 5 ∧ measured.laneLocked 4 15 = true ∧ measured.reg pgPwr 0x200 ≠ 0 ∧ 3 < 4 ∧ (measured.port 3).modulePresent = true ∧
    signedOf 32 (measured.reg pgPwr 0x208) ≠ 0 ∧ 1 < 2 := by decide

/-- Queue 1 at the last slot of its ring, with command 7 outstanding. -/
def completing : State :=
  having { linked with qmg := { queues := [(1, { state := .enabled, cqBase := 0x1000, cqTail := 15, domain := 1 })] } } (cmdOf (entry 0 []))

theorem witness_Completions : completing.cmd? 7 = some (cmdOf (entry 0 [])) ∧ (cmdOf (entry 0 [])).origin = .queue 1 ∧
    (completing.queue? 1).map (fun v => (v.flrDrop, (v.cqTail + 1) % 2 ^ v.cqLog2)) = some (false, 0) ∧ linkUp completing = true ∧
    Status.ok.carries = true ∧ Status.quota.carries = false ∧ completing.wlk.watermark < 2 ^ 64 := by decide

/-- Temperatures with one sensor at `x`. -/
def temps (x : Int) : List Int := x :: List.replicate 71 40

theorem witness_PowerAndTemperature : running.awake = true ∧ bitOf (running.reg pgPwr 0x040) 2 = true ∧ running.reg pgPwr 0x048 < 1501 ∧
    bitOf ((reg running pgPwr 0x040 3).reg pgPwr 0x040) 2 = false ∧ (temps 100).length = 72 ∧ running.pwr.thermalHigh = false ∧
    (∃ x ∈ temps 90, (running.reg pgPwr 0x054 : Int) ≤ x) ∧ (∀ x ∈ temps 87, x ≤ (running.reg pgPwr 0x054 : Int) - 3) ∧
    running.pwr.overTrip = false ∧ (∃ x ∈ temps 100, (running.reg pgPwr 0x058 : Int) ≤ x) := by decide

/-- A node whose resets are released, with nothing wrong. -/
def released : State := { running with cal := { phase := .running, porLow := false } }

theorem witness_ClocksSuppliesAndPorts : 71 < 72 ∧ released.cal.porLow = false ∧ released.cal.phase ≠ .tripped ∧ released.pwr.sysClkLost = false ∧
    (let s : State := { released with cal := { phase := .held, porLow := false }, pwr := { sysClkLost := true } }
     s.pwr.sysClkLost = true ∧ s.cal.phase ≠ .tripped ∧ s.cal.porLow = false ∧ s.cal.sysLow = false ∧ s.pwr.railsLow = []) ∧ 5 < 6 ∧
    (let s : State := { released with cal := { phase := .held, porLow := false }, pwr := { railsLow := [5] } }
     s.pwr.railsLow = [5] ∧ s.cal.phase ≠ .tripped ∧ s.cal.porLow = false ∧ s.cal.sysLow = false ∧ s.pwr.sysClkLost = false) ∧
    linked.live = true ∧ linkUp linked = true ∧ (1 / 2 + 1 = 1 ∧ 3 / 2 + 1 ≠ 1) ∧
    (let s : State := reg running pgPwr 0x040 7
     bitOf (s.reg pgPwr 0x040) 1 = true ∧ s.mayStop 28 = true ∧ s.worksIn 28 = []) ∧
    running.pwr.i3cAddr = none ∧ running.cal.servedFrom + 1000000000 ≤ max running.now 1000000000 ∧ running.pwr.smbus = false ∧ 127 < 128 ∧
    (let s : State := { running with dom := { fuses := { debugLocked := false } }, dbg := [(9, 77)] }
     s.dom.fuses.debugLocked = false ∧ s.dbg.find? 9 = some 77) ∧ running.dom.fuses.debugLocked = true := by decide

/-- A started node with command 7 an ADMIN WARM_START. -/
def warmAsked : State := having linked (cmdOf (adminEntry 0x90 []))

theorem witness_ResetsBeginStarts : released.cal.phase ≠ .tripped ∧ 3 < 4 ∧
    (let s : State := {}
     s.cal.porLow = true ∧ s.cal.sysLow = false ∧ s.pwr.sysClkLost = false ∧ s.pwr.railsLow = []) ∧
    (let s : State := { cal := { porLow := false, sysLow := true } }
     s.cal.sysLow = true ∧ s.cal.porLow = false ∧ s.pwr.sysClkLost = false ∧ s.pwr.railsLow = [] ∧ s.cal.phase ≠ .tripped) ∧
    (let s : State := { reg released pgCal 0x040 1 with cal := { phase := .running, porLow := false, perstLow := true } }
     s.cal.perstLow = true ∧ s.live = true ∧ bitOf (s.reg pgCal 0x040) 0 = true) ∧
    (let s : State := { released with flt := { chipReset := some 5 } }
     s.live = true ∧ s.flt.chipReset = some 5 ∧ 5 + 10000 ≤ max s.now 10005) ∧
    warmAsked.SubmittedAdmin 7 0x90 (cmdOf (adminEntry 0x90 [])) ∧
    (let s : State := { cal := { phase := .starting true, porLow := false } }
     s.cal.phase = .starting true ∧ s.cal.startFrom + s.reg pgCal 0x054 * 1000000000 < max s.now 900000000001) := by
  refine ⟨by decide, by decide, by decide, by decide, by decide, by decide, ⟨by constructor <;> decide, by decide⟩, by decide⟩

/-- What a cold start finds when everything is sound. -/
def soundStart : ColdStartInput :=
  { romOk := true, imageReasons := [0, 0, 0, 0], imageSvns := [1, 1, 1, 1], imageMeasures := [],
    fwVersion := 1, rootSlot := 0, heartTrained := true, badUnits := [], badArrays := [], unrepairable := [], luns := [], pagesPerBlock := 384,
    planes := 4, blocksPerLun := 0, ratedPE := 3000, factoryBad := [], rates := [], ftlRestored := true, lostUnits := [], calSet := none,
    linkWidth := 16, linkRate := 3, linkCxl := true, linkFlit256 := true, elapsed := 60 * 1000000000, incarnation := 1 }

/-- What a warm start finds when everything is sound. -/
def soundWarm : WarmStartInput :=
  { measuresHeld := true, imageReasons := [0, 0, 0, 0], canariesOk := true, calSet := none, linkWidth := 16,
    linkRate := 3, linkCxl := true, linkFlit256 := true, elapsed := 1000, incarnation := 2 }

theorem witness_StartsEnd :
    (let s : State := { cal := { phase := .starting true, porLow := false } }
     s.cal.phase = .starting true ∧ soundStart.romOk = true ∧ bitsOf s.cal.straps 1 0 ≠ 1 ∧ s.cal.failedStarts < 3 ∧
       3 ≤ soundStart.imageReasons.length ∧ (∀ r ∈ soundStart.imageReasons.take 3, r = 0) ∧ soundStart.elapsed ≤ 60 * 1000000000 ∧
       soundStart.heartTrained = true ∧ soundStart.ftlRestored = true ∧ 60 ≤ regReset pgCal 0x054 ∧
       (∃ r ∈ ({ soundStart with imageReasons := [0, 0, 1] } : ColdStartInput).imageReasons.take 3, r ≠ 0)) ∧
    (let s : State := { cal := { phase := .starting false, porLow := false } }
     s.cal.phase = .starting false ∧ s.cal.tripWait = false ∧ s.sec.recovery = false ∧ 3 ≤ soundWarm.imageReasons.length ∧
       (∀ r ∈ soundWarm.imageReasons.take 3, r = 0) ∧ soundWarm.canariesOk = true ∧ soundWarm.elapsed ≤ s.reg pgCal 0x054 * 1000000000 ∧
       ({ soundWarm with canariesOk := false } : WarmStartInput).canariesOk = false) := by decide

theorem witness_LinkTrainingAndLoss : running.live = true ∧ linkUp running = false ∧ running.cal.perstLow = false ∧ 16 ∈ [4, 8, 16] ∧
    1 ≤ 3 ∧ 3 ≤ 3 ∧ running.cxl.lastTrain + 100000000 ≤ max running.now 100000000 ∧ (2 ∉ [4, 8, 16] ∨ 0 = 0 ∨ 3 < 4) ∧
    linkUp linked = true ∧ bitOf (linked.reg pgCxl 0x040) 0 = true ∧ bitOf ((reg linked pgCxl 0x040 0).reg pgCxl 0x040) 0 = false := by decide

/-- The link up in CXL mode with its stream for CXL.io secured and a finished session 1 on DOE. -/
def secured : State := { linked with cxl := { linked.cxl with ideIo := true }, sec := { sessions := [(1, { path := .doe, finished := true })] } }

theorem witness_LinkFunctionReset : secured.live = true ∧ 1 ≤ 255 ∧ 255 ≤ 255 ∧
    (completing.queue? 1).map (fun w => w.fn) = some 0 ∧ (255 * 2048 + 2047) / 2048 = 255 ∧ 254 * 2048 / 2048 ≠ 255 ∧ linkUp secured = true ∧
    secured.winBytes ≠ secured.winBytes + 1 ∧ 2 ≠ 1 ∧ secured.cxl.doeBusy.getD 0 false = false ∧ secured.cxl.doeBusy.getD 2 false = false ∧
    secured.sec.sessions.find? 1 = some { path := .doe, finished := true } ∧ secured.cxl.ideIo = true ∧ 2 < 3 := by decide

/-- A node with a window of 256 MiB open to CXL.mem. -/
def open_ : State := { reg linked (pgHmc 0) 0x054 65536 with cxl := { mode := 3, committed := true } }

theorem witness_MemRequests : open_.memOpen 0xFFFFFFF = true ∧ open_.ideShut = false ∧ 0xFFFFFFF < open_.winBytes ∧
    0xFFFFFFF / 64 * 64 / 64 ∉ open_.tier.badBlocks ∧ open_.winBytes ≤ 0x10000000 ∧ open_.memOpen 0x10000000 = true ∧
    (let s : State := { open_ with cxl := { open_.cxl with ideMem := false }, sec := open_.sec }
     s.memOpen 0 = true) ∧ (zeroBytes 64).length = 64 ∧ (List.replicate 64 true).length = 64 := by decide

/-- A node on which stack 7 has asked for many outer corrections. -/
def worn : State := { running with tier := { stackList := running.tier.stackList.set 7 { outerIn := 10001 } } }

theorem witness_ScrubsAndWear : worn.live = true ∧ worn.accepts pgTop = true ∧ bitOf (worn.reg pgTop 0x040) 0 = true ∧ [5] ≠ [] ∧ 7 < 8 ∧
    bitOf (worn.reg (pgHmc 7) 0x010) 0 = true ∧ worn.flt.resets.has (pgHmc 7) = false ∧ bitOf (worn.reg (pgHmc 7) 0x040) 1 = true ∧
    worn.reg (pgHmc 7) 0x04C ≠ 0 ∧ worn.reg (pgHmc 7) 0x04C < (worn.stack 7).outerIn ∧ bitOf (worn.reg (pgHmc 7) 0x040) 0 = true := by decide

theorem witness_MemOutOfRange : open_.memLink = true ∧ open_.ideShut = false ∧ open_.winBytes ≤ 0x10000000 := by decide

theorem witness_MemPoison : open_.memOpen 0xFFFFFFF = true ∧ open_.ideShut = false ∧ 0xFFFFFFF < open_.winBytes := by decide

/-! ### The Tape, cues, domains, queues -/

/-- A TAPE_SER frame of domain 0 at a position and a tape time. -/
def serFrame (pos time : Nat) : List Byte :=
  let b := bytesOf 28 [(0, 2, 0x7A46), (2, 1, 0x10), (8, 8, pos), (16, 8, time)]
  b ++ natLE 4 (crc32 b)

/-- A node that has TAPE_SER in force at position 100 and may transmit beacons on port 3. -/
def taped : State := { (reg (reg running pgCue 0x040 0x3F) pgCue 0x058 (100 + 2 ^ 19)) with
  cue := { tape := { tracked := some .ser, pos := 100, ser := { lastValid := some 0, streak := 5 } } },
  fab := { ports := [{}, {}, {}, { up := true }] } }

/-- The same, with a beacon of port 3 heard lately. -/
def backed : State := { taped with cue := { tape := { taped.cue.tape with beacons := [(3, { lastValid := some 5000000, grade := 2 })] } } }

theorem witness_Tape :
    (let s : State := reg running pgCue 0x040 0x0F
     s.live = true ∧ serFrameOk (serFrame 100 5) = true ∧ fieldAt (serFrame 100 5) 4 4 = s.reg pgCue 0x050 ∧ cueCtrl s 1 = true ∧
       cueCtrl s 4 = false ∧ s.cue.tape.tracked = none ∧ s.cue.tape.pos ≤ fieldAt (serFrame 100 5) 8 8) ∧
    fieldAt (serFrame 99 5) 8 8 < taped.cue.tape.pos ∧ serFrameOk (zeroBytes 32) = false ∧
    fieldAt (serFrame 100 5) 4 4 ≠ (reg taped pgCue 0x050 1).reg pgCue 0x050 ∧
    (let s : State := { taped with cue := {} }
     let p : List Byte := bytesOf 24 [(0, 8, 7), (8, 8, 9), (20, 1, 6)]
     (s.port 3).up = true ∧ fieldAt p 16 4 = s.reg pgCue 0x050 ∧ fieldAt p 20 1 < 7 ∧ cueCtrl s 2 = true ∧ s.cue.tape.tracked = none ∧
       s.cue.tape.pos ≤ fieldAt p 0 8) ∧
    max taped.now 499999999 < 0 + 500000000 ∧ (∀ p ∈ some 0, p + 500000000 ≤ max taped.now 500000000) ∧
    1000 < ((nearestSecond (taped.at 1001).tapeTime : Int) - (taped.at 1001).tapeTime).natAbs ∧
    ((nearestSecond (taped.at 1000).tapeTime : Int) - (taped.at 1000).tapeTime).natAbs ≤ 1000 ∧
    ((taped.at 5000000).sourceHealthy .ser 0 = false ∧ (taped.at 5000000).mostTrusted = none) ∧
    ((backed.at 5000000).sourceHealthy .ser 0 = false ∧ (backed.at 5000000).mostTrusted = some (.beacon, 3)) ∧
    ((taped.at 5).ppsFresh = false ∧ cueCtrl taped 4 = true ∧ (taped.at 5).mostTrusted = none) ∧
    (let s : State := { taped with cue := { tape := { taped.cue.tape with lastPps := some 0 } } }
     (s.at 1100000000).ppsFresh = true ∧ (s.at 1100000001).ppsFresh = false) ∧
    (taped.beaconGrade = some 0 ∧ cueCtrl taped 5 = true ∧ 3 < 4 ∧ bitsOf (taped.reg pgCue 0x058) 19 16 = 2 ^ 3 ∧ (taped.port 3).up = true ∧
      taped.cue.tape.lastBeacon + max 10 (bitsOf (taped.reg pgCue 0x058) 15 0) * 1000 ≤ max taped.now 100000 ∧
      max taped.now 99999 < taped.cue.tape.lastBeacon + max 10 (bitsOf (taped.reg pgCue 0x058) 15 0) * 1000) := by decide +kernel

/-- A node at position 100 whose entry 9 is an action of domain 0 due at position 100. -/
def cued (action arg : Nat) (period : Nat := 0) : State := { (reg running pgCue 0x040 1) with
  cue := { tape := { tracked := some .ser, pos := 100 },
           entries := [(9, { version := 0x10, trigger := if period = 0 then 1 else 3, action := action, flags := 1, value := 100, arg := arg, period := period })] } }

/-- Domain 0, Active with every class, and these. -/
def withDoms (s : State) (ds : Table Domain) : State :=
  { s with dom := { s.dom with doms := (0, { state := .active, privs := 0x1F, quotaHeart := 100, cueQuota := 4 }) :: ds } }

/-- The entry and the state at which a statement about cues looks. -/
abbrev Due (s : State) (action : Nat) : Prop :=
  (s.at 0).mayFire = true ∧ (((s.at 0).nextCue).map fun e => (e.1, e.2.holds, e.2.owner, e.2.action)) = some (9, none, 0, action) ∧
    (s.domain 0).state = .active

/-- Collection 3 of domain 0, with a Sealed segment and snapshots of positions up to 50. -/
def holding (s : State) (c : Coll) : State := { s with
  wlk := { s.wlk with colls := [(3, c)] }, dom := { doms := [(0, { state := .active, privs := 0x1F, quotaHeart := 100, cueQuota := 4 })] } }

theorem witness_CuesAct : Due (cued 7 12) 7 ∧ Due (cued 3 0 300) 3 ∧ Due (cued 4 0x103) 4 := by decide

/-- A collection with a snapshot. -/
def snapped : Coll := { owner := 0, snapshots := [50] }

/-- A collection with a Sealed segment. -/
def sealed1 : Coll := { owner := 0, segs := [(0, { state := .sealed, seq := 0, slots := [] })] }

theorem witness_CuesAct_collections :
    (Due (holding (cued 1 3) snapped) 1 ∧ (holding (cued 1 3) snapped).openColl? 3 = some snapped ∧ snapped.horizon ≤ 100) ∧
    (Due (holding (cued 2 3) sealed1) 2 ∧ ((holding (cued 2 3) sealed1).takeHeart 0 sealed1.entranceExtents).2 = true ∧
      (holding (cued 2 3) sealed1).coll? 3 = some sealed1 ∧ sealed1.entering = none) := by decide

/-- Table 5 with versions 1 and 2, version 1 current. -/
def twoVersions : Tab := { owner := 0, kind := 1, elems := 4, vers := [(0, { num := 1 }), (1, { num := 2 })] }

/-- A node whose cue switches table 5 to version 2. -/
def switching : State := { cued 3 (5 + 2 * 2 ^ 32) with gth := { tables := [(5, twoVersions)] } }

theorem witness_CuesAct_tableSwitch : Due switching 3 ∧ switching.openTab? (bitsOf (5 + 2 * 2 ^ 32) 31 0) = some twoVersions ∧
    twoVersions.kind ≠ 2 ∧ twoVersions.switchers = [] ∧ switching.accepts pgGth = true ∧
    List.find? (fun x => x.2.num == bitsOf (5 + 2 * 2 ^ 32) 63 32 && !x.2.dropped) twoVersions.vers = some (1, { num := 2 }) ∧
    1 ≠ twoVersions.current ∧ switching.switchBlocked 5 1 switching.qmg.nextCid = false := by decide

theorem witness_CuesAct_windowsAndQuotas :
    (Due (cued 5 (50 * 65536 + 0x2000 + 31)) 5 ∧ bitsOf (50 * 65536 + 0x2000 + 31) 15 0 = 0x2000 + 31 ∧ 31 < 32 ∧
      bitsOf (50 * 65536 + 0x2000 + 31) 31 16 = 50) ∧
    (Due (cued 6 (12 + 0x1000 + 2 ^ 32)) 6 ∧ bitsOf (12 + 0x1000 + 2 ^ 32) 13 12 = 1 ∧
      (((cued 6 0).dom.doms.filter fun x => x.1 != 12).map fun x => x.2.quotaHeart).sum + bitsOf (12 + 0x1000 + 2 ^ 32) 63 32 ≤ (cued 6 0).heartAllocatable) := by decide

theorem witness_CuesAct_domains :
    (Due (withDoms (cued 7 12) [(12, { state := .inactive })]) 7 ∧ 12 < (cued 7 12).dom.fuses.maxDomains ∧
      ((withDoms (cued 7 12) [(12, { state := .inactive })]).domain 12).state = .inactive) ∧
    (Due (withDoms (cued 8 12) [(12, { state := .active })]) 8 ∧ ((withDoms (cued 8 12) [(12, { state := .active })]).domain 12).state = .active) := by
  decide

/-- Command 7 of `s` is `k` of opcode `op`, admitted by a node in service. -/
abbrev Asked (s : State) (op : Nat) (k : Cmd) : Prop :=
  s.live = true ∧ s.cmd? 7 = some k ∧ k.warm = none ∧ k.phase = .admitted ∧ cmdOpcode k.raw = op

/-- Command 7 of `s` is `k`, an ADMIN of AdminOp `op`. -/
abbrev AskedAdmin (s : State) (op : Nat) (k : Cmd) : Prop := Asked s 0x38 k ∧ cmdAdminOp k.raw = op

theorem asked_submitted {s : State} {op : Nat} {k : Cmd} (h : Asked s op k) : s.Submitted 7 op k := ⟨h.1, h.2.1, h.2.2.1, h.2.2.2.1, h.2.2.2.2⟩

theorem asked_submittedAdmin {s : State} {op : Nat} {k : Cmd} (h : AskedAdmin s op k) : s.SubmittedAdmin 7 op k := ⟨asked_submitted h.1, h.2⟩

/-- An ADMIN command that names domain 4,095. -/
def forDomain (op : Nat) (fs : List (Nat × Nat × Nat)) : Cmd := cmdOf (adminEntry op ((8, 2, 4095) :: fs))

/-- Command 7 is `k`; domain 4,095 stands in `st`. -/
def inDomain (k : Cmd) (st : DomState) (retirers : List Nat := []) : State := having (withDoms linked [(4095, { state := st, retirers := retirers })]) k

/-- The window descriptor of domain 4,095, at address 0x1000 of host memory. -/
def described (s : State) : State := { s with host := s.host.writeN 0x1000 (bytesOf 32 [(0, 1, 0x10), (2, 2, 4095), (4, 2, 7), (6, 2, 9)]) }

theorem witness_DomainCommands_define :
    let k := forDomain 0x10 [(24, 8, 0x1000)]
    AskedAdmin (described (inDomain k .absent)) 0x10 k ∧ domOf k < running.dom.fuses.maxDomains ∧ ((inDomain k .absent).domain 4095).state ≠ .retiring ∧
      (described (inDomain k .absent)).defineRefusal 4095 (((described (inDomain k .absent)).at 0).cmdRead k 0x1000 32) = none ∧
      (inDomain k .absent).defineRefusal 4095 (zeroBytes 32) = some .version := by decide

theorem witness_DomainCommands_states :
    (AskedAdmin (inDomain (forDomain 0x11 []) .inactive) 0x11 (forDomain 0x11 []) ∧ domOf (forDomain 0x11 []) = 4095 ∧
      ((inDomain (forDomain 0x11 []) .inactive).domain 4095).state = .inactive) ∧
    (AskedAdmin (inDomain (forDomain 0x11 []) .retiring) 0x11 (forDomain 0x11 []) ∧ ((inDomain (forDomain 0x11 []) .retiring).domain 4095).state = .retiring) ∧
    (AskedAdmin (inDomain (forDomain 0x12 []) .active) 0x12 (forDomain 0x12 []) ∧ ((inDomain (forDomain 0x12 []) .active).domain 4095).state = .active ∧
      (inDomain (forDomain 0x12 []) .active).cue.entries = []) ∧
    (AskedAdmin (having running (cmdOf (adminEntry 0x12 []))) 0x12 (cmdOf (adminEntry 0x12 [])) ∧ domOf (cmdOf (adminEntry 0x12 [])) = 0) ∧
    (((inDomain (forDomain 0x12 []) .retiring [7]).domain 4095).state = .retiring ∧
      (inDomain (forDomain 0x12 []) .retiring [7]).qmg.cmds.any (fun e => e.2.domain == 4095) = false ∧
      ((inDomain (forDomain 0x12 []) .retiring [7]).domain 4095).retirers = [7]) ∧
    (AskedAdmin (inDomain (forDomain 0x13 []) .inactive) 0x13 (forDomain 0x13 []) ∧ (∀ n ∈ (inDomain (forDomain 0x13 []) .inactive).owned 4095, n = 0) ∧
      ((inDomain (forDomain 0x13 []) .inactive).domain 4095).usedTop = 0 ∧ ((inDomain (forDomain 0x13 []) .inactive).domain 4095).usedHeart = 0 ∧
      ((inDomain (forDomain 0x13 []) .inactive).domain 4095).usedBase = 0) ∧
    AskedAdmin (inDomain (forDomain 0x16 []) .inactive) 0x16 (forDomain 0x16 []) := by decide

theorem witness_DomainCommands_grants :
    (AskedAdmin (inDomain (forDomain 0x14 [(49, 1, 0x1F)]) .inactive) 0x14 (forDomain 0x14 [(49, 1, 0x1F)]) ∧
      ((inDomain (forDomain 0x14 [(49, 1, 0x1F)]) .inactive).domain 4095).state ≠ .absent ∧
      fieldAt (forDomain 0x14 [(49, 1, 0x1F)]).raw 49 1 &&& (255 - running.dom.fuses.grantable) = 0) ∧
    AskedAdmin (inDomain (forDomain 0x15 [(49, 1, 0xFF)]) .inactive) 0x15 (forDomain 0x15 [(49, 1, 0xFF)]) ∧
    (AskedAdmin (having running (cmdOf (adminEntry 0x15 []))) 0x15 (cmdOf (adminEntry 0x15 [])) ∧ (running.domain 0).state ≠ .absent) ∧
    (AskedAdmin (inDomain (forDomain 0x18 [(49, 1, 1)]) .inactive) 0x18 (forDomain 0x18 [(49, 1, 1)]) ∧
      ((running.dom.doms.filter fun e => e.1 != 4095).map fun e => e.2.quota 1).sum + 0 ≤ running.allocatable 1) ∧
    (AskedAdmin (inDomain (forDomain 0x18 [(52, 4, 0xFFFFFFFF)]) .inactive) 0x18 (forDomain 0x18 [(52, 4, 0xFFFFFFFF)]) ∧
      running.allocatable 0 < fieldAt (forDomain 0x18 [(52, 4, 0xFFFFFFFF)]).raw 52 4) := by decide

/-- RAW_ALLOC on stack 7 for domain 0, RAW_FREE of extent 11, RULE_WRITE and RULE_DELETE of rule 65,535. -/
def rawAllocCmd : Cmd := cmdOf (adminEntry 0x1C [(49, 1, 7)])
def rawFreeCmd : Cmd := cmdOf (adminEntry 0x1D [(8, 4, 11)])
def ruleWriteCmd : Cmd := cmdOf (adminEntry 0x58 [(24, 8, 0x1000)])
def ruleDeleteCmd : Cmd := cmdOf (adminEntry 0x59 [(52, 2, 65535)])

/-- A node that holds raw extent 11, with command 7. -/
def rawHeld (k : Cmd) : State := having { withDoms linked [] with tier := { raw := [(11, 0)] } } k

/-- A node with one band of raw extents a stack. -/
def banded (s : State) : State := reg s (pgHmc 0) 0x050 65536

theorem witness_RawExtentsAndRules_extents :
    (AskedAdmin (banded (having (withDoms linked []) rawAllocCmd)) 0x1C rawAllocCmd ∧ fieldAt rawAllocCmd.raw 49 1 = 7 ∧ ((withDoms linked []).domain 0).state = .active ∧
      bitOf ((withDoms linked []).privs 0) 0 = true ∧ ((withDoms linked []).domain 0).usedHeart < ((withDoms linked []).domain 0).quotaHeart ∧
      ((banded (having (withDoms linked []) rawAllocCmd)).freeRaw 7).isSome = true) ∧
    bitOf ((withDoms linked [(1, { state := .active })]).privs 1) 0 = false ∧
    ((linked.domain 0).state = .active ∧ (linked.domain 0).quotaHeart ≤ (linked.domain 0).usedHeart) ∧
    (AskedAdmin (rawHeld rawFreeCmd) 0x1D rawFreeCmd ∧ (rawHeld rawFreeCmd).tier.raw.find? (fieldAt rawFreeCmd.raw 8 4) = some 0 ∧
      (rawHeld rawFreeCmd).rawBusy 11 = false) := by decide

/-- The same with a raw run at work in the extent. -/
def rawInUse : State := { rawHeld rawFreeCmd with
  pnm := { runs := [(0, { cid := 3, stack := 0, pseudo := 0, mask := 1, extent := 11, fp := false, instrs := [], payload := [], rowList := [],
                          rowStep := 0, maxEmits := 0, worst := 0, segs := [] })] } }

/-- Rule 1,023 of domain 0, of collection 3 over itself. -/
def ruleBytes : List Byte := bytesOf 64 [(0, 1, 0x10), (1, 1, 2), (2, 2, 1023), (4, 4, 3), (8, 4, 3), (13, 1, 64), (14, 2, 1024), (28, 2, 64), (30, 2, 1024)]

/-- The rule in host memory, its collection with a label field 0. -/
def ruled : State :=
  having { holding linked { owner := 0, schema := bytesOf 32 [(0, 1, 3), (2, 1, 1)] } with host := Memory.writeN [] 0x1000 ruleBytes } ruleWriteCmd

theorem witness_RawExtentsAndRules_rules : rawInUse.rawBusy 11 = true ∧
    (AskedAdmin ruled 0x58 ruleWriteCmd ∧ ruled.ruleRefusal 0 ((ruled.at 0).cmdRead ruleWriteCmd (cmdPtrA ruleWriteCmd.raw) 64) = none) ∧
    (AskedAdmin (having running ruleDeleteCmd) 0x59 ruleDeleteCmd ∧ fieldAt ruleDeleteCmd.raw 8 2 * 65536 + fieldAt ruleDeleteCmd.raw 52 2 = 65535 ∧
      ({ running with dom := { rules := [(65535, [])] } } : State).dom.rules.has 65535 = true ∧ running.dom.rules.has 65535 = false) := by decide +kernel

/-- Queue 4,095 of domain 0 at PF0's page 0 and queue 3 on a virtual function, the first with one entry at 0x2000. -/
def queued (e : List Byte) : State := { (withDoms linked []) with
  host := Memory.writeN [] 0x2000 e,
  fab := { expiry := 1 },
  qmg := { queues := [(3, { state := .enabled, fn := 255, page := 63, sqTail := 15, cqTail := 5 }), (7, { state := .stopped }),
                      (4095, { state := .enabled, sqBase := 0x2000, cqBase := 0x3000, sqTail := 1 })], rrAt := 3 } }

theorem witness_Queues_doorbells :
    (queued (entry 0x20 [])).live = true ∧ (queued (entry 0x20 [])).ideShut = false ∧
    (queued []).bellQueue 255 63 = some (3, { state := .enabled, fn := 255, page := 63, sqTail := 15, cqTail := 5 }) ∧ 15 % 65536 < 2 ^ 4 ∧ 2 ^ 4 ≤ 16 % 65536 ∧ (4 + 2 ^ 4 - 0) % 2 ^ 4 ≤ (5 + 2 ^ 4 - 0) % 2 ^ 4 ∧ 4 ≠ 5 ∧
    ((queued []).bellQueue 0 7).map (fun e => e.2.state) = some .stopped := by decide

theorem witness_Queues_fetch :
    (let s := queued (entry 0x00 [])
     s.mayFetch = true ∧ ((s.at 0).nextQueue).map (fun e => e.1) = some 4095 ∧
       ∀ x, (s.at 0).nextQueue = some x → (s.at 0).nextEntry x.2.1 = entry 0x00 []) ∧
    cmdFormat (entry 0x00 []) = 1 ∧ opcodes.contains (cmdOpcode (entry 0x38 [(48, 1, 1)])) = true ∧ cmdOpcode (entry 0x38 [(48, 1, 1)]) ≠ 0x20 ∧
    cmdClass (entry 0x38 [(48, 1, 1)]) < 8 ∧ ({ origin := .queue 4095, domain := 0, raw := entry 0x38 [(48, 1, 1)] } : Cmd).reservedForm = false ∧
    ((queued []).at 0).domRefusal { origin := .queue 4095, domain := 0, raw := entry 0x38 [(48, 1, 1)] } = none ∧
    running.cal.maintenance = false ∧ running.sec.recovery = false ∧ ((queued []).at 0).leaseHeld = true ∧
    cmdFormat (entry 0x00 [(2, 1, 0x20)]) ≠ 1 ∧ [0x08, 0x09, 0x0A].contains (cmdOpcode (entry 0x00 [])) = false := by decide +kernel

/-- QUEUE_CREATE of queue 4,095 for domain 0 on virtual function 255. -/
def createCmd : Cmd :=
  cmdOf (adminEntry 0x01 [(8, 2, 4095), (12, 1, 255), (13, 1, 63), (24, 8, 0x1000), (32, 8, 0x2000), (49, 1, 16), (50, 1, 4), (51, 1, 16), (52, 2, 63)])

/-- The queue it asks for. -/
def created : Queue :=
  { state := .enabled, fn := 255, page := 63, sqBase := 0x1000, cqBase := 0x2000, sqLog2 := 16, cqLog2 := 4, weight := 16, vector := 63 }

theorem witness_Queues_create : AskedAdmin (having (withDoms linked []) createCmd) 0x01 createCmd ∧ fieldAt createCmd.raw 8 2 = 4095 ∧
    fieldAt createCmd.raw 10 2 < linked.dom.fuses.maxDomains ∧ (having (withDoms linked []) createCmd).queue? 4095 = none ∧
    ((having (withDoms linked []) createCmd).domain 0).state = .active ∧ created.ringsOk = true ∧ 1 ≤ created.weight ∧ created.weight ≤ 16 ∧
    (1 ≤ created.fn ∧ created.fn ≤ linked.cxl.vfs ∧ created.page < 64 ∧ created.vector < 64) ∧
    (∀ e ∈ (having (withDoms linked []) createCmd).qmg.queues, e.2.fn = created.fn → e.2.page ≠ created.page) ∧
    linked.granted createCmd.view 0 ⟨created.sqBase, 64 * 2 ^ created.sqLog2, false⟩ = true ∧
    linked.granted createCmd.view 0 ⟨created.cqBase, 32 * 2 ^ created.cqLog2, false⟩ = true := by decide

/-- A command on queue 4,095, and the state in which it is command 7. -/
def onQueue (k : Cmd) : State := { queued [] with qmg := { (queued []).qmg with cmds := [(5, cmdOf (entry 0x19 [(4, 4, 77)])), (7, k)] } }

theorem witness_Queues_drain :
    (let k := cmdOf (adminEntry 0x02 [(8, 2, 4095)])
     AskedAdmin (onQueue k) 0x02 k ∧ fieldAt k.raw 8 2 = 4095 ∧ k.origin ≠ .queue 4095 ∧ ((onQueue k).queue? 4095).map (·.draining) = some none) ∧
    (let k := cmdOf (adminEntry 0x03 [(8, 2, 4095)])
     AskedAdmin (onQueue k) 0x03 k) ∧
    (let q : Queue := { draining := some 7 }
     let s : State := { onQueue (cmdOf (adminEntry 0x02 [])) with qmg := { (onQueue (cmdOf (adminEntry 0x02 []))).qmg with queues := [(1, {}), (4095, q)] } }
     s.live = true ∧ s.queue? 4095 = some q ∧ q.resetting = false ∧ s.outstanding 4095 = [] ∧ (s.cmd? 7).isSome = true) ∧
    ({ draining := some 7, resetting := true } : Queue).resetting = true := by decide

theorem witness_Queues_curtain :
    (let k := cmdOf (entry 0x20 [])
     Asked (having linked k) 0x20 k ∧ (∀ e ∈ (having linked k).qmg.cmds, e.1 < 7 → e.2.origin = k.origin → ((having linked k).cueHolding e.1).isSome = true) ∧
       Asked (onQueue k) 0x20 k ∧ ∃ e ∈ (onQueue k).qmg.cmds, e.1 < 7 ∧ e.2.origin = k.origin ∧ ((onQueue k).cueHolding e.1).isNone = true) := by decide

theorem witness_Queues_abort :
    (let k := cmdOf (entry 0x21 [(8, 2, 1), (48, 4, 77)])
     let x := cmdOf (entry 0x19 [(4, 4, 77)])
     Asked (onQueue k) 0x21 k ∧ k.domain = 0 ∧ (onQueue k).abortTarget (fieldAt k.raw 8 2) (fieldAt k.raw 48 4) = some (5, x) ∧
       (onQueue k).cmd? 5 = some x ∧ x.phase = .admitted ∧ cmdOpcode x.raw = 0x19 ∧ (onQueue k).cueHolding 5 = none ∧ x.origin = .queue 1) ∧
    (let s : State := { onQueue (cmdOf (entry 0x21 [])) with qmg := { queues := [(1, {})], cmds := (onQueue (cmdOf (entry 0x21 []))).qmg.cmds } }
     (s.queue? 1).isSome = true ∧ s.abortTarget 9 9 = none) := by decide

theorem witness_CueCommands :
    (let k := cmdOf (adminEntry 0x60 [(52, 2, 4095)])
     let s := having { linked with host := Memory.writeN [] 0 (bytesOf 32 [(0, 1, 0x10), (1, 1, 4), (2, 1, 8), (3, 1, 1), (16, 8, 10000)]) } k
     AskedAdmin s 0x60 k ∧ fieldAt k.raw 52 2 = 4095 ∧ (entryOf ((s.at 0).cmdRead k (cmdPtrA k.raw) 32)).refusal = none ∧
       (s.cueEntry 4095).holds = none ∧ (entryOf (bytesOf 32 [(1, 1, 1)])).refusal = some .version) ∧
    4096 ≤ fieldAt (adminEntry 0x60 [(52, 2, 4096)]) 52 2 ∧
    (let k : Cmd := { cmdOf (entry 0x0B [(8, 4, 3), (16, 8, 101)]) with classes := 0x10 }
     let s := having (holding (cued 7 12) { owner := 0 }) k
     Asked s 0x0B k ∧ s.accepts pgWlk = true ∧ s.tapePos < cmdPos k.raw ∧ bitOf k.classes 4 = true ∧
       s.cuesOf k.domain < (s.domain k.domain).cueQuota ∧ s.freeCue = some 0) := by decide +kernel

/-! ### Collections and searches -/

/-- A small collection of domain 0 with two items in its tail. -/
def tailed : Coll :=
  { owner := 0, navDim := 64, extents := 2, horizon := 5, tail := [0, 1], nextSlot := 2,
    slots := [(0, { key := 10, ins := 5 }), (1, { key := 11, ins := 6, enteredAt := 50 })] }

/-- Collection 3 is `c`, source 255 is Active and has left positions up to 9, and command 7 is `k`. -/
def mutating (c : Coll) (k : Cmd) : State :=
  having { holding linked c with wlk := { colls := [(3, c)], sources := [(255, { active := true, w := 9, domains := zeroBytes 512 })], wasActive := true } } k

/-- A mutation of one item at a position. -/
def mutation (op pos : Nat) (flags : Nat := 0) : Cmd :=
  cmdOf (entry op [(1, 1, flags), (8, 4, 3), (12, 2, 255), (16, 8, pos), (24, 8, 0x1000), (32, 8, 0x2000), (48, 4, 1)])

/-- What every clause about mutations asks of the node. -/
abbrev MayMutate (op pos : Nat) : Prop :=
  let k := mutation op pos
  let s := mutating tailed k
  Asked s op k ∧ s.mutEarlier 7 k = false ∧ s.coll? (mutColl k.raw) = some tailed ∧ (s.source? (mutSource k.raw)).map (·.w) = some 9 ∧
    mutCount k.raw ≤ 65536 ∧ k.progress = 0

theorem witness_Mutations : MayMutate 0x08 4 ∧ 4 < tailed.horizon ∧ MayMutate 0x09 9 ∧ tailed.horizon ≤ 9 ∧ 9 ≤ 9 ∧ MayMutate 0x0A 10 ∧ 9 < 10 := by
  decide +kernel

theorem witness_Mutations_stamped :
    let k := mutation 0x0A 10
    let s := mutating tailed k
    (s.at 0).itemList tailed k = [zeroBytes 192] ∧ tailed.slots.length + 1 < 2 ^ 32 ∧ tailed.tailAged (s.at 0).tapeTime = false ∧
      tailed.tail.length + 1 < tailed.sealAt ∧ 1 ≤ tailed.sealAfter ∧ tailed.segCount < tailed.compactAt ∧ s.fab.repls.find? (mutColl k.raw) = none ∧
      (s.at 0).growColl tailed (tailed.slots.length + tailed.slotsNeeded 0x0A 255 10 [tailed.itemOf 0x0A (zeroBytes 192)]) = (s.at 0, tailed, true) ∧
      bitOf (cmdFlags k.raw) 0 = false ∧ bitOf (cmdFlags (mutation 0x0A 10 1).raw) 0 = true := by
  decide +kernel

/-- Two segments that are being merged, and a tail. -/
def merging : Coll :=
  { tailed with merging := some (0, 1), nextSeg := 2,
                segs := [(0, { state := .compacting, seq := 4, slots := [5] }), (1, { state := .building, seq := 9, slots := [6] })] }

theorem witness_Wings :
    (let s := holding linked merging
     s.live = true ∧ s.coll? 3 = some merging ∧ merging.tail ≠ [] ∧ merging.segCount < 256 ∧
       merging.tailAged (s.at 50000000).tapeTime = true ∧ merging.merging.isSome = true) ∧
    (tailed.tailFull = false ∧ tailed.tailAged (linked.at 49999999).tapeTime = false ∧ tailed.segCount < tailed.compactAt) ∧
    (merging.segs.find? 1 = some { state := .building, seq := 9, slots := [6] } ∧ (merging.segs.find? 0).isSome = true) ∧
    ({ merging with tail := [] } : Coll).tail = [] ∧
    (let k := cmdOf (entry 0x0B [(8, 4, 3)])
     let s := having (holding linked sealed1) k
     Asked s 0x0B k ∧ s.accepts pgWlk = true ∧ fieldAt k.raw 8 4 = 3 ∧ cmdPos k.raw ≤ s.tapePos ∧ sealed1.entering = none ∧
       ((s.at 0).takeHeart sealed1.owner sealed1.entranceExtents).2 = true) ∧
    ({ sealed1 with entering := some (some 7, 0, 0) } : Coll).entering.isSome = true := by
  decide +kernel

/-- COLLECTION_CREATE of collection 3, its descriptor at 0x1000 and its schema at 0x2000. -/
def createColl : Cmd := cmdOf (adminEntry 0x50 [(8, 4, 3), (24, 8, 0x1000), (32, 8, 0x2000)])

/-- The descriptor: 64 dimensions, degree 64, for domain 0. -/
def collDesc : List Byte := bytesOf 64 [(0, 1, 0x10), (2, 1, 64), (4, 2, 64)]

/-- Command 7 is COLLECTION_CREATE, its areas in host memory. -/
def creating : State := having { withDoms linked [] with host := Memory.writeN [] 0x1000 collDesc } createColl

theorem witness_CollectionsAndSources_create :
    AskedAdmin creating 0x50 createColl ∧ collDesc = (creating.at 0).cmdRead createColl (cmdPtrA createColl.raw) 64 ∧ fieldAt collDesc 0 1 / 16 = 1 ∧
      fieldAt collDesc 10 2 < creating.dom.fuses.maxDomains ∧ creating.coll? 3 = none ∧ (creating.domain 0).state = .active ∧
      (collOf collDesc (zeroBytes 32) 0).inRange = true ∧ schemaOk (zeroBytes 32) = true ∧ (creating.takeHeart 0 1).2 = true ∧
      ((having (holding linked tailed) createColl).coll? 3).isSome = true := by
  decide +kernel

/-- Command 7 is an ADMIN on collection 3 that is `c`. -/
def onColl (c : Coll) (op : Nat) (fs : List (Nat × Nat × Nat)) : State := having (holding linked c) (cmdOf (adminEntry op ((8, 4, 3) :: fs)))

theorem witness_CollectionsAndSources_commands :
    ((onColl snapped 0x51 []).openColl? 3 = some snapped ∧ AskedAdmin (onColl snapped 0x51 []) 0x51 (cmdOf (adminEntry 0x51 [(8, 4, 3)]))) ∧
    AskedAdmin (onColl snapped 0x52 []) 0x52 (cmdOf (adminEntry 0x52 [(8, 4, 3)])) ∧
    (AskedAdmin (onColl snapped 0x53 [(16, 8, 50)]) 0x53 (cmdOf (adminEntry 0x53 [(8, 4, 3), (16, 8, 50)])) ∧
      cmdPos (adminEntry 0x53 [(8, 4, 3), (16, 8, 50)]) ∈ snapped.snapshots) ∧
    (let s : State := { onColl snapped 0x43 [(12, 4, 9)] with bft := { volumes := [(9, { owner := 0, gib := 1 })] } }
     AskedAdmin s 0x43 (cmdOf (adminEntry 0x43 [(8, 4, 3), (12, 4, 9)])) ∧ s.accepts pgBft = true ∧ s.openVolume? 9 = some { owner := 0, gib := 1 } ∧
       snapped.owner = 0 ∧ s.writeBarred 9 = false) ∧
    (running.openColl? 3 = none ∧ AskedAdmin (having running (cmdOf (adminEntry 0x51 [(8, 4, 3)]))) 0x51 (cmdOf (adminEntry 0x51 [(8, 4, 3)]))) := by
  decide +kernel

/-- A node with a checkpoint of collection 3 in volume 9, and COLLECTION_RESTORE as command 7. -/
def restoring : State :=
  having { withDoms linked [] with bft := { volumes := [(9, { owner := 0, gib := 1 })], ckpts := [(9 * 65536 + 3, { coll := snapped, floors := [] })] } }
    (cmdOf (adminEntry 0x55 [(8, 4, 3), (12, 4, 9)]))

theorem witness_CollectionsAndSources_restore :
    AskedAdmin restoring 0x55 (cmdOf (adminEntry 0x55 [(8, 4, 3), (12, 4, 9)])) ∧
      restoring.bft.ckpts.find? (9 * 65536 + 3) = some { coll := snapped, floors := [] } ∧ restoring.openVolume? 9 = some { owner := 0, gib := 1 } ∧
      (restoring.domain snapped.owner).state = .active ∧ restoring.coll? 3 = none ∧ snapped.fullDim = 0 ∧
      (restoring.takeHeart snapped.owner (snapped.extentsFor snapped.slots.length)).2 = true ∧
      (({ restoring with wlk := { colls := [(3, snapped)] } } : State).coll? 3).isSome = true ∧
      (let s := having (holding linked { snapped with isClosed := some 7 }) (cmdOf (adminEntry 0x51 []))
       s.live = true ∧ (s.coll? 3).map (·.isClosed) = some (some 7) ∧ s.collBusy 3 7 = false) := by
  decide +kernel

/-- SOURCE_SET of a source to a state. -/
def sourceCmd (n st : Nat) : Cmd := cmdOf (adminEntry 0x54 [(12, 2, n), (49, 1, st), (24, 8, 0x1000)])

theorem witness_CollectionsAndSources_sources :
    AskedAdmin (having linked (sourceCmd 256 2)) 0x54 (sourceCmd 256 2) ∧ 256 ≤ fieldAt (sourceCmd 256 2).raw 12 2 ∧ 2 < fieldAt (sourceCmd 0 3).raw 49 1 ∧
    (AskedAdmin (having linked (sourceCmd 255 2)) 0x54 (sourceCmd 255 2) ∧ fieldAt (sourceCmd 255 2).raw 12 2 < 256 ∧
      fieldAt (sourceCmd 255 2).raw 49 1 = 2 ∧ (having linked (sourceCmd 255 2)).source? 255 = none ∧
      (having linked (sourceCmd 255 2)).wlk.leastFloor.find? 255 = none) ∧
    (AskedAdmin (mutating tailed (sourceCmd 255 0)) 0x54 (sourceCmd 255 0) ∧ ((mutating tailed (sourceCmd 255 0)).source? 255).isSome = true ∧
      (mutating tailed (sourceCmd 255 0)).qmg.cmds.any (fun e => [0x08, 0x09, 0x0A].contains (cmdOpcode e.2.raw) && mutSource e.2.raw == 255) = false) := by
  decide +kernel

/-- No domain beyond the fuses' stands in a bitmap of zeros. -/
theorem zeros_hold_no_domain : ∀ d, running.dom.fuses.maxDomains ≤ d → bitmapBit (zeroBytes 512) d = false := by
  intro d h
  have hd : 512 ≤ d / 8 := by
    have : 4096 ≤ d := h
    omega
  have hn : (zeroBytes 512)[d / 8]? = none := List.getElem?_eq_none (by rw [zeroBytes, List.length_replicate]; exact hd)
  simp only [bitmapBit, List.getD_eq_getElem?_getD, hn]
  simp [bitOf]

/-- A search of collection 3 at a position, its descriptor at 0x1000. -/
def searchAsked (pos : Nat) : Cmd := cmdOf (entry 0x01 [(8, 4, 3), (16, 8, pos), (24, 8, 0x1000)])

/-- A descriptor for 16 results with OnTimeout, at 0x1000. -/
def searchDesc : List Byte := bytesOf 64 [(0, 1, 0x10), (1, 1, 1), (2, 2, 16), (4, 2, 16), (12, 4, 5)]

/-- A node with command 7 a search. -/
def searching (pos : Nat) : State := having { holding linked tailed with host := Memory.writeN [] 0x1000 searchDesc } (searchAsked pos)

theorem witness_SearchesAdmitted :
    (Asked (having linked (searchAsked 0)) 0x01 (searchAsked 0) ∧ (having linked (searchAsked 0)).coll? (fieldAt (searchAsked 0).raw 8 4) = none) ∧
    (Asked (searching 4) 0x01 (searchAsked 4) ∧ (searching 4).coll? (fieldAt (searchAsked 4).raw 8 4) = some tailed ∧
      descRefusal tailed searchDesc (((searching 4).at 0).descOf tailed searchDesc (zeroBytes 128) [] []) = none ∧
      ((searching 4).at 0).cmdRead (searchAsked 4) (cmdPtrA (searchAsked 4).raw) 64 = searchDesc ∧
      (((searching 4).at 0).descOf tailed searchDesc (zeroBytes 128) [] []).scatter = false ∧
      bitOf ((searching 4).reg pgDom 0x040) 0 = false ∧ 4 < tailed.horizon ∧ tailed.horizon ≤ 5) ∧
    (bitOf ((reg (searching 4) pgDom 0x040 1).reg pgDom 0x040) 0 = true ∧ (withDoms running [(1, { state := .active })]).walkerShare 1 = 0) ∧
    descRefusal tailed (zeroBytes 64) ((linked.at 0).descOf tailed (zeroBytes 64) [] [] []) = some .version := by
  decide +kernel

/-- A search of collection 3 as-of position 9 that waits. -/
def waitingSearch (onTimeout : Bool) : Search := { coll := 3, asOf := 9, asked := 9, desc := { onTimeout := onTimeout, waitUs := 5 } }

/-- The node in which it waits as command 7. -/
def waits (q : Search) (c : Coll := tailed) : State :=
  having { holding linked c with wlk := { colls := [(3, c)], searches := [(7, q)], watermark := 5, wasActive := true } } (searchAsked 9)

theorem witness_SearchesAdmitted_timeout :
    (let s := waits (waitingSearch true)
     s.live = true ∧ s.search? 7 = some (waitingSearch true) ∧ (waitingSearch true).stage = .queued ∧ s.wlk.watermark < 9 ∧
       (waitingSearch true).queuedAt + 5 * 1000 ≤ (s.at 5000).tapeTime ∧ (s.at 4999).tapeTime < (waitingSearch true).queuedAt + 5 * 1000) ∧
    (let s := waits (waitingSearch false)
     s.coll? 3 = some tailed ∧ tailed.horizon ≤ s.wlk.watermark) ∧
    (let s := waits (waitingSearch false) { tailed with horizon := 6 }
     (s.coll? 3).map (·.horizon) = some 6 ∧ s.wlk.watermark < 6) := by
  decide +kernel

/-- A convoy of collection 3's row. -/
def convoyOf (isIssued : Bool) : Convoy := { coll := 3, row := 0, flat := false, openedAt := 0, pairs := [(7, 0)], issued := isIssued }

theorem witness_SearchesWalk :
    (let q : Search := { coll := 3, asOf := 5, asked := 5, desc := {}, readyAt := some 0, breadth := 16 }
     let s := waits q
     s.accepts pgWlk = true ∧ ((s.at 0).nextReady).map (fun e => e.1) = some 7 ∧ s.search? 7 = some q ∧ s.coll? q.coll = some tailed ∧ q.aborting = false) ∧
    (running.at 0).nextReady = none ∧
    (let s : State := { running with wlk := { convoys := [(9, convoyOf false)], nextConvoy := 10, colls := [(3, tailed)] } }
     s.wlk.convoys.find? 9 = some (convoyOf false) ∧ (convoyOf false).openedAt + s.convoyWin false ≤ max s.now (s.convoyWin false) ∧
       (s.convoyWin false = 0 ∨ max s.now 0 < (convoyOf false).openedAt + s.convoyWin false) ∧ 9 < s.wlk.nextConvoy ∧ s.coll? 3 = some tailed ∧
       s.unitHeld (granuleStack 0) (granuleUnit 0) = false ∧ s.pseudoOpen (granuleStack 0) (granuleUnit 0 / 8) = true) ∧
    (running.wlk.slowFrom + 1000000000 ≤ (running.at 1000000000).tapeTime ∧
      (reg running pgWlk 0x08C 0).reg pgWlk 0x08C = 0 ∧ (reg running pgWlk 0x08C 5).reg pgWlk 0x08C * 1000 < percentile99 [5001]) := by
  decide +kernel

/-! ### Ends of searches, rings, Near-Bank Units -/

/-- A search of command 7 at a stage with a local list. -/
def endedSearch (st : Stage) (rescore : Nat) (es : List Entry) : Search :=
  { waitingSearch false with stage := st, desc := { k := 1, rescore := rescore }, localList := es, results := es }

/-- An entry of slot 4. -/
def oneEntry : Entry := { key := 8, score := 0x3F800000#32, slot := 4 }

/-- What every clause about a search's end asks of the node. -/
abbrev Ends (s : State) (q : Search) (st : Stage) : Prop :=
  s.live = true ∧ s.search? 7 = some q ∧ (s.cmd? 7).isSome = true ∧ (s.coll? q.coll).isSome = true ∧ q.stage = st

/-- A search that waits for room for a record of 384 bytes, and one whose alarm waits for evidence. -/
def ringed : Search := { endedSearch .ringWait 0 [] with record := zeroBytes 384, ringUntil := 5 }

/-- Domain 0's ring of 65,536 bytes at 0x10000, its tail word at 0x8000. -/
def ring0 (head : Nat) : Ring := { base := 0x10000, tail := 0x8000, length := 65536, waitUs := 5, head := head }

/-- The node with that ring, its tail word at `v`. -/
def ringing (head v : Nat) : State := let s := waits ringed
  { s with qmg := { s.qmg with rings := [(0, ring0 head)] }, host := Memory.writeN [] 0x8000 (natLE 8 v) }

theorem witness_SearchesEnd_selection :
    (Ends (waits (endedSearch .walked 1 [oneEntry])) (endedSearch .walked 1 [oneEntry]) .walked ∧ (waits (endedSearch .walked 1 [])).accepts pgCst = true ∧
      (endedSearch .walked 1 []).desc.exact = false ∧ 1 ≤ (endedSearch .walked 1 []).desc.rescore ∧ (endedSearch .walked 1 []).desc.rescoreOnNear = false) ∧
    (Ends (waits (endedSearch .walked 0 [oneEntry])) (endedSearch .walked 0 [oneEntry]) .walked ∧ (endedSearch .walked 0 []).desc.rescore = 0 ∧
      (endedSearch .walked 0 []).desc.scatter = false ∧ (endedSearch .walked 0 []).rules = []) ∧
    Ends (waits (endedSearch .rescoring 1 [])) (endedSearch .rescoring 1 []) .rescoring := by
  decide +kernel

theorem witness_SearchesEnd_rescore :
    (let q := endedSearch .rescoring 1 [oneEntry]
     Ends (waits q) q .rescoring ∧ q.aborting = false ∧ q.desc.scatter = false ∧ q.rules = [] ∧ q.localList = [oneEntry] ∧ 1 ≤ q.desc.rescore ∧ 1 ≤ q.desc.k ∧
       isNaN32 oneEntry.score = false ∧
       isNaN32 (fullScore tailed.metric tailed.fullFormat tailed.fullDim q.desc.fullQ (((tailed.slots.find? 4).map fun x => x.full).getD [])) = false) := by
  decide +kernel

theorem witness_SearchesEnd_shards :
    (let q := { endedSearch .gathering 0 [] with desc := { k := 1, waitUs := 5 } }
     Ends (waits q) q .gathering ∧ ((waits q).at 4999).shardWaitOver q = false ∧ ((waits q).at 5000).shardWaitOver q = true) := by
  decide +kernel

theorem witness_SearchesEnd_record :
    (Ends (waits (endedSearch .evidence 0 [])) (endedSearch .evidence 0 []) .evidence ∧ (endedSearch .evidence 0 []).sets = [] ∧
      (waits (endedSearch .evidence 0 [])).ring? 0 = none) ∧
    (Ends (ringing 0 384) ringed .ringWait ∧ (ringing 0 384).ring? 0 = some (ring0 0) ∧ ringed.record.length + 64 ≤ (ring0 0).length ∧
      ((ringing 0 384).at 4).tapeTime < ringed.ringUntil ∧
      (ring0 0).fits (leNat (((ringing 0 384).at 4).readBytes (ringing 0 384).view (ring0 0).tail 8)) ringed.record.length = false) ∧
    ((ringing 65152 0).ring? 0 = some (ring0 65152) ∧ (ring0 65152).head + ringed.record.length ≤ (ring0 65152).length ∧ (ring0 65152).head < (ring0 65152).length ∧
      (ring0 65152).fits (leNat (((ringing 65152 385).at 4).readBytes (ringing 65152 385).view (ring0 65152).tail 8)) ringed.record.length = true ∧
      linkUp (ringing 65152 385) = true) := by
  decide +kernel

/-- SILLAGE_RING and EVIDENCE_BIND. -/
def ringCmd (base len wait : Nat) : Cmd := cmdOf (adminEntry 0x31 [(24, 8, base), (32, 8, 0x8000), (40, 8, len), (52, 4, wait)])
def bindCmd (vol bytes : Nat) : Cmd := cmdOf (adminEntry 0x30 [(8, 4, 3), (12, 4, vol), (52, 4, bytes)])

/-- Collection 3 with a U64 field 0, volume 9 of an owner, and an EVIDENCE_BIND as command 7. -/
def binding (owner : Nat) (k : Cmd) : State :=
  having { holding linked { owner := 0, schema := bytesOf 32 [(0, 1, 1), (2, 1, 8)] } with bft := { volumes := [(9, { owner := owner, gib := 1 })] } } k

theorem witness_RingsAndCasting_rings :
    (AskedAdmin (having linked (ringCmd 0 0 0)) 0x31 (ringCmd 0 0 0) ∧ cmdPtrA (ringCmd 0 0 0).raw = 0 ∧
      fieldAt (ringCmd 0 0 0).raw 8 2 < linked.dom.fuses.maxDomains) ∧
    (let k := ringCmd 0x10000 4294967296 100000
     AskedAdmin (having linked k) 0x31 k ∧ cmdPtrA k.raw ≠ 0 ∧ cmdPtrA k.raw % 4096 = 0 ∧ cmdPtrB k.raw % 8 = 0 ∧ isPow2 (cmdPtrC k.raw) = true ∧
       65536 ≤ cmdPtrC k.raw ∧ cmdPtrC k.raw ≤ 4294967296 ∧ fieldAt k.raw 52 4 ≤ 100000 ∧ (linked.domain (fieldAt k.raw 8 2)).state = .active) ∧
    (let k := bindCmd 0xFFFFFFFF 0
     AskedAdmin (binding 0 k) 0x30 k ∧ ((binding 0 k).openColl? (fieldAt k.raw 8 4)).isSome = true ∧ fieldAt k.raw 12 4 = 0xFFFFFFFF) ∧
    (let k := bindCmd 9 4096
     AskedAdmin (binding 1 k) 0x30 k ∧ ((binding 1 k).openVolume? (fieldAt k.raw 12 4)).map (·.owner) = some 1 ∧
       AskedAdmin (binding 0 k) 0x30 k ∧ ((binding 0 k).openVolume? (fieldAt k.raw 12 4)).map (·.owner) = some 0 ∧ fieldAt k.raw 49 1 < 8 ∧
       ((binding 0 k).openColl? (fieldAt k.raw 8 4)).map (fun c => ((schemaField c.schema (fieldAt k.raw 49 1)).1, (schemaField c.schema (fieldAt k.raw 49 1)).2.2)) = some (1, 8) ∧
       64 ≤ fieldAt k.raw 52 4 ∧ fieldAt k.raw 52 4 ≤ 4096 ∧ fieldAt k.raw 52 4 % 64 = 0) := by
  decide +kernel

theorem witness_RingsAndCasting_casting :
    (let s : State := { linked with cst := { uniques := [(7, { values := [5, 5, 2] })] } }
     s.live = true ∧ s.accepts pgCst = true ∧ s.cst.uniques.find? 7 = some { values := [5, 5, 2] }) ∧
    ([0x7FC00000#32, 0xFFFFFFFF#32] : List Word).length = 2 ∧ [0x7FC00000#32, 0xFFFFFFFF#32].all isNaN32 = true := by
  decide +kernel

/-- A program of END alone, its image at 0x1000 of host memory, and the RUN of it on unit 511 of stack 7. -/
def endProgram (count : Nat) : List Byte := bytesOf 40 [(0, 1, 0x10), (2, 2, count), (12, 4, 65536), (39, 1, 0x0F)]
def runCmd : Cmd := cmdOf (entry 0x28 [(8, 4, 7 * 512 + 511), (24, 8, 0x1000), (40, 8, 0x4000), (49, 1, 63), (50, 1, 0x80)])

/-- The node that is asked to run it; `ctrl` in PNM_CTRL of stack 7. -/
def running7 (count ctrl : Nat) : State :=
  having { reg linked (pgPnm 7) 0x040 ctrl with host := Memory.writeN [] 0x1000 (endProgram count) } runCmd

/-- A run of it, loaded. -/
def endRun (ph : RunPhase) : RawRun :=
  { cid := 7, stack := 7, pseudo := 63, mask := 0x80, extent := 4095, fp := false, instrs := [0x0F * 2 ^ 56], payload := [], rowList := [],
    rowStep := 0, maxEmits := 65536, worst := 0, segs := if ph = .ended then [] else [(1, 0)], phase := ph, segEnd := 5,
    units := if ph = .waiting then [] else [(7, {})] }

/-- The node with that run. -/
def atRun (ph : RunPhase) : State := { running7 1 3 with pnm := { runs := [(0, endRun ph)], nextRun := 1 } }

/-- Why the program of END alone, or an empty one, is refused on stack 7. -/
def whyRefused (count : Nat) : Nat :=
  let s := running7 count 3
  let m := imageOf ((s.at 0).cmdRead runCmd 0x1000 32)
  refusalReason (s.pnmStack 7) (s.reg (pgPnm 7) 0x048) (s.reg (pgPnm 7) 0x050) 4095 63 0x80 m
    ((List.range m.count).map fun i => leNat ((s.at 0).cmdRead runCmd (0x1020 + 8 * i) 8))
    ((List.range m.listLen).map fun i => leNat ((s.at 0).cmdRead runCmd (0x1020 + 8 * m.count + 2 * i) 2))

theorem witness_RawPrograms_load :
    (Asked (running7 1 1) 0x28 runCmd ∧ fieldAt runCmd.raw 48 1 = 0 ∧ bitOf ((running7 1 1).reg (pgPnm 7) 0x040) 1 = false) ∧
    (bitOf ((running7 1 3).reg (pgPnm 7) 0x040) 1 = true ∧ fieldAt (((running7 1 3).at 0).cmdRead runCmd (cmdPtrA runCmd.raw) 32) 0 1 / 16 = 1 ∧
      (imageOf (((running7 1 3).at 0).cmdRead runCmd (cmdPtrA runCmd.raw) 32)).ok = true ∧ whyRefused 1 = 0 ∧ (running7 1 3).reg (pgPnm 7) 0x04C ≠ 0 ∧
      (unitsOf (fieldAt runCmd.raw 50 1)).any (fun x => ((running7 1 3).pnmStack 7).disabled.contains (8 * fieldAt runCmd.raw 49 1 + x)) = false) ∧
    whyRefused 2 = 2 := by
  decide +kernel

theorem witness_RawPrograms_runs :
    ((atRun .waiting).live = true ∧ ((atRun .waiting).at 0).canStart 0 (endRun .waiting) = true ∧
      ({ atRun .waiting with pwr := { throttled := true } } : State).canStart 0 (endRun .waiting) = false) ∧
    ((endRun .running).segs = [(1, 0)] ∧ (endRun .running).phase = .running ∧ (endRun .running).segEnd ≤ max (atRun .running).now 5 ∧
      (endRun .running).aborting = false ∧ max (atRun .running).now 4 < (endRun .running).segEnd) ∧
    ((atRun .ended).pnm.runs.find? 0 = some (endRun .ended) ∧ (atRun .ended).cmd? (endRun .ended).cid = some runCmd ∧ (endRun .ended).phase = .ended) ∧
    [0x02, 0x03, 0x04, 0x09, 0x0A, 0x01].map (fun op => insOp (op * 2 ^ 56)) = [0x02, 0x03, 0x04, 0x09, 0x0A, 0x01] := by
  decide +kernel

/-- SCRATCH_OPEN and SCRATCH_CLOSE of a row range of extent 7 on stack 0. -/
def scratchCmd (sub first n : Nat) : Cmd := cmdOf (entry 0x28 [(8, 4, 7), (48, 1, sub), (52, 4, first), (56, 4, n)])

theorem witness_NearBankBlocks :
    (Asked (having linked (scratchCmd 1 0 0)) 0x28 (scratchCmd 1 0 0) ∧ fieldAt (scratchCmd 1 0 0).raw 48 1 = 1 ∧ scratchRange (scratchCmd 1 0 0) = none) ∧
    (scratchRange (scratchCmd 1 262143 2) = some (262143, 2) ∧ 262144 < 262143 + 2) ∧
    (scratchRange (scratchCmd 1 262143 1) = some (262143, 1) ∧ 262143 + 1 ≤ 262144 ∧ fieldAt (scratchCmd 1 262143 1).raw 8 4 / 512 = 0 ∧
      (∀ e ∈ (linked.pnmStack 0).regions, e.2.1 ≠ 7) ∧ (linked.pnmStack 0).regions.length < 256) ∧
    (Asked (having linked (scratchCmd 2 0 262144)) 0x28 (scratchCmd 2 0 262144) ∧ scratchRange (scratchCmd 2 0 262144) = some (0, 262144) ∧
      linked.pnm.runs = [] ∧ linked.pnm.closing = []) ∧
    (linked.pnm.runs.any (fun e => e.2.phase == .running && e.2.stack == 7 && e.2.pseudo == 63) = false ∧ (linked.pnmStack 7).due 63 ≤ max linked.now 3900 ∧
      max linked.now 3899 < (linked.pnmStack 7).due 63) ∧
    ((linked.at 0).writeFields (pgPnm 7) 0x04C 255 |>.reg (pgPnm 7) 0x04C) ≠ 0 ∧
    (((atRun .waiting).at 0).writeFields (pgPnm 7) 0x04C 0 |>.reg (pgPnm 7) 0x04C) = 0 ∧ (endRun .waiting).stack = 7 ∧
    511 ∉ (linked.pnmStack 7).disabled ∧
    (reg linked (pgPnm 7) 0x054 5).reg (pgPnm 7) 0x054 = 5 ∧ 5 < ({ corrIn := [(511, 6)] } : PnmStack).corrIn.getD 511 0 ∧
      (linked.pnmStack 7).corrIn.getD 511 0 ≤ linked.reg (pgPnm 7) 0x054 := by
  decide +kernel

/-! ### The encoder -/

/-- A small Score image: a FEATURES operator and one array layer of 128 by 128 whose one tile is zeros behind four bytes of ones, and a signature block
that names key pair 9. -/
def imageFront : List Byte :=
  [(4, 1396922951), (1, 16), (1, 1), (18, 0), (2, 2), (2, 1), (4, 1), (8, 8944), (8, 8832), (4, 8448), (4, 65536), (4, 0), (2, 128),
    (3, 0), (1, 1), (6, 0), (8, 128), (8, 192), (8, 256), (8, 0), (8, 8768), (8, 8832), (4, 0), (4, 1433031172), (1, 9), (1, 0), (2,
    65535), (4, 0), (2, 128), (2, 128), (20, 0), (1, 1), (3, 0), (1, 1), (2, 0), (1, 1), (2, 128), (24, 0), (1, 2), (1, 0), (2, 128),
    (2, 128), (4, 0), (4, 1), (8, 0), (1, 127), (1, 127), (2, 1), (36, 0), (8, 320), (4, 8448), (4, 0xFFFFFFFF), (48, 0)].flatMap fun f => natLE f.1 f.2

/-- The whole image: the front, the tile, and the layer hint with the signature block. -/
def smallImage : List Byte := imageFront ++ ((natLE 4 0xFFFFFFFF ++ zeroBytes 8444) ++ bytesOf 176 [(68, 4, 9)])

/-- SCORE_LOAD of it from address 0x10000 for domain 0, with Adopt of handle 1 or without. -/
def loadCmd (adopt : Nat) : Cmd := cmdOf (adminEntry 0x20 [(24, 8, 0x10000), (32, 8, 0x2000), (40, 8, 8944), (49, 1, adopt), (50, 2, 1)])

/-- A node with some host memory, quotas of domain 0, and key pair 9 registered and bound to the domains of a bitmap. -/
def loadingOf (m : Memory) (adopt bound : Nat) (scores : Table Score := []) : State :=
  having { linked with
    host := m, dom := { doms := [(0, { state := .active, privs := 0x1F, quotaHeart := 9, quotaTop := 9 })] },
    sec := { keys := [(9, { block := zeroBytes 160, domains := [BitVec.ofNat 8 bound] })] }, enc := { scores := scores, issued := scores.length } }
    (loadCmd adopt)


/-- The same with the image in its memory. -/
def loading (adopt bound : Nat) (scores : Table Score := []) : State := loadingOf (Memory.writeN [] 0x10000 smallImage) adopt bound scores

theorem imageFront_length : imageFront.length = 320 := by decide +kernel

theorem smallImage_length : smallImage.length = 8944 := by
  have h : (bytesOf 176 [(68, 4, 9)]).length = 176 := by decide +kernel
  rw [smallImage, List.length_append, List.length_append, List.length_append, imageFront_length, zeroBytes, List.length_replicate, h]
  rfl

/-- Reading back part of the image. -/
theorem smallImage_readN (s : State) (h : s.host = Memory.writeN [] 0x10000 smallImage) (hl : linkUp s = true) (n : Nat) (hn : n ≤ 8944) :
    s.readBytes ⟨0, 0⟩ 0x10000 n = smallImage.take n := by
  apply List.ext_getElem
  · simp [State.readBytes, smallImage_length, hn]
  · intro i h1 h2
    have hi : i < smallImage.length := by simp [State.readBytes] at h1; rw [smallImage_length]; omega
    simp [State.readBytes, State.readByte, View.inWin, hl, h, Memory.read_writeN_inside _ _ hi]

theorem smallImage_structure : structureReason smallImage = 0 := by decide +kernel


/-- Zero bytes leave a CRC register of 0 as it is. -/
theorem zeroCrc (n : Nat) : (zeroBytes n).foldl (crcByte 0x82F63B78) 0 = 0 := by
  induction n with
  | zero => rfl
  | succ n ih => exact ih

theorem smallImage_tiles : tilesMatch smallImage = true := by
  have hd : tileDesc smallImage 0 = (320, 8448, 0xFFFFFFFF) := by decide +kernel
  have hn : imgTiles smallImage = 1 := by decide +kernel
  have hb : bytesAt smallImage 320 8448 = natLE 4 0xFFFFFFFF ++ zeroBytes 8444 := by
    rw [bytesAt, smallImage, List.drop_left' imageFront_length,
      List.take_left' (by rw [List.length_append, zeroBytes, List.length_replicate]; rfl)]
  have h4 : (natLE 4 0xFFFFFFFF).foldl (crcByte 0x82F63B78) 0xFFFFFFFF = 0 := by decide +kernel
  have hc : crc32c (natLE 4 0xFFFFFFFF ++ zeroBytes 8444) = 0xFFFFFFFF := by
    rw [crc32c, crcReflected, List.foldl_append, h4, zeroCrc]
    rfl
  simp [tilesMatch, hn, tileBytesOf, hd, hb, hc]

theorem loading_reads (adopt bound n : Nat) (scores : Table Score) (hn : n ≤ 8944) :
    ((loading adopt bound scores).at 0).cmdRead (loadCmd adopt) 0x10000 n = smallImage.take n :=
  smallImage_readN _ (by simp [loading, loadingOf, having, State.at]) (by simp [loading, loadingOf, having, State.at, linkUp, linked]) n hn

theorem smallImage_header : headerRefusal (smallImage.take 128) 8944 = none := by decide +kernel

theorem smallImage_all : smallImage.take 8944 = smallImage := by rw [← smallImage_length, List.take_length]

/-- What a load of the small image takes: one Heart extent and three Top frames. -/
theorem smallImage_charges : heartCharge smallImage = 1 ∧ topCharge smallImage = 3 := by decide +kernel

/-- The node after the charges of a load. -/
def charged (adopt bound : Nat) (scores : Table Score := []) : State := (((loading adopt bound scores).at 0).takeHeart 0 1).1
def charged2 (adopt bound : Nat) (scores : Table Score := []) : State := ((charged adopt bound scores).takeTop 0 3).1

theorem pair_of_snd {α β : Type} {p : α × β} {b : β} (h : p.2 = b) : p = (p.1, b) := by rw [← h]

/-- The handle after the last one issued is the next, where it is free. -/
theorem nextIssue_next {s : State} (h : s.enc.scores.has (s.enc.issued % 65535 + 1) = false) : s.nextIssue = some (s.enc.issued + 1) := by
  have hr : List.range 65535 = 0 :: (List.range 65534).map Nat.succ := List.range_succ_eq_map
  rw [State.nextIssue, hr, List.find?_cons_of_pos (by simp [h])]
  rfl

/-- What every clause about a load asks, with the small image, the node's charges and its next handle. -/
abbrev Loads (adopt bound : Nat) (scores : Table Score) (n : Nat) : Prop :=
  AskedAdmin (loading adopt bound scores) 0x20 (loadCmd adopt) ∧ (bitOf (fieldAt (loadCmd adopt).raw 49 1) 0 = true ↔ adopt = 1) ∧
    fieldAt (loadCmd adopt).raw 8 2 = 0 ∧ (loading adopt bound scores).dom.fuses.maxDomains = 4096 ∧ ((loading adopt bound scores).domain 0).state = .active ∧
    ((loading adopt bound scores).at 0).cmdRead (loadCmd adopt) (cmdPtrA (loadCmd adopt).raw) (cmdPtrC (loadCmd adopt).raw) = smallImage ∧
    headerRefusal (((loading adopt bound scores).at 0).cmdRead (loadCmd adopt) (cmdPtrA (loadCmd adopt).raw) 128) (cmdPtrC (loadCmd adopt).raw) = none ∧
    structureReason smallImage = 0 ∧ ((loading adopt bound scores).at 0).takeHeart 0 (heartCharge smallImage) = (charged adopt bound scores, true) ∧
    (charged adopt bound scores).takeTop 0 (topCharge smallImage) = (charged2 adopt bound scores, some [160, 161, 162]) ∧
    (charged2 adopt bound scores).nextIssue = some n ∧ (loading adopt bound scores).enc.scores.length < 256

/-- The Score that an adopting load replaces. -/
def old : Table Score := [(1, { owner := 0, image := smallImage })]

theorem loads (adopt bound : Nat) (scores : Table Score) (h : Asked (loading adopt bound scores) 0x38 (loadCmd adopt) ∧ cmdAdminOp (loadCmd adopt).raw = 0x20 ∧
      (bitOf (fieldAt (loadCmd adopt).raw 49 1) 0 = true ↔ adopt = 1) ∧ fieldAt (loadCmd adopt).raw 8 2 = 0 ∧ cmdPtrA (loadCmd adopt).raw = 0x10000 ∧
      cmdPtrC (loadCmd adopt).raw = 8944) (hh : (((loading adopt bound scores).at 0).takeHeart 0 1).2 = true)
    (ht : ((charged adopt bound scores).takeTop 0 3).2 = some [160, 161, 162]) (hu : (charged2 adopt bound scores).enc.issued = scores.length)
    (hf : (charged2 adopt bound scores).enc.scores.has (scores.length % 65535 + 1) = false) (hl : scores.length < 256) :
    Loads adopt bound scores (scores.length + 1) := by
  obtain ⟨h1, h2, h3, h4, h5, h6⟩ := h
  refine ⟨⟨h1, h2⟩, h3, h4, rfl, rfl, ?_, ?_, smallImage_structure, ?_, ?_, ?_, hl⟩
  · rw [h5, h6, loading_reads _ _ _ _ (Nat.le_refl _), smallImage_all]
  · rw [h5, h6, loading_reads _ _ _ _ (by decide), smallImage_header]
  · rw [smallImage_charges.1]; exact pair_of_snd hh
  · rw [smallImage_charges.2]; exact pair_of_snd ht
  · rw [nextIssue_next (by rw [hu]; exact hf), hu]

theorem witness_Scores_load : Loads 0 1 [] 1 ∧ tilesMatch smallImage = true :=
  ⟨loads 0 1 [] (by decide) (by decide +kernel) (by decide +kernel) (by decide +kernel) (by decide +kernel) (by decide), smallImage_tiles⟩

/-- The image's signatures are checked under the registered pair: that they verify is what `Config.sigOk` says. -/
theorem witness_Scores_signed : ∃ key m sig key' m' sig', (charged2 0 1).signed smallImage 0 = (Config.sigOk 0 key m sig && Config.sigOk 1 key' m' sig') := by
  have h : (charged2 0 1).boundKey smallImage 0 = some { block := zeroBytes 160, domains := [1] } := by decide +kernel
  simp only [State.signed, h]
  exact ⟨_, _, _, _, _, _, rfl⟩

theorem witness_Scores_denied : Loads 0 2 [] 1 ∧ (charged2 0 2).boundKey smallImage 0 = none :=
  ⟨loads 0 2 [] (by decide) (by decide +kernel) (by decide +kernel) (by decide +kernel) (by decide +kernel) (by decide), by decide +kernel⟩

theorem witness_Scores_adopt : Loads 1 1 old 2 ∧ fieldAt (loadCmd 1).raw 50 2 = 1 ∧ (charged2 1 1 old).adoptRefusal 0 1 smallImage = none :=
  ⟨loads 1 1 old (by decide) (by decide +kernel) (by decide +kernel) (by decide +kernel) (by decide +kernel) (by decide), by decide, by decide +kernel⟩

/-- A resident Score of domain 0 with a free image of 128 bytes: 128 features, one cluster. -/
def score1 : Score := { owner := 0, image := bytesOf 128 [(26, 2, 1), (60, 2, 128), (65, 1, 1)], scales := [(0, { eL := 130, hist := [5], clips := 7 })],
                        pool := [(77, {})], poolExtents := 2 }

/-- A node with it under handle 1 and a table 5 of 16 elements. -/
def scored (k : Cmd) : State :=
  having { withDoms linked [] with enc := { scores := [(1, score1)], issued := 1 },
                                   gth := { tables := [(5, { owner := 0, kind := 0, fmt := 2, elems := 16, rowCount := 4, slots := 2, vers := [(0, { num := 3 })] })] } } k

def unloadCmd (h : Nat) : Cmd := cmdOf (adminEntry 0x21 [(50, 2, h)])

/-- SCORE_KEY_ADD and SCORE_KEY_REMOVE of a key pair. -/
def keyAddCmd : Cmd := cmdOf (adminEntry 0x80 [(24, 8, 0x1000), (32, 8, 0x2000), (52, 4, 9)])
def keyRemoveCmd : Cmd := cmdOf (adminEntry 0x81 [(52, 4, 9)])

/-- A key block whose point is P-384's base point, in the order in which it is sent. -/
def basePointBlock : List Byte :=
  let x := (natLE 48 0xaa87ca22be8b05378eb1c71ef320ad746e1d3b628ba79b9859f741e082542a385502f25dbf55296c3a545e3872760ab7).reverse
  let y := (natLE 48 0x3617de4a96262c6f5d9e98bf9292dc29f8f41dbd289a147ce9da3113b5f0b8c00a60b1ce1d7e819d7a431d7c90ea0e5f).reverse
  natLE 1 4 ++ x ++ y ++ zeroBytes 6 ++ natLE 1 2 ++ zeroBytes 3 ++ natLE 1 13 ++ zeroBytes 3 ++ natLE 1 5 ++ zeroBytes 48

/-- The node that is asked to register it, or holds it. -/
def keying (k : Cmd) (keys : Table ScoreKey := []) : State :=
  having { linked with host := Memory.writeN [] 0x1000 basePointBlock, sec := { keys := keys } } k

theorem witness_Scores_others :
    (AskedAdmin (scored (unloadCmd 1)) 0x21 (unloadCmd 1) ∧ fieldAt (unloadCmd 1).raw 8 2 < running.dom.fuses.maxDomains ∧
      (scored (unloadCmd 1)).openScore? 0 (fieldAt (unloadCmd 1).raw 50 2) = some score1 ∧
      AskedAdmin (scored (unloadCmd 2)) 0x21 (unloadCmd 2) ∧ (scored (unloadCmd 2)).openScore? 0 (fieldAt (unloadCmd 2).raw 50 2) = none) ∧
    (AskedAdmin (keying keyAddCmd) 0x80 keyAddCmd ∧ keyId keyAddCmd ≠ 0xFFFFFFFF ∧ (keying keyAddCmd).sec.keys.has (keyId keyAddCmd) = false ∧
      keyBlockOk (((keying keyAddCmd).at 0).cmdRead keyAddCmd (cmdPtrA keyAddCmd.raw) 160) = true ∧
      leNat (((keying keyAddCmd).at 0).cmdRead keyAddCmd (cmdPtrB keyAddCmd.raw) 512) = 0 ∧
      (keying keyAddCmd [(9, { block := [], domains := [] })]).sec.keys.has (keyId keyAddCmd) = true) ∧
    (AskedAdmin (keying keyRemoveCmd) 0x81 keyRemoveCmd ∧ (keying keyRemoveCmd).sec.keys.has (keyId keyRemoveCmd) = false ∧
      (keying keyRemoveCmd [(9, { block := [], domains := [] })]).sec.keys.has (keyId keyRemoveCmd) = true) ∧
    (let s := reg (scored (unloadCmd 1)) (pgEnc 0) 0x080 (1 * 65536)
     s.live = true ∧ bitOf (1 : Word).toNat 0 = true ∧ bitsOf (s.reg (pgEnc 0) 0x080) 31 16 = 1 ∧ bitsOf (s.reg (pgEnc 0) 0x080) 9 0 = 0 ∧
       s.score? 1 = some score1 ∧ score1.scales.find? 0 = some { eL := 130, hist := [5], clips := 7 }) := by
  decide +kernel

/-- ENCODE with Score `h` of `n` events at 0x1000; with DropSequence it names sequence 77. -/
def encodeCmdOf (op h n flags : Nat) (seq : Nat := 77) : Cmd :=
  { cmdOf (entry op [(1, 1, flags), (8, 4, 3), (12, 2, h), (24, 8, 0x1000), (32, 8, 0x2000), (48, 4, n), (56, 8, seq)]) with versions := [(5, 0xFFFFFFFF, 0)] }

/-- One event of sequence 77 with one bag of row 0 of table 5. -/
def eventBytes : List Byte := bytesOf 96 [(0, 8, 77), (8, 8, 6), (16, 8, 8), (24, 2, 1), (64, 4, 5), (68, 4, 0xFFFFFFFF), (72, 8, 0x3000), (88, 4, 1)]

/-- The node with that event, the search descriptor of collection 3, and a quota of domain 0 that the pool fits in, or not. -/
def encodes (k : Cmd) (quota : Nat) (score : Score := score1) : State :=
  { scored k with
    host := (Memory.writeN [] 0x1000 eventBytes).writeN 0x2000 searchDesc, enc := { scores := [(1, score)], issued := 1 }, wlk := { colls := [(3, tailed)] },
    dom := { doms := [(0, { state := .active, privs := 0x1F, quotaHeart := quota })] } }

/-- The events of a command as the node reads them. -/
def eventsOf (k : Cmd) : Option (List RawEvent) := ((encodes k 9).at 0).eventsGo k (encCount k) (cmdPtrA k.raw)

/-- The one event, as read. -/
def rawEvent : RawEvent :=
  { head := bytesAt eventBytes 0 64, bags := [{ table := 5, asked := 0xFFFFFFFF, idx := [0], ws := [0x3F800000#32], sample := 0, off := 0, count := 1 }] }

theorem witness_EncodeCommands_encode :
    (let k := encodeCmdOf 0x03 1 1 0
     Asked (encodes k 9) 0x03 k ∧ (encodes k 9).accepts pgGth = true ∧ ((encodes k 9).at 0).encBehind 7 k = false ∧ encDrops k = false ∧ encHandle k = 1 ∧
       encCount k = 1 ∧ eventsOf k = some [rawEvent] ∧ ((encodes k 9).at 0).eventRefusal k 1 score1 1 [rawEvent] = none ∧
       (((encodes k 9).at 0).growPool 1 [fieldAt rawEvent.head 0 8]).2 = true ∧ fieldAt rawEvent.head 0 8 = 77 ∧
       (((encodes k 0 { score1 with poolExtents := 0 }).at 0).growPool 1 [fieldAt rawEvent.head 0 8]).2 = false) ∧
    (let k := encodeCmdOf 0x03 2 1 0
     Asked (encodes k 9) 0x03 k ∧ (encodes k 9).score? (encHandle k) = none ∧ encDrops k = false) ∧
    (let k := encodeCmdOf 0x03 1 16777217 0
     Asked (encodes k 9) 0x03 k ∧ ((encodes k 9).score? (encHandle k)).isSome = true ∧ 16777216 < encCount k) := by
  decide +kernel

theorem witness_EncodeCommands_drop :
    (let k := encodeCmdOf 0x03 1 0 2
     Asked (encodes k 9) 0x03 k ∧ encDrops k = true ∧ encCount k = 0 ∧ fieldAt k.raw 56 8 = 77 ∧ 77 ∉ (encodes k 9).busySeqs 1 ∧ score1.pool.has 77 = true ∧
       77 ∈ ({ encodes k 9 with enc := { closed := [{ score := 1, events := [{ cid := 3, index := 0, seq := 77, pos := 0, x := [] }] }] } } : State).busySeqs 1) ∧
    (let k := encodeCmdOf 0x03 1 0 2 78
     Asked (encodes k 9) 0x03 k ∧ fieldAt k.raw 56 8 = 78 ∧ 78 ∉ (encodes k 9).busySeqs 1 ∧ score1.pool.has 78 = false) := by
  decide +kernel

theorem witness_EncodeCommands_search :
    (let k := encodeCmdOf 0x04 2 0 0
     Asked (encodes k 9) 0x04 k ∧ (encodes k 9).score? (encHandle k) = none) ∧
    (let k := encodeCmdOf 0x04 1 0 0
     let v : Score := { score1 with image := bytesOf 128 [(6, 2, 2), (60, 2, 128), (62, 2, 64), (65, 1, 1)] }
     Asked (encodes k 9) 0x04 k ∧ eventsOf k = some [rawEvent] ∧ (((encodes k 9).at 0).askedSearch k score1 [rawEvent]).refusal = some .malformed ∧
       (((encodes k 9).at 0).askedSearch k v [rawEvent]).refusal = none ∧ ((encodes k 9 v).at 0).eventRefusal k 1 v 1 [rawEvent] = none ∧
       (((encodes k 9 v).at 0).growPool 1 [77]).2 = true) := by
  decide +kernel

/-- An event of command 7 in a sequence, and the batch that holds it. -/
def event1 : EncEvent := { cid := 7, index := 0, seq := 77, pos := 6, x := [] }
def batch1 (slices : Nat) (tile : Option Nat) : Batch := { score := 1, events := [event1], slices := slices, tile := tile }

/-- A Score of one layer in one slice of two tiles. -/
def score2 : Score := { score1 with image := bytesOf 256 [(26, 2, 1), (65, 1, 1), (80, 8, 128), (88, 8, 192), (104, 8, 240), (132, 2, 256), (134, 2, 128), (154, 2, 1),
  (204, 4, 0), (220, 4, 0)] }

/-- A node whose cluster 3 runs a batch of it; clusters 0 to 2 are disabled. -/
def batching (b : Option Batch) (closed : List Batch := []) : State :=
  let k := encodeCmdOf 0x03 1 1 0
  let s := encodes k 9 score2
  let c : EncCmd := { score := 1, events := [event1], since := 2, taken := boolNat (b.isSome || closed.length != 0) }
  let s : State := { s with enc := { s.enc with running := (b.map fun x => (3, x)).toList, closed := closed, cmds := [(7, c)] } }
  reg (reg (reg s (pgEnc 0) 0x040 0) (pgEnc 1) 0x040 0) (pgEnc 2) 0x040 0

theorem witness_Batches_form :
    (let s := batching none
     s.live = true ∧ (s.forming 1).closed = [] ∧ (s.forming 1).cur = [event1] ∧
       min (max s.now 1000000) 2 + min 10000 (s.reg (pgEnc 0) 0x04C) * 1000 ≤ max s.now 1000000) ∧
    (let s := batching none [batch1 0 none]
     (List.range 4).find? s.clusterFree = some 3 ∧ s.score? 1 = some score2 ∧ s.clustersOf 1 < imgMaxClusters score2.image) ∧
    (List.range 4).find? (batching (some (batch1 0 none))).clusterFree = none := by
  decide +kernel

theorem witness_Batches_stream :
    (imgSlices score2.image = [[0, 1]] ∧ tileDesc score2.image 0 = (0, 0, 0) ∧ crc32c [] = 0 ∧ crc32c [1] ≠ 0) ∧
    ((batching (some (batch1 0 none))).enc.running.find? 3 = some (batch1 0 none) ∧ (batch1 0 none).slices < (imgSlices score2.image).length ∧
      (imgSlices score2.image).length ≤ (batch1 1 none).slices ∧ (batch1 0 (some 0)).tile.isSome = true ∧
      ((imgSlices score2.image).getD (batch1 0 (some 0)).slices [])[0]? = some 0 ∧ 0 + 1 < ((imgSlices score2.image).getD 0 []).length ∧
      ((imgSlices score2.image).getD 0 [])[1]? = some 1 ∧ ((imgSlices score2.image).getD 0 []).length ≤ 1 + 1 ∧ (batch1 0 none).reread = false) ∧
    (let s := batching (some (batch1 1 none))
     s.score? 1 = some score2 ∧ (batch1 1 none).events = [event1] ∧ (s.enc.cmds.find? 7).map (fun c => c.events.length) = some (event1.index + 1) ∧
       (s.cmd? 7).map (fun k => cmdOpcode k.raw) = some 0x03) ∧
    (3, 15) ∉ (batching none).enc.disabled := by
  decide +kernel

/-! ### Tables -/

/-- Table 5 of domain 0: four rows of 16 FP16 values, two versions, one frame of hot area. -/
def table5 : Tab := { owner := 0, kind := 0, fmt := 2, elems := 16, rowCount := 4, slots := 2, vers := [(0, { num := 3 })], frames := [160] }

/-- A node with that table, and command 7 holding its current version in slot 0. -/
def tabled (k : Cmd) (x : Tab := table5) (mem : Memory := []) : State :=
  having { withDoms linked [] with gth := { tables := [(5, x)] }, host := mem } k

/-- GATHER of a request at 0x1000: header and one bag of `n` indices. -/
def gatherCmd : Cmd := { cmdOf (entry 0x10 [(24, 8, 0x1000), (40, 8, 0x4000)]) with versions := [(5, 0xFFFFFFFF, 0)] }
def gatherReq (version samples width n : Nat) : Memory :=
  Memory.writeN [] 0x1000 (bytesOf 48 [(0, 1, version), (2, 2, 1), (4, 4, samples), (8, 2, width), (16, 4, 5), (20, 4, 0xFFFFFFFF), (24, 8, 0x3000), (40, 4, n)])

/-- The bags of that request. -/
def gatherBags (n : Nat) : List Bag :=
  [((tabled gatherCmd table5 (gatherReq 0x10 1 16 n)).at 0).bagAt gatherCmd (((tabled gatherCmd table5 (gatherReq 0x10 1 16 n)).at 0).cmdRead gatherCmd 0x1010 32)]

/-- What every clause about a good gather asks. -/
abbrev Gathers (n : Nat) : Prop :=
  let s := tabled gatherCmd table5 (gatherReq 0x10 1 16 n)
  let h := (s.at 0).cmdRead gatherCmd (cmdPtrA gatherCmd.raw) 16
  s.accepts pgGth = true ∧ Asked s 0x10 gatherCmd ∧ fieldAt h 0 1 / 16 = 1 ∧ fieldAt h 2 2 = 1 ∧ fieldAt h 4 4 = 1 ∧ fieldAt h 8 2 = 16 ∧
    (s.at 0).bagRefusal gatherCmd (gatherBags n) 1 16 = none ∧ ((gatherBags n).map fun b => b.count).sum = n

theorem witness_GathersAndUpdates_gather : Gathers 64 ∧ Gathers 65 ∧ (tabled gatherCmd).cst.uniques.find? 7 = none ∧
    (let s := tabled gatherCmd table5 (gatherReq 0x20 1 16 1)
     Asked s 0x10 gatherCmd ∧ fieldAt ((s.at 0).cmdRead gatherCmd (cmdPtrA gatherCmd.raw) 16) 0 1 / 16 ≠ 1) ∧
    ((tabled gatherCmd table5 (gatherReq 0x10 1 16 0)).at 0).bagRefusal gatherCmd (gatherBags 0) 1 16 = some .malformed := by
  decide +kernel

/-- TABLE_UPDATE of a sub-operation with its flags, on one index of table 5, which holds row 3 at 0x1000. -/
def updateCmd (sub flags : Nat) (num : Nat := 0xFFFFFFFF) (n : Nat := 1) : Cmd :=
  { cmdOf (entry 0x11 [(8, 4, 5), (12, 4, num), (24, 8, 0x1000), (32, 8, 0x2000), (40, 8, n), (48, 1, sub), (50, 1, flags)]) with versions := [(5, 0xFFFFFFFF, 0)] }

/-- The node with that command, its index and a gradient whose first element has these bits. -/
def updating (k : Cmd) (g : Nat) (x : Tab := table5) : State := tabled k x ((Memory.writeN [] 0x1000 (natLE 8 3)).writeN 0x2000 (natLE 4 g))

/-- What every clause about a one-row update asks. -/
abbrev Updates (s : State) (k : Cmd) : Prop :=
  Asked s 0x11 k ∧ s.accepts pgGth = true ∧ s.updBehind 7 k = false ∧ fieldAt k.raw 8 4 = 5 ∧ k.slotFor 5 (fieldAt k.raw 12 4) = some 0 ∧ cmdPtrC k.raw = 1 ∧
    leNat ((s.at 0).cmdRead k (cmdPtrA k.raw) 8) = 3 ∧ s.tab? 5 = some table5 ∧ s.keyOf table5 3 = some 3

theorem witness_GathersAndUpdates_updates :
    (Updates (updating (updateCmd 0 0) 0) (updateCmd 0 0) ∧ fieldAt (updateCmd 0 0).raw 48 1 = 0 ∧ table5.vers.has 0 = true ∧ table5.kind ≠ 2 ∧
      bitOf ((updating (updateCmd 0 0) 0).reg pgGth 0x040) 0 = true ∧ bitOf ((reg running pgGth 0x040 0).reg pgGth 0x040) 0 = false) := by
  decide +kernel

theorem witness_GathersAndUpdates_gradients :
    (let k := updateCmd 1 1
     Updates (updating k 0) k ∧ fieldAt k.raw 48 1 = 1 ∧ fieldAt k.raw 49 1 = 0 ∧ badRate k.raw 52 = false ∧ bitOf (fieldAt k.raw 50 1) 0 = true ∧
       ((List.range 16).map fun e => Fl.ofBits fp32 (leNat (((updating k 0x7F800000).at 0).cmdRead k (cmdPtrB k.raw + 4 * e) 4))).any (fun z => !z.isFinite) = true ∧
       ((List.range 16).map fun e => Fl.ofBits fp32 (leNat (((updating k 0x3F800000).at 0).cmdRead k (cmdPtrB k.raw + 4 * e) 4))).any (fun z => !z.isFinite) = false ∧
       table5.adagrad = false) := by
  decide +kernel

theorem witness_GathersAndUpdates_migrates :
    (let k := updateCmd 4 4
     Updates (updating k 0) k ∧ fieldAt k.raw 48 1 = 4 ∧ bitOf (fieldAt k.raw 50 1) 2 = true ∧ (0, 3) ∉ table5.hot ∧ table5.hot.length < table5.hotRoom) ∧
    (let k := updateCmd 4 0
     Updates (updating k 0) k ∧ fieldAt k.raw 48 1 = 4 ∧ bitOf (fieldAt k.raw 50 1) 2 = false) ∧
    (let s := reg (tabled gatherCmd { table5 with autoHot := true }) pgGth 0x040 7
     s.live = true ∧ (s.tab? 5).map (fun x => (x.autoHot, x.kind)) = some (true, 0) ∧ bitOf (s.reg pgGth 0x040) 2 = true ∧
       0 + s.reg pgGth 0x04C * 1000 ≤ (s.at (s.reg pgGth 0x04C * 1000)).tapeTime) := by
  decide +kernel

/-- TABLE_CREATE of table 6 with its descriptor at 0x1000. -/
def createTab : Cmd := cmdOf (adminEntry 0x28 [(24, 8, 0x1000)])
def tabDesc (elems n : Nat) : List Byte := bytesOf 64 [(0, 1, 0x10), (2, 1, 2), (6, 2, elems), (8, 8, 4), (33, 1, 1), (34, 1, 1), (36, 4, n)]

/-- The node that is asked for it. -/
def creatingTab (elems n : Nat) : State :=
  { tabled createTab table5 (Memory.writeN [] 0x1000 (tabDesc elems n)) with
    dom := { doms := [(0, { state := .active, privs := 0x1F, quotaHeart := 9, quotaTop := 9 })] } }

/-- TABLE_DESTROY of table `n`. -/
def destroyTab (n : Nat) : Cmd := cmdOf (adminEntry 0x29 [(8, 4, n)])

theorem witness_TablesAndVersions_create :
    (AskedAdmin (creatingTab 16 6) 0x28 createTab ∧ ((creatingTab 16 6).at 0).cmdRead createTab (cmdPtrA createTab.raw) 64 = tabDesc 16 6 ∧
      fieldAt (tabDesc 16 6) 0 1 / 16 = 1 ∧ (creatingTab 16 6).tabOk (tabDesc 16 6) (tabOf (tabDesc 16 6)) = true ∧ (creatingTab 16 6).tab? 6 = none ∧
      ((creatingTab 16 6).domain (tabOf (tabDesc 16 6)).owner).state = .active ∧ (((creatingTab 16 6).at 0).takeHeart 0 1).2 = true ∧
      ((((creatingTab 16 6).at 0).takeHeart 0 1).1.takeTop 0 1).2 = some [160] ∧
      (tabOf (tabDesc 16 6)).slots * ceilDiv (tabOf (tabDesc 16 6)).rowCount (268435456 / (tabOf (tabDesc 16 6)).stride) = 1) ∧
    ((creatingTab 15 6).tabOk (tabDesc 15 6) (tabOf (tabDesc 15 6)) = false) ∧ ((creatingTab 16 5).tab? 5).isSome = true := by
  decide +kernel

theorem witness_TablesAndVersions_destroy :
    (AskedAdmin (tabled (destroyTab 5)) 0x29 (destroyTab 5) ∧ (tabled (destroyTab 5)).openTab? 5 = some table5 ∧
      ((tabled (destroyTab 5)).gth.tables.any fun e => e.2.kind == 2 && (e.2.accA == 5 || e.2.accB == 5)) = false) ∧
    (AskedAdmin (tabled (destroyTab 6)) 0x29 (destroyTab 6) ∧ (tabled (destroyTab 6)).openTab? 6 = none) ∧
    (let s := { tabled (destroyTab 5) with gth := { tables := [(5, table5), (6, { owner := 0, kind := 2, elems := 16, accA := 5, accB := 7 })] } }
     (s.gth.tables.any fun e => e.2.kind == 2 && (e.2.accA == 5 || e.2.accB == 5)) = true ∧ s.openTab? 5 = some table5) ∧
    (let s := tabled (destroyTab 5) { table5 with isClosed := some 7 }
     (s.tab? 5).map (·.isClosed) = some (some 7) ∧ (s.qmg.cmds.any fun e => e.2.namesTab 5) = false) := by
  decide

/-- TABLE_SWITCH of table 5 to a version. -/
def switchCmd (n num : Nat) (ph : CmdPhase := .admitted) : Cmd := { cmdOf (entry 0x12 [(8, 4, n), (12, 4, num)]) with phase := ph }

/-- Table 5 with a second version. -/
def table5b : Tab := { table5 with vers := [(0, { num := 3 }), (1, { num := 4 })], nextVer := 2, hot := [(1, 2)] }

theorem witness_TablesAndVersions_versions :
    (let k := updateCmd 2 2 9 0
     Asked (tabled k) 0x11 k ∧ (tabled k).updBehind 7 k = false ∧ (tabled k).tab? 5 = some table5 ∧ cmdPtrC k.raw = 0 ∧ fieldAt k.raw 48 1 = 2 ∧
       fieldAt k.raw 12 4 = 9 ∧ 9 ≠ currentVersion ∧ (table5.vers.any fun v => v.2.num == 9 && !v.2.dropped) = false ∧ (tabled k).freeDropped 5 table5 = table5 ∧
       table5.vers.length < table5.slots ∧ (tabled k table5b).freeDropped 5 table5b = table5b ∧ table5b.slots ≤ table5b.vers.length) ∧
    (let k := updateCmd 3 0 4 0
     Asked (tabled k table5b) 0x11 k ∧ fieldAt k.raw 48 1 = 3 ∧ table5b.vers.wf = true ∧
       List.find? (fun v => v.2.num == 4 && !v.2.dropped) table5b.vers = some (1, { num := 4 }) ∧ 1 ≠ table5b.current ∧
       List.find? (fun v => v.2.num == 3 && !v.2.dropped) table5b.vers = some (0, { num := 3 }) ∧ 0 = table5b.current ∧ fieldAt (updateCmd 3 0 3 0).raw 12 4 = 3) := by
  decide +kernel

theorem witness_TablesAndVersions_switch :
    (let k := switchCmd 5 4
     Asked (tabled k table5b) 0x12 k ∧ (tabled k table5b).toSchedule k = false ∧ (tabled k table5b).openTab? 5 = some table5b ∧ table5b.kind ≠ 2 ∧
       Asked (tabled (switchCmd 6 4)) 0x12 (switchCmd 6 4) ∧ (tabled (switchCmd 6 4)).openTab? 6 = none ∧ Asked (tabled (switchCmd 5 3)) 0x12 (switchCmd 5 3) ∧
       table5.switchers = []) ∧
    (let k := switchCmd 5 4 .waiting
     let s := tabled k { table5b with switchers := [7] }
     s.live = true ∧ s.cmd? 7 = some k ∧ cmdOpcode k.raw = 0x12 ∧ k.phase = .waiting ∧ 7 < 2 ^ 40 ∧ s.switchBlocked 5 1 7 = false ∧
       (s.tab? 5).map (fun x => x.switchers.head?) = some (some 7) ∧ (table5b.switchers.head? ≠ some 7)) := by
  decide +kernel

/-! ### The Base tier -/

/-- Volume 9 of domain 0, one GiB; units 0 and 1 of it mapped to pages 0x5000 and 0x5001 of a closed block; 200 blocks a LUN on two LUNs. -/
def flash : BftBlock :=
  { volumes := [(9, { owner := 0, gib := 1 })],
    units := [(9 * 2 ^ 32, { page := 0x5000, data := [(3, 7)] }), (9 * 2 ^ 32 + 1, { page := 0x5001 })],
    blocks := [(5, { use := .closed, valid := [(0, 9 * 2 ^ 32), (1, 9 * 2 ^ 32 + 1)] })], luns := [0, 16], blocksPerLun := 200, good0 := 398, ratedPE := 9,
    exported := 4 }

/-- A node with it and command 7. -/
def based (k : Cmd) (f : BftBlock := flash) : State := having { withDoms linked [] with bft := f } k

/-- A Base command on volume `vol`: its bytes from an offset. -/
def baseCmd (op vol off len : Nat) (temp : Nat := 0) : Cmd :=
  cmdOf (entry op [(8, 4, vol), (24, 8, 0x10000), (40, 8, len), (48, 8, off), (56, 1, temp)])

/-- What every clause about Base commands asks. -/
abbrev Bases (s : State) (op : Nat) (k : Cmd) : Prop := Asked s op k ∧ s.accepts pgBft = true ∧ s.baseBehind 7 k = false

theorem witness_BaseCommands_refused :
    (Bases (based (baseCmd 0x18 8 0 64)) 0x18 (baseCmd 0x18 8 0 64) ∧ (based (baseCmd 0x18 8 0 64)).baseRefusal (baseCmd 0x18 8 0 64) 64 = some .notFound) ∧
    (Bases (based (baseCmd 0x19 9 0 64)) 0x19 (baseCmd 0x19 9 0 64) ∧ (based (baseCmd 0x19 9 0 64)).baseRefusal (baseCmd 0x19 9 0 64) 4096 = some .malformed) ∧
    (Bases (based (baseCmd 0x1A 9 0 4096)) 0x1A (baseCmd 0x1A 9 0 4096) ∧
      (based (baseCmd 0x1A 9 0 4096)).baseRefusal (baseCmd 0x1A 9 0 4096) 16384 = some .malformed) := by
  decide

theorem witness_BaseCommands_read :
    (let k := baseCmd 0x18 9 (2 ^ 30 - 4096) 4096
     Bases (based k) 0x18 k ∧ (based k).baseRefusal k 64 = none ∧ baseOff k.raw % 4096 + baseLen k.raw ≤ 4096 ∧ k.origin = .queue 1 ∧ k.failed = 0 ∧
       k.aborting = false ∧ (based k).bft.ops.any (fun e => e.2.task.cid? == some 7) = false ∧ cmdPtrB k.raw = 0 ∧
       (based k).bft.units.find? (unitKey 9 (baseOff k.raw / 16384)) = none ∧ linkUp (based k) = true) ∧
    (let k := baseCmd 0x18 9 64 64
     Bases (based k) 0x18 k ∧ (based k).baseRefusal k 64 = none ∧ ((based k).bft.units.find? (unitKey 9 (baseOff k.raw / 16384))).isSome = true) := by
  decide +kernel

theorem witness_BaseCommands_write :
    (let k := baseCmd 0x19 9 16384 16384 0xFF
     Bases (based k) 0x19 k ∧ (based k).baseRefusal k 4096 = none ∧ fieldAt k.raw 56 1 = 0xFF ∧ (based k).writeBarred 9 = false ∧ baseOff k.raw % 16384 = 0 ∧
       baseLen k.raw = 16384 ∧ (((based k).at 0).allotMany (streamOf 0xFF) 1).map (fun x => x.2) = some [0] ∧
       (based k { flash with exhausted := true }).bft.exhausted = true ∧ (based k { flash with luns := [] }).bft.stalled = false ∧
       (((based k { flash with luns := [] }).at 0).allotMany (streamOf 0xFF) 1).isNone = true) ∧
    (let s := based (baseCmd 0x19 9 0 4096) { flash with waits := [(7, 3)] }
     s.live = true ∧ s.bft.waits.find? 7 = some 3 ∧ 3 + s.reg pgBft 0x050 * 1000000 < max s.now (4 + s.reg pgBft 0x050 * 1000000) ∧
       max s.now (3 + s.reg pgBft 0x050 * 1000000) ≤ 3 + s.reg pgBft 0x050 * 1000000) ∧
    (let k := baseCmd 0x1A 9 16384 32768
     Bases (based k) 0x1A k ∧ (based k).baseRefusal k 16384 = none ∧ (based k).writeBarred 9 = false ∧ cmdPtrB k.raw = 0) := by
  decide +kernel

/-- The node with an operation on its devices. -/
def operating (task : FlashTask) (page : Nat) (f : BftBlock := flash) : State := based (baseCmd 0x18 9 64 64) { f with ops := [(3, { task := task, page := page })] }

theorem witness_FlashOperations_reads :
    (let s := operating (.read 7 0) 0x5000
     s.live = true ∧ s.bft.ops.find? 3 = some { task := .read 7 0, page := 0x5000 } ∧ s.busOpen (blockChan (pageBlock 0x5000)) = true ∧
       (s.cmd? 7).isSome = true ∧ (s.bft.units.find? (unitKey 9 0)).map (fun x => (x.lost, x.bad)) = some (false, []) ∧ s.bft.victim = none ∧ s.bft.victims = [] ∧
       128 ≤ s.bft.freeBlocks ∧ ({ s with cal := { s.cal with windows := [(0x2000, { ends := 9 })] } } : State).busOpen (blockChan (pageBlock 0x5000)) = false) := by
  decide +kernel

theorem witness_FlashOperations_others :
    (0x5002 ≠ noPage ∧ pageBlock 0x5002 / 65536 < 512 ∧ (operating .erase 0x5002).bft.ops.find? 3 = some { task := .erase, page := 0x5002 } ∧
      (operating (.prog 7 5 []) 0x6000).bft.ops.find? 3 = some { task := .prog 7 5 [], page := 0x6000 }) ∧
    (let s := operating (.check (9 * 2 ^ 32) 0x5000) 0x6000
     (s.bft.units.find? (9 * 2 ^ 32)).map (·.page) = some 0x5000 ∧
       ((operating (.check (9 * 2 ^ 32) 0x5003) 0x6000).bft.units.find? (9 * 2 ^ 32)).map (·.page) ≠ some 0x5003) ∧
    (let s := reg (operating .erase 0x5002) pgBft 0x040 0xF
     bitOf (s.reg pgBft 0x040) 3 = true ∧ (s.blk 5).use = .closed ∧ bitOf (s.reg pgBft 0x040) 2 = true ∧ 5 ∉ s.bft.victims ∧ s.bft.victim ≠ some 5 ∧
       (s.blk 6).use ≠ .closed ∧ bitOf (s.reg pgBft 0x040) 0 = true ∧ s.bft.ftlAt + s.reg pgBft 0x04C * 1000000000 ≤ max s.now (s.reg pgBft 0x04C * 1000000000) ∧
       max s.now (s.reg pgBft 0x04C * 1000000000 - 1) < s.bft.ftlAt + s.reg pgBft 0x04C * 1000000000 ∧ bitOf (s.reg pgBft 0x040) 1 = true ∧
       s.bft.tempAt + 60000000000 ≤ max s.now 60000000000 ∧ max s.now 59999999999 < s.bft.tempAt + 60000000000) ∧
    3 ≤ (operating .erase 0x5002 { flash with lunFails := [(0, 2)] }).bft.lunFails.getD (pageBlock 0x5002 / 65536) 0 + 1 := by
  decide +kernel

/-- An ADMIN command on a volume, for domain 0 and a size. -/
def volCmd (op vol gib : Nat) : Cmd := cmdOf (adminEntry op [(12, 4, vol), (52, 4, gib)])

/-- The node with it, a Base quota, and blocks to allot. -/
def volumed (k : Cmd) (closed : Option Nat := none) : State :=
  having { linked with dom := { doms := [(0, { state := .active, privs := 0x1F, quotaBase := 9 })] },
                       bft := { flash with good0 := 9000, spareFirst := some 5, volumes := [(9, { owner := 0, gib := 1, isClosed := closed })] } } k

theorem witness_VolumesAndHealth :
    (let k := volCmd 0x40 16383 3
     AskedAdmin (volumed k) 0x40 k ∧ fieldAt k.raw 12 4 < 16384 ∧ (volumed k).bft.volumes.has 16383 = false ∧ ((volumed k).domain 0).state = .active ∧
       ((volumed k).domain 0).usedBase + 3 ≤ ((volumed k).domain 0).quotaBase ∧
       ((volumed k).bft.volumes.map fun e => e.2.gib).sum + 3 ≤ (volumed k).bft.allocatable ∧ 16384 ≤ fieldAt (volCmd 0x40 16384 3).raw 12 4 ∧
       fieldAt (volCmd 0x40 1 0).raw 52 4 = 0 ∧ (volumed k).bft.volumes.has 9 = true) ∧
    (AskedAdmin (volumed (volCmd 0x41 9 0)) 0x41 (volCmd 0x41 9 0) ∧ (volumed (volCmd 0x41 9 0)).openVolume? 9 = some { owner := 0, gib := 1 } ∧
      AskedAdmin (volumed (volCmd 0x41 8 0)) 0x41 (volCmd 0x41 8 0) ∧ (volumed (volCmd 0x41 8 0)).openVolume? 8 = none) ∧
    (AskedAdmin (volumed (volCmd 0x42 9 0)) 0x42 (volCmd 0x42 9 0) ∧ (volumed (volCmd 0x42 9 0)).bft.spareBlocks ≠ 0 ∧ flash.spareBlocks = 0 ∧
      (based (volCmd 0x42 9 0)).openVolume? 9 = some { owner := 0, gib := 1 }) ∧
    AskedAdmin (volumed (volCmd 0x44 0 0)) 0x44 (volCmd 0x44 0 0) ∧
    (let s := volumed (volCmd 0x41 9 0) (some 7)
     (s.bft.volumes.find? 9).map (fun v => (v.isClosed, v.charged)) = some (some 7, true) ∧ (s.qmg.cmds.any fun e => e.2.namesVolume 9) = false) := by
  decide +kernel

/-! ### Security -/

/-- The Alias key's node: every service of SEC enabled, a connection negotiated over MCTP, sessions 1 (finished) and 2 (in its handshake) on it, a signature
given outside a session, and the trees ready at leaf 7 of `e`. -/
def attesting (e : Nat := 1024) (committing : Bool := false) (wait : List SpdmRequest := []) : State := { reg linked pgSec 0x040 7 with
  sec := { mctp := { version := true, caps := true, algs := true }, sessions := [(1, { path := .mctp, finished := true }), (2, { path := .mctp })],
           nextSession := 3, lastSigned := [(2 ^ 32, 5)], lmsNext := 7, lmsEnd := e, lmsReady := true, lmsCommitting := committing, lmsWait := wait } }

/-- A request over MCTP with a first parameter. -/
def ask (session : Option Nat) (p : Nat := 0) (bs : List Byte := zeroBytes 8) : SpdmRequest :=
  { path := .mctp, session := session, bytes := [0x12, 0x84] ++ natLE 1 p ++ bs }

theorem witness_SpdmRequests_path : (attesting.live = true ∧ attesting.spdmOpen (ask none) = true ∧ running.live = true ∧ (reg running pgSec 0x040 3).spdmOpen (ask none) = false) ∧
    ((reg linked pgSec 0x040 2).spdmOpen { path := .doe, session := none, bytes := [] } = true ∧
      (reg running pgSec 0x040 2).spdmOpen { path := .doe, session := none, bytes := [] } = false) ∧
    (attesting.conn' (ask none).path).version = true ∧ (attesting.conn' (ask none).path).caps = true := by decide

theorem witness_SpdmRequests_negotiated : attesting.negotiated (ask none) = true ∧ attesting.negotiated (ask (some 1)) = true ∧ attesting.negotiated (ask (some 2)) = false ∧
    slot0 (ask none) = true ∧ bitOf (fieldAt (ask none 1).bytes 2 1) 0 = true ∧ bitOf (fieldAt (ask none).bytes 2 1) 0 = false ∧ (ask none).session = none ∧
    attesting.sec.sessions.length < 4 ∧ 4 ≤ [1, 2, 3, 4].length ∧ fieldAt (ask none 0 (zeroBytes 4 ++ natLE 4 4096)).bytes 8 4 ≤ 4096 ∧
    attesting.sec.sessions.find? 2 = some { path := .mctp } ∧ attesting.sec.sessions.find? 1 = some { path := .mctp, finished := true } := by decide

theorem witness_SpdmRequests_full :
    ({ attesting with sec := { attesting.sec with sessions := [1, 2, 3, 4].map fun n => (n, { path := .mctp, finished := true }) } } : State).negotiated (ask (some 4)) = true ∧
    4 ≤ ([1, 2, 3, 4].map fun n => ((n, { path := .mctp, finished := true }) : Nat × SpdmSess)).length := by decide

/-- What `natLE` lays down, `leNat` reads. -/
theorem leNat_natLE (n v : Nat) : leNat (natLE n v) = v % 256 ^ n := by
  induction n generalizing v with
  | zero => simp [leNat, natLE, Nat.mod_one]
  | succ n ih =>
    have h : 256 ^ (n + 1) = 256 * 256 ^ n := by rw [Nat.pow_succ, Nat.mul_comm]
    rw [natLE, leNat, ih, BitVec.toNat_ofNat, h, Nat.mod_mul]

/-- A VENDOR_DEFINED_REQUEST of the manual's maker. -/
def countersign (session : Option Nat) : SpdmRequest :=
  { path := .mctp, session := session, bytes := [0x12, 0xFE, 0, 0, 4, 0, 4] ++ natLE 4 Config.pen.toNat ++ [0, 0, 1] }

theorem countersign_is (session : Option Nat) : isCountersign (countersign session) = true := by
  have h : fieldAt (countersign session).bytes 7 4 = Config.pen.toNat := by
    have hb : bytesAt (countersign session).bytes 7 4 = natLE 4 Config.pen.toNat := rfl
    rw [fieldAt, hb, leNat_natLE]
    exact Nat.mod_eq_of_lt Config.pen.isLt
  have h4 : fieldAt (countersign session).bytes 4 2 = 4 := rfl
  have h6 : fieldAt (countersign session).bytes 6 1 = 4 := rfl
  have h13 : fieldAt (countersign session).bytes (7 + 4 + 2) 1 = 1 := rfl
  simp [isCountersign, h, h4, h6, h13]

theorem witness_Countersignatures : attesting.live = true ∧ attesting.spdmOpen (countersign none) = true ∧
    attesting.negotiated (countersign none) = true ∧ isCountersign (countersign none) = true :=
  ⟨by decide, by decide, by decide, countersign_is _⟩

theorem witness_Countersignatures_unsigned : attesting.negotiated (countersign (some 1)) = true ∧ isCountersign (countersign (some 1)) = true ∧
    attesting.sec.lastSigned.find? (signKey (countersign (some 1))) = none :=
  ⟨by decide, countersign_is _, by decide⟩

theorem witness_Countersignatures_leaf : attesting.sec.lastSigned.find? (signKey (countersign none)) = some 5 ∧ attesting.lmsAvailable = true ∧
    attesting.sec.lmsWait = [] ∧ attesting.sec.lmsCommitting = false ∧ attesting.sec.lmsNext < attesting.sec.lmsEnd ∧
    (attesting 7).sec.lmsEnd ≤ (attesting 7).sec.lmsNext ∧ (reg (attesting 7) pgSec 0x040 6).lmsAvailable = false :=
  ⟨by decide, by decide, rfl, rfl, by decide, by decide, by decide⟩

/-- The node whose one waiting request holds the leaves. -/
def committing : State := attesting 7 true [countersign none]

theorem witness_Countersignatures_commit : committing.sec.lmsCommitting = true ∧ (attesting 7 true).sec.lmsWait = [] ∧
    committing.sec.lmsWait = [countersign none] ∧ committing.lmsAvailable = true ∧ committing.sec.lmsNext = committing.sec.lmsEnd ∧
    committing.sec.lastSigned.find? (signKey (countersign none)) = some 5 :=
  ⟨rfl, rfl, rfl, by decide, rfl, by decide⟩

/-- IMAGE_WRITE of 256 bytes from address 0x10000. -/
def imageCmd : Cmd := cmdOf (adminEntry 0x96 [(24, 8, 0x10000), (52, 4, 256)])

/-- Firmware of major version 1 and its key block of zeros. -/
def fwImage : List Byte := bytesOf 256 [(0, 4, 0x49475A46), (4, 1, 0x10), (5, 1, 1), (7, 1, 1), (24, 8, 64)]

/-- A node whose root slot 0 holds that key block's digest and whose host memory holds the image. -/
def imaging : State := having { linked with
  host := Memory.writeN [] 0x10000 fwImage, dom := { fuses := { slots := [sha384 (zeroBytes 160)] }, doms := [(0, { state := .active, privs := 0x1F })] } } imageCmd

set_option maxRecDepth 8000 in
theorem imaging_facts : (imaging.at 0).cmdRead imageCmd (cmdPtrA imageCmd.raw) (fieldAt imageCmd.raw 52 4) = fwImage ∧ bytesAt fwImage 64 160 = zeroBytes 160 ∧
    imageKind fwImage = 1 ∧ fieldAt fwImage 0 4 = 0x49475A46 ∧ fieldAt fwImage 4 1 = 16 ∧ bitOf (fieldAt fwImage 7 1) 0 = true ∧ fieldAt fwImage 6 1 = 0 ∧
    fieldAt fwImage 8 4 = 0 ∧ (sha384 (zeroBytes 160)).all (fun b => b == 0) = false := by decide +kernel

/-- The image passes every check but the signatures', and they are checked under its key block: that they verify is what `Config.sigOk` says. -/
theorem witness_Images : AskedAdmin imaging 0x96 imageCmd ∧ fwImage.length ≤ imaging.sec.regions.getD 1 0 ∧ imaging.sec.recovery = false ∧
    imaging.imageReason fwImage 1 =
      if !Config.sigOk 0 (bytesAt fwImage 64 97) (fwImage.take (fieldAt fwImage 24 8)) (bytesAt fwImage (fieldAt fwImage 24 8 + 8) 96) then 5
      else if !Config.sigOk 1 (bytesAt fwImage 164 52) (fwImage.take (fieldAt fwImage 24 8))
        (bytesAt fwImage (fieldAt fwImage 24 8 + 112) (fieldAt fwImage (fieldAt fwImage 24 8 + 104) 4)) then 6 else 0 := by
  obtain ⟨-, h2, h3, h4, h5, h6, h7, h8, h9⟩ := imaging_facts
  refine ⟨by decide, by decide +kernel, rfl, ?_⟩
  have hs : imaging.dom.fuses.slots.getD 0 (zeroBytes 48) = sha384 (zeroBytes 160) := by simp [imaging, having]
  rw [State.imageReason]
  simp only [h2, h3, h4, h5, h6, h7, h8, h9, hs]
  simp [imaging, having]

set_option maxRecDepth 8000 in
theorem witness_Images_malformed : AskedAdmin { imaging with host := [] } 0x96 imageCmd ∧
    ({ imaging with host := [] } : State).imageReason ((({ imaging with host := [] } : State).at 0).cmdRead imageCmd (cmdPtrA imageCmd.raw) 256)
      (imageKind ((({ imaging with host := [] } : State).at 0).cmdRead imageCmd (cmdPtrA imageCmd.raw) 256)) ≠ 0 ∧
    AskedAdmin (having linked (cmdOf (adminEntry 0x82 []))) 0x82 (cmdOf (adminEntry 0x82 [])) := by
  decide +kernel

/-! ### Calibration -/

/-- The header of a calibration set of a device, by R691's layout without seeds. -/
def setFront (tag : Nat) : List Byte :=
  natLE 1 0x10 ++ zeroBytes 3 ++ natLE 4 34240 ++ natLE 8 tag ++ zeroBytes 8 ++ natLE 4 64 ++ natLE 4 32832 ++ natLE 4 33984 ++ natLE 4 34240 ++ zeroBytes 24

/-- The set: the header, and sections of zeros. -/
def setOf (tag : Nat) : List Byte := setFront tag ++ zeroBytes 34176

theorem setFront_length (tag : Nat) : (setFront tag).length = 64 := rfl

theorem natLE_length (n v : Nat) : (natLE n v).length = n := by
  induction n generalizing v with
  | zero => rfl
  | succ n ih => rw [natLE, List.length_cons, ih]

theorem zeroBytes_length (n : Nat) : (zeroBytes n).length = n := List.length_replicate

theorem setOf_length (tag : Nat) : (setOf tag).length = 34240 := by
  have h : (setFront tag).length + (zeroBytes 34176).length = 64 + 34176 := by rw [setFront_length, zeroBytes_length 34176]
  exact List.length_append.trans h

theorem setOf_field (tag : Nat) {off n v : Nat} (h : bytesAt (setFront tag) off n = natLE n v) (ho : off + n ≤ 64) (hv : v < 256 ^ n) :
    fieldAt (setOf tag) off n = v := by
  have hb : bytesAt (setOf tag) off n = bytesAt (setFront tag) off n := by
    rw [bytesAt, bytesAt, setOf, List.drop_append_of_le_length (by rw [setFront_length]; omega),
      List.take_append_of_le_length (by rw [List.length_drop, setFront_length]; omega)]
  rw [fieldAt, hb, h, leNat_natLE, Nat.mod_eq_of_lt hv]

theorem setOf_fields (tag : Nat) : fieldAt (setOf tag) 0 1 = 0x10 ∧ fieldAt (setOf tag) 4 4 = 34240 ∧ fieldAt (setOf tag) 20 4 = 0 ∧
    fieldAt (setOf tag) 24 4 = 64 ∧ fieldAt (setOf tag) 28 4 = 32832 ∧ fieldAt (setOf tag) 32 4 = 33984 ∧ fieldAt (setOf tag) 36 4 = 34240 :=
  ⟨setOf_field tag rfl (by decide) (by decide), setOf_field tag rfl (by decide) (by decide), setOf_field tag rfl (by decide) (by decide),
    setOf_field tag rfl (by decide) (by decide), setOf_field tag rfl (by decide) (by decide), setOf_field tag rfl (by decide) (by decide),
    setOf_field tag rfl (by decide) (by decide)⟩

theorem setOf_seeds : bytesAt (setOf 5) 20 4 = zeroBytes 4 := by
  rw [bytesAt, setOf, List.drop_append_of_le_length (by decide), List.take_append_of_le_length (by decide)]
  rfl

theorem setOf_whole (tag : Nat) : setWhole (setOf tag) = true := by
  obtain ⟨h0, h4, h20, h24, h28, h32, h36⟩ := setOf_fields tag
  simp [setWhole, h0, h4, h20, h24, h28, h32, h36, setOf_length, seedsEnd]

theorem setOf_tag {tag : Nat} (h : tag < 2 ^ 64) : setTag (setOf tag) = tag := by
  exact setOf_field tag rfl (by decide) h

/-- A calibration command. -/
def calCmd (op : Nat) : Cmd := cmdOf (adminEntry op [(24, 8, 0x10000)])

/-- A node with it and the set of a device in its memory. -/
def calibrating (tag : Nat) : State := having { withDoms linked [] with host := Memory.writeN [] 0x10000 (setOf tag) } (calCmd 0x94)

theorem host_same (s : State) (t : Nat) : (s.at t).host = s.host := by simp [State.at]

theorem calibrating_reads (tag n : Nat) (hn : n ≤ 34240) : ((calibrating tag).at 0).cmdRead (calCmd 0x94) 0x10000 n = (setOf tag).take n := by
  apply List.ext_getElem
  · simp [State.cmdRead, calCmd, cmdOf, State.readBytes, setOf_length, hn]
  · intro i h1 h2
    have hl : linkUp ((calibrating tag).at 0) = true := by simp [calibrating, having, withDoms, State.at, linkUp, linked]
    have hh : ((calibrating tag).at 0).host = Memory.writeN [] 0x10000 (setOf tag) := by simp [calibrating, having, State.at]
    have hi : i < (setOf tag).length := by simp at h2; omega
    have hr : ((calibrating tag).at 0).host.read (0x10000 + i) = (setOf tag)[i] := by rw [hh]; exact Memory.read_writeN_inside _ _ hi
    have hq : (calibrating tag).host.read (0x10000 + i) = (setOf tag)[i] := by rw [← host_same (calibrating tag) 0]; exact hr
    simp [State.cmdRead, calCmd, cmdOf, Cmd.view, State.readBytes, State.readByte, View.inWin, hl, hq]

/-- A CAL_LOAD reads the set whole. -/
theorem calibrating_loads (tag : Nat) :
    let s := (calibrating tag).at 0
    s.cmdRead (calCmd 0x94) (cmdPtrA (calCmd 0x94).raw) (min (fieldAt (s.cmdRead (calCmd 0x94) (cmdPtrA (calCmd 0x94).raw) 64) 4 4) 1048576) = setOf tag := by
  have hp : cmdPtrA (calCmd 0x94).raw = 0x10000 := by decide
  have ht : (setOf tag).take 64 = setFront tag := List.take_left' (setFront_length tag)
  have hb : bytesAt (setFront tag) 4 4 = natLE 4 34240 := rfl
  have hf : fieldAt ((setOf tag).take 64) 4 4 = 34240 := by rw [ht, fieldAt, hb]; decide
  simp only [hp, calibrating_reads tag 64 (by decide), hf]
  have hm : min 34240 1048576 = 34240 := by decide
  rw [hm, calibrating_reads tag _ (Nat.le_refl _)]
  exact List.take_of_length_le (Nat.le_of_eq (setOf_length tag))

theorem witness_CalibrationSet_load : AskedAdmin (calibrating Config.deviceTag.toNat) 0x94 (calCmd 0x94) ∧ setWhole (setOf Config.deviceTag.toNat) = true ∧
    setTag (setOf Config.deviceTag.toNat) = Config.deviceTag.toNat ∧
    AskedAdmin (calibrating ((Config.deviceTag.toNat + 1) % 2 ^ 64)) 0x94 (calCmd 0x94) ∧
    setTag (setOf ((Config.deviceTag.toNat + 1) % 2 ^ 64)) ≠ Config.deviceTag.toNat := by
  have hd := Config.deviceTag.isLt
  refine ⟨⟨⟨rfl, rfl, rfl, rfl, by decide⟩, by decide⟩, setOf_whole _, setOf_tag hd, ⟨⟨rfl, rfl, rfl, rfl, by decide⟩, by decide⟩, ?_⟩
  rw [setOf_tag (Nat.mod_lt _ (by decide))]
  omega

theorem witness_CalibrationSet_broken : AskedAdmin (having (withDoms linked []) (calCmd 0x94)) 0x94 (calCmd 0x94) ∧ setWhole [] = false ∧
    (let s := having (withDoms linked []) (calCmd 0x94)
     (s.at 0).cmdRead (calCmd 0x94) (cmdPtrA (calCmd 0x94).raw) (min (fieldAt ((s.at 0).cmdRead (calCmd 0x94) (cmdPtrA (calCmd 0x94).raw) 64) 4 4) 1048576) = []) ∧
    AskedAdmin (having (withDoms linked []) (calCmd 0x93)) 0x93 (calCmd 0x93) := by decide +kernel

/-- CAL_SAVE, with Score 1's seed where asked. -/
def saveCmd (seed score : Nat) : Cmd := cmdOf (adminEntry 0x95 [(49, 1, seed), (50, 2, score)])

/-- The node with it, a set in force and Score 1. -/
def saving (k : Cmd) : State := having { withDoms linked [] with
  cal := { phase := .running, inForce := setOf 5 }, enc := { scores := [(1, { owner := 0, image := zeroBytes 128 })] } } k

/-- Bytes before an overlay are the ones that were there. -/
theorem bytesAt_overlay {bs new : List Byte} {off o n : Nat} (h : o + n ≤ off) (hb : off ≤ bs.length) : bytesAt (overlay bs off new) o n = bytesAt bs o n := by
  have hl : ((bs ++ zeroBytes (off + new.length - bs.length)).take off) = bs.take off := List.take_append_of_le_length hb
  simp only [bytesAt, overlay, hl, List.append_assoc]
  rw [List.drop_append_of_le_length (by rw [List.length_take]; omega), List.take_append_of_le_length (by rw [List.length_drop, List.length_take]; omega),
    List.drop_take, List.take_take, Nat.min_eq_left (by omega)]

theorem saving_seeds (k : Cmd) : fieldAt (saving k).readSet 20 4 = 0 := by
  have hs : (saving k).setNow = setOf 5 := rfl
  obtain ⟨-, h4, -, h24, h28, -, -⟩ := setOf_fields 5
  have ht : (setOf 5).take 34240 = setOf 5 := List.take_of_length_le (Nat.le_of_eq (setOf_length 5))
  simp only [State.readSet, hs, h4, h24, h28, ht]
  have hn : (saving k).heartNow.length = 32768 ∧ (saving k).serdesNow.length = 1152 := by
    have hc : ∀ n, ∀ f : Nat → Nat, ∀ l : List Nat, (l.flatMap fun i => natLE n (f i)).length = n * l.length := fun n f l => by
      induction l with
      | nil => rfl
      | cons a l ih => rw [List.flatMap_cons, List.length_append, natLE_length, ih, List.length_cons, Nat.mul_succ, Nat.add_comm]
    simp [State.heartNow, State.serdesNow, hc]
  have hb (x y : List Byte) (hx : x.length = 32768) (hy : y.length = 1152) : bytesAt (overlay (overlay (setOf 5) 64 x) 32832 y) 20 4 = zeroBytes 4 := by
    have hl : 32832 ≤ (overlay (setOf 5) 64 x).length := by
      simp only [overlay, List.length_append, List.length_take, List.length_drop, setOf_length, zeroBytes_length, hx]
      decide
    rw [bytesAt_overlay (by decide) hl, bytesAt_overlay (by decide) (by rw [setOf_length]; decide)]
    exact setOf_seeds
  rw [fieldAt, hb _ _ hn.1 hn.2]
  rfl

theorem witness_CalibrationSet_save : AskedAdmin (saving (saveCmd 0 0)) 0x95 (saveCmd 0 0) ∧ bitOf (fieldAt (saveCmd 0 0).raw 49 1) 0 = false ∧
    AskedAdmin (saving (saveCmd 1 2)) 0x95 (saveCmd 1 2) ∧ bitOf (fieldAt (saveCmd 1 2).raw 49 1) 0 = true ∧
    (saving (saveCmd 1 2)).score? (fieldAt (saveCmd 1 2).raw 50 2) = none ∧
    AskedAdmin (saving (saveCmd 1 1)) 0x95 (saveCmd 1 1) ∧ (saving (saveCmd 1 1)).score? (fieldAt (saveCmd 1 1).raw 50 2) = some { owner := 0, image := zeroBytes 128 } ∧
    (let set := (saving (saveCmd 1 1)).readSet
     withSeed (seedList set (min 64 (fieldAt set 20 4)) (fieldAt set 36 4)) (scoreSeed { owner := 0, image := zeroBytes 128 }) =
       some [scoreSeed { owner := 0, image := zeroBytes 128 }]) := by
  refine ⟨⟨⟨rfl, rfl, rfl, rfl, by decide⟩, by decide⟩, by decide, ⟨⟨rfl, rfl, rfl, rfl, by decide⟩, by decide⟩, by decide, by decide,
    ⟨⟨rfl, rfl, rfl, rfl, by decide⟩, by decide⟩, rfl, ?_⟩
  show withSeed (seedList _ (min 64 (fieldAt (saving (saveCmd 1 1)).readSet 20 4)) _) _ = _
  rw [saving_seeds]
  rfl

/-- A maintenance command. -/
def maintCmd (op : Nat) : Cmd := cmdOf (adminEntry op [])

theorem witness_CalibrationSet_maintenance :
    (AskedAdmin (having (withDoms linked []) (maintCmd 0x91)) 0x91 (maintCmd 0x91) ∧
      ((having (withDoms linked []) (maintCmd 0x91)).qmg.cmds.any fun e => decide (e.1 < 7) && e.2.domain != 0 &&
        ((having (withDoms linked []) (maintCmd 0x91)).cueHolding e.1).isNone) = false) ∧
    (let s : State := { having (withDoms linked []) (maintCmd 0x91) with qmg := { cmds := [(6, cmdOf (entry 3 []) 1), (7, maintCmd 0x91)], nextCid := 8 } }
     AskedAdmin s 0x91 (maintCmd 0x91) ∧ (s.qmg.cmds.any fun e => decide (e.1 < 7) && e.2.domain != 0 && (s.cueHolding e.1).isNone) = true) ∧
    AskedAdmin (having (withDoms linked []) (maintCmd 0x92)) 0x92 (maintCmd 0x92) := by decide

/-- A SELFTEST of a kind on a target, with the Immediate flag or without, for a length; and a CALIBRATE so. -/
def testOf (kind target : Nat) (now : Bool) (len : Nat := 50) (op : Nat := 0x31) : Cmd :=
  cmdOf (entry op [(1, 1, if now then 1 else 0), (8, 2, target), (48, 1, kind), (52, 2, len)])

/-- The node with it: port 3 up with Understudy lane 4, out of maintenance or in it. -/
def rehearsing (k : Cmd) (maintenance : Bool := false) : State := having { withDoms linked [] with
  cal := { phase := .running, maintenance := maintenance }, fab := { ports := [{}, {}, {}, { up := true, lanes := [0, 1, 2, 3], understudy := some 4 }] } } k

theorem witness_RehearsalWindows_refused : targetOf 0x11D = none ∧ targetOf 0xFF = none ∧ targetOf 0x1200 = none ∧ targetOf 0x2020 = none ∧
    (∀ kind ∈ [0, 1, 2, 3], Asked (rehearsing (testOf kind 0x11D true)) 0x31 (testOf kind 0x11D true) ∧
      fieldAt (testOf kind 0x11D true).raw 48 1 = kind ∧ fieldAt (testOf kind 0x11D true).raw 8 2 = 0x11D) ∧
    Asked (rehearsing (testOf 0 0x11D true 1 0x30)) 0x30 (testOf 0 0x11D true 1 0x30) ∧
    (Asked (rehearsing (testOf 0 0x201F true 51 0x30)) 0x30 (testOf 0 0x201F true 51 0x30) ∧ targetOf 0x201F = some (.flash 31) ∧
      50 < fieldAt (testOf 0 0x201F true 51 0x30).raw 52 2) := by decide

theorem witness_RehearsalWindows_lane : targetOf 0x11C = some (.lane 3 4) ∧
    (Asked (rehearsing (testOf 0 0x11C true)) 0x31 (testOf 0 0x11C true) ∧ fieldAt (testOf 0 0x11C true).raw 48 1 = 0 ∧
      1 ≤ fieldAt (testOf 0 0x11C true).raw 52 2 ∧ fieldAt (testOf 0 0x11C true).raw 52 2 ≤ 50 ∧ bitOf (cmdFlags (testOf 0 0x11C true).raw) 0 = true ∧
      (rehearsing (testOf 0 0x11C true)).targetBusy (.lane 3 4) = false ∧ ((rehearsing (testOf 0 0x11C true)).port 3).understudy = some 4) ∧
    bitOf (cmdFlags (testOf 0 0x11C false).raw) 0 = false ∧
    (targetOf 0x100 = some (.lane 0 0) ∧ Asked (rehearsing (testOf 0 0x100 true)) 0x31 (testOf 0 0x100 true) ∧
      (rehearsing (testOf 0 0x100 true)).targetBusy (.lane 0 0) = true) := by decide

theorem witness_RehearsalWindows_others : (targetOf 0x11FF = some (.pseudo 7 63) ∧ targetOf 0x118 = some (.lane 3 0)) ∧
    (Asked (rehearsing (testOf 1 0x11FF true 1)) 0x31 (testOf 1 0x11FF true 1) ∧ (rehearsing (testOf 1 0x11FF true 1)).targetBusy (.pseudo 7 63) = false) ∧
    (Asked (rehearsing (testOf 2 0x11FF true)) 0x31 (testOf 2 0x11FF true) ∧ (rehearsing (testOf 2 0x11FF true)).cal.maintenance = false ∧
      (rehearsing (testOf 2 0x11FF true) true).cal.maintenance = true ∧ (rehearsing (testOf 2 0x11FF true) true).cal.windows.has 0x11FF = false ∧
      (rehearsing (testOf 2 0x11FF true) true).windowIn (0x1000 + 64 * 7) (0x1040 + 64 * 7) = false) ∧
    (Asked (rehearsing (testOf 3 0x118 true)) 0x31 (testOf 3 0x118 true) ∧ ((rehearsing (testOf 3 0x118 true)).port 3).up = true ∧
      (rehearsing (testOf 3 0x118 true) true).cal.windows.has 0x118 = false) ∧
    (Asked (rehearsing (testOf 0 0x201F true 50 0x30)) 0x30 (testOf 0 0x201F true 50 0x30) ∧
      (rehearsing (testOf 0 0x201F true 50 0x30)).targetBusy (.flash 31) = false ∧ (Target.flash 31).isLane = false) ∧
    (Asked (rehearsing (testOf 0 0x100 true 50 0x30)) 0x30 (testOf 0 0x100 true 50 0x30) ∧
      (rehearsing (testOf 0 0x100 true 50 0x30)).targetBusy (.lane 0 0) = true) := by decide

theorem witness_RehearsalWindows_end : (running.live = true ∧ running.cal.windows.find? 0x1000 = none) ∧
    (let w : Window := { ends := 50000, sweep := false, swapped := false, serves := [7] }
     let k := testOf 0 0x11FF true 50 0x30
     let s : State := { rehearsing k with cal := { phase := .running, windows := [(0x11FF, w)] } }
     s.live = true ∧ s.cal.windows.find? 0x11FF = some w ∧ targetOf 0x11FF = some (.pseudo 7 63) ∧ w.sweep = false ∧ w.serves = [7] ∧ s.cmd? 7 = some k ∧
       cmdOpcode k.raw = 0x30) := by decide

/-! ### The fabric's links -/

/-- A node with port 3 as given, its link enabled. -/
def ported (f : FabPort) : State := { (reg linked (pgFab 3) 0x040 3) with fab := { ports := [{}, {}, {}, f] } }

/-- An offer of generation 1. -/
def offerBytes : List Byte := bytesOf 32 [(0, 1, 1), (16, 2, 5), (24, 8, 77)]

/-- What a bring-up finds when everything is sound. -/
def soundPort : PortBringUp :=
  { goodLanes := [1, 4], modulePresent := true, moduleSupported := true, offer := some offerBytes, delays := List.replicate 16 (0, 5, 7, 14), partnerCredits := [] }

theorem witness_PortsAndLanes_up :
    (let s := ported {}
     s.live = true ∧ 3 < 4 ∧ 3 < s.fab.ports.length ∧ s.sec.recovery = false ∧ s.fabCtrl 3 0 = true ∧ (s.port 3).up = false ∧
       (s.port 3).tried + 100000000 ≤ max s.now 100000000 ∧ max s.now 99999999 < (s.port 3).tried + 100000000 ∧
       2 ≤ ((s.port 3).withLanes soundPort.goodLanes).lanes.length ∧ soundPort.offer = some offerBytes ∧ (offerOf offerBytes).choose = some (1, 0) ∧
       s.lacksFloor (offerOf offerBytes) = false ∧ soundPort.delays.length = 16 ∧ soundPort.modulePresent = true ∧ soundPort.moduleSupported = true) ∧
    (reg (ported {}) (pgFab 3) 0x040 2).fabCtrl 3 0 = false := by decide

theorem witness_PortsAndLanes_down : ((ported { up := true, wasUp := true }).port 3).up = true ∧ ((ported { up := true, wasUp := true }).port 3).wasUp = true ∧
    ((ported { up := true }).port 3).wasUp = false := by decide

theorem witness_PortsAndLanes_lanes :
    (let s := ported { up := true, negotiated := true, lanes := [0, 1, 2, 3], understudy := some 4, offer := some (offerOf offerBytes) }
     (s.port 3).up = true ∧ s.fabCtrl 3 1 = true ∧ (s.port 3).understudy = some 4 ∧ (s.port 3).lanes[3]? = some 3 ∧ offerBytes.length = 32 ∧
       (s.port 3).offer = some (offerOf offerBytes) ∧ s.lacksFloor (offerOf offerBytes) = false ∧ (s.port 3).negotiated = true ∧ (s.port 3).samples.length < 15) ∧
    ((ported {}).port 3).understudy = none ∧ 2 ∈ ((ported { displaced := [2] }).port 3).displaced ∧
    ((ported { negotiated := true, samples := List.replicate 15 0 }).port 3).samples.length = 15 := by decide

/-- A port that is up, at flit 65535. -/
def receiving (replay : List (Nat × List Byte) := []) (replays : Nat := 0) : State := ported { up := true, rxSeq := 65535, replay := replay, replays := replays }

theorem witness_FlitsAndForwarding_flits : receiving.live = true ∧ 3 < receiving.fab.ports.length ∧ (receiving.port 3).up = true ∧ flitOk (zeroBytes 255) = false ∧
    (let d := flitBytes 1 (4 + 8) 65535 0 (zeroBytes 240)
     flitOk d = true ∧ fieldAt d 0 1 = 1 ∧ fieldAt d 2 2 = (receiving.port 3).rxSeq ∧ bitOf (fieldAt d 1 1) 4 = false ∧ bitOf (fieldAt d 1 1) 3 = true) ∧
    (let d := flitBytes 1 4 0 0 (zeroBytes 240)
     flitOk d = true ∧ fieldAt d 0 1 = 1 ∧ fieldAt d 2 2 ≠ (receiving.port 3).rxSeq) ∧
    (let d := flitBytes 0 0 0 9 (zeroBytes 240)
     flitOk d = true ∧ fieldAt d 0 1 = 0) := by decide +kernel

theorem witness_FlitsAndForwarding_nak : (receiving.port 3).replay.findIdx? (fun e => e.1 == 5) = none ∧ (receiving.port 3).replay = [] ∧
    ((receiving [(6, [])] 6).port 3).replay.findIdx? (fun e => e.1 == 5) = none ∧ ((receiving [(6, [])] 6).port 3).replay ≠ [] ∧
    ((receiving [(6, [])] 6).port 3).replays < 7 ∧ 7 ≤ ((receiving [(6, [])] 7).port 3).replays := by decide

/-- A message of a type for a node, with hops left, on port 3. -/
def fabMsg (type dest src seq hops : Nat) (payload : List Byte) (dom : Nat := 0) (req : Nat := 0) (epoch : Nat := 0) : FabMsg :=
  let m := mkMsg type 0 hops 3 dest src seq req dom epoch payload
  { port := 3, header := m.header, payload := m.payload }

/-- A node on port 3, with a route to node 9 out of port 3 and lease messages queued there. -/
def routing (queued : Nat := 0) : State :=
  let s := ported { up := true }
  { s with fab := { s.fab with routes := [(9, 3, 0xFF, 1)] },
           shp := { ports := [{}, {}, {}, { tape := List.replicate queued { order := 0, msg := mkMsg 6 0 1 3 9 0 1 0 0 0 [] } }] } }

theorem witness_FlitsAndForwarding_forward :
    (let f := fabMsg 6 9 1 1 1 []
     f.port = 3 ∧ (wire f).whole = true ∧ (wire f).dest ≠ routing.nodeId ∧ (wire f).dest ≠ 0xFFFF ∧ 1 ≤ (wire f).hops ∧ (wire f).major = 1 ∧
       1 ≤ (wire f).type ∧ (wire f).type ≤ 9 ∧ routing.routePort (wire f).dest = some 3 ∧
       (let w : Msg := { wire f with header := overlay (wire f).header 3 (natLE 1 (fieldAt (wire f).header 3 1 - 16)) }
        routing.shpRoom 3 w = true ∧ (routing 64).shpRoom 3 w = false)) ∧
    (wire (fabMsg 6 9 1 1 0 [])).hops = 0 ∧ (ported { up := true }).routePort 9 = none := by decide +kernel

/-! ### The fabric's messages -/

/-- A transport segment from node 9 to this one. -/
def segMsg (op seq : Nat) (peer : Nat := 0) (mask : Nat := 1) : FabMsg := fabMsg 0 (running.nodeId) 9 seq 1 (segPayload op mask [0, 0, 0] 0 77 peer)

/-- The node whose connection to node 9 is as given. -/
def connected (c : Conn) : State := { (routing) with fab := { (routing).fab with conns := [(9, c)] } }

/-- A segment of an op from node 9 arrives. -/
abbrev Segments (s : State) (f : FabMsg) (op : Nat) : Prop :=
  (s.live = true ∧ (s.port f.port).up = true ∧ (wire f).whole = true ∧ (wire f).dest = s.nodeId ∧ (wire f).type = 0 ∧ (wire f).major = 1) ∧
    (wire f).payload.length = 32 ∧ fieldAt (wire f).payload 0 1 = op ∧ (wire f).src = 9

theorem segments_arrive {s : State} {f : FabMsg} {op : Nat} (h : Segments s f op) : s.SegmentArrives f op :=
  ⟨⟨h.1.1, h.1.2.1, h.1.2.2.1, h.1.2.2.2.1, h.1.2.2.2.2.1, h.1.2.2.2.2.2⟩, h.2.1, h.2.2.1⟩

theorem witness_Connections_segments :
    (Segments (connected { state := .open, unacked := [(4, mkMsg 1 0 1 3 9 0 4 0 0 0 []), (5, mkMsg 1 0 1 3 9 0 5 0 0 0 [])] }) (segMsg 0 5) 0 ∧
      (wire (segMsg 0 5)).seq = 5 ∧ segPeer (wire (segMsg 0 5)) = running.fab.incarnation ∧ segPeer (wire (segMsg 0 5 1)) ≠ running.fab.incarnation) ∧
    (Segments (connected {}) (segMsg 1 0) 1 ∧ (segOffer (wire (segMsg 1 0))).choose = some (1, 0) ∧
      (connected {}).lacksFloor (segOffer (wire (segMsg 1 0))) = false ∧ (connected { state := .opening }).nodeId < 9) ∧
    (Segments (connected { state := .opening }) (segMsg 2 0) 2 ∧ (segOffer (wire (segMsg 2 0))).choose = some (1, 0) ∧
      (segOffer (wire (segMsg 2 0 0 2))).choose = none ∧ (connected { state := .opening }).fab.reqs = []) ∧
    Segments (connected { state := .open }) (segMsg 3 0) 3 := by decide +kernel

theorem witness_Connections_retries :
    (let s := connected { state := .open, unacked := [(4, mkMsg 1 0 1 3 9 0 4 0 0 0 [])], resends := 15 }
     s.live = true ∧ (s.conn 9).state = .open ∧ (s.conn 9).unacked ≠ [] ∧ (s.conn 9).resends < 16 ∧ s.routePort 9 = some 3 ∧
       (s.conn 9).progressAt + s.reg (pgFab 0) 0x074 * 1000 ≤ max s.now (s.reg (pgFab 0) 0x074 * 1000) ∧
       max s.now (s.reg (pgFab 0) 0x074 * 1000 - 1) < (s.conn 9).progressAt + s.reg (pgFab 0) 0x074 * 1000) ∧
    16 ≤ ((connected { state := .open, unacked := [(4, mkMsg 1 0 1 3 9 0 4 0 0 0 [])], resends := 16 }).conn 9).resends ∧
    (((connected { state := .down }).conn 9).state = .down ∧ ((connected { state := .down }).conn 9).openedAt + 100000000 ≤ max 0 100000000 ∧
      max 0 99999999 < ((connected { state := .down }).conn 9).openedAt + 100000000) ∧
    (let k (n : Nat) := cmdOf (adminEntry 0x76 [(8, 2, n)])
     AskedAdmin (having linked (k 1023)) 0x76 (k 1023) ∧ fieldAt (k 1023).raw 8 2 < 1024 ∧ (having linked (k 1023)).fab.reqs = [] ∧
       AskedAdmin (having linked (k 1024)) 0x76 (k 1024) ∧ 1024 ≤ fieldAt (k 1024).raw 8 2) := by decide +kernel

/-- The node whose connection to node 9 is Open and expects Seq 1, with these. -/
def meshed (reqs : Table Req := []) : State :=
  let s := withDoms (connected { state := .open }) []
  { s with fab := { s.fab with reqs := reqs } }

/-- The next message of node 9, of a type. -/
abbrev Nexts (s : State) (f : FabMsg) (type : Nat) : Prop :=
  (s.live = true ∧ (s.port f.port).up = true ∧ (wire f).whole = true ∧ (wire f).dest = s.nodeId ∧ (wire f).type = type ∧ (wire f).major = 1) ∧
    (s.conn (wire f).src).state = .open ∧ (wire f).seq = (s.conn (wire f).src).seqRx

theorem nexts_arrive {s : State} {f : FabMsg} {ty : Nat} (h : Nexts s f ty) : s.NextArrives f ty :=
  ⟨⟨h.1.1, h.1.2.1, h.1.2.2.1, h.1.2.2.2.1, h.1.2.2.2.2.1, h.1.2.2.2.2.2⟩, h.2.1, h.2.2⟩

/-- A message of node 9 to this one. -/
def toMe (type : Nat) (payload : List Byte) (req : Nat := 0) (epoch : Nat := 0) : FabMsg := fabMsg type running.nodeId 9 1 1 payload 0 req epoch

theorem witness_RequestsAndReplies_discarded : (Nexts (meshed []) (toMe 5 []) 5) ∧
    ((connected {}).live = true ∧ ((connected {}).port 3).up = true ∧ (wire (toMe 5 [])).whole = true ∧ (wire (toMe 5 [])).dest = (connected {}).nodeId ∧
      (wire (toMe 5 [])).type = 5 ∧ (wire (toMe 5 [])).major = 1 ∧ ((connected {}).conn (wire (toMe 5 [])).src).state ≠ .open) := by decide +kernel

/-- A QUERY_SCATTER for shard 0 of collection 3 from `pos`, for domain `dom`, with a descriptor of 64 navigation dimensions. -/
def shardAsk (dom : Nat) : FabMsg :=
  fabMsg 1 running.nodeId 9 1 1 (bytesOf 32 [(4, 4, 3), (8, 8, 4), (16, 4, 192)] ++ searchDesc ++ zeroBytes 128) dom 21

/-- The node that holds collection 3, and one where the map gives shard 0 to node 8. -/
def sharded (foreign : Bool) : State :=
  let s := holding (meshed []) tailed
  { s with fab := { s.fab with shardMaps := if foreign then [(3, [(8, 8, false)])] else [] } }

/-- The command that the message carries, and the node once it is let in. -/
def shardLet (foreign : Bool) (dom : Nat) : State :=
  let f := shardAsk dom; let m := wire f; let u := (sharded foreign).acked 0 m; let pl := m.payload
  (u.carried { origin := .scatterSearch f.port m.src m.requestId (fieldAt pl 2 2) m.cls, domain := m.domain, winBase := u.view.base, winSize := u.view.size,
               data := pl, raw := natLE 1 1 ++ natLE 1 0 ++ natLE 1 (16 + m.cls) ++ natLE 1 0 ++ natLE 4 m.requestId ++ natLE 4 (fieldAt pl 4 4) ++ zeroBytes 4 ++
                 natLE 8 (fieldAt pl 8 8) ++ zeroBytes 40 }).1

theorem witness_RequestsAndReplies_search : Nexts (sharded false) (shardAsk 0) 1 ∧ fieldAt (shardAsk 0).payload 0 1 = 0 ∧
    bitOf ((sharded false).reg pgShp 0x040) 3 = false ∧ ((shardLet false 0).cmd? (sharded false).qmg.nextCid).isSome = true ∧
    (shardLet false 0).coll? 3 = some tailed ∧ (shardLet false 0).notOurs 3 0 = false ∧ fieldAt (shardAsk 0).payload 16 4 = 64 + 2 * tailed.navDim := by
  decide +kernel

theorem witness_RequestsAndReplies_search_refused : Nexts (sharded true) (shardAsk 0) 1 ∧ ((shardLet true 0).cmd? (sharded true).qmg.nextCid).isSome = true ∧
    (shardLet true 0).coll? 3 = some tailed ∧ (shardLet true 0).notOurs 3 0 = true ∧
    Nexts (sharded false) (shardAsk 4095) 1 ∧ (shardLet false 4095).cmd? (sharded false).qmg.nextCid = none := by
  decide +kernel

/-- A QUERY_SCATTER that carries a command entry. -/
def cmdAsk (raw : List Byte) : FabMsg := toMe 1 (bytesOf 64 [(0, 1, 1)] ++ raw) 21

/-- The command it carries. -/
def askedCmd (s : State) (f : FabMsg) : Cmd :=
  let m := wire f; let u := s.acked 0 m
  { origin := .scatterCommand f.port m.src m.requestId m.cls, domain := m.domain, raw := bytesAt (m.payload ++ zeroBytes 128) 64 64, data := m.payload,
    winBase := u.view.base, winSize := u.view.size }

/-- The node that takes commands from its ports. -/
def accepting : State := reg (meshed []) (pgFab 3) 0x040 7

theorem witness_RequestsAndReplies_command : Nexts (meshed []) (cmdAsk (entry 0x18 [])) 1 ∧ fieldAt (cmdAsk (entry 0x18 [])).payload 0 1 = 1 ∧
    (meshed []).fabCtrl 3 2 = false ∧ Nexts accepting (cmdAsk (entry 0x18 [])) 1 ∧ accepting.fabCtrl 3 2 = true ∧ bitOf (accepting.reg pgShp 0x040) 3 = false ∧
    cmdFormat (askedCmd accepting (cmdAsk (entry 0x18 []))).raw = 1 ∧
    (accepting.acked 0 (wire (cmdAsk (entry 0x18 [])))).notCarried (askedCmd accepting (cmdAsk (entry 0x18 []))) = true ∧
    Nexts accepting (cmdAsk (entry 0x00 [])) 1 ∧ (accepting.acked 0 (wire (cmdAsk (entry 0x00 [])))).notCarried (askedCmd accepting (cmdAsk (entry 0x00 []))) = false := by
  decide +kernel

theorem witness_RequestsAndReplies_replies : (Nexts (meshed []) (toMe 2 (zeroBytes 32) 21) 2 ∧ (meshed []).fab.reqs.find? (wire (toMe 2 (zeroBytes 32) 21)).requestId = none) ∧
    (let s := meshed [(21, { node := 9, what := .cues 7 })]
     Nexts s (toMe 2 (zeroBytes 32) 21) 2 ∧ s.fab.reqs.find? (wire (toMe 2 (zeroBytes 32) 21)).requestId = some { node := 9, what := .cues 7 } ∧
       9 = (wire (toMe 2 (zeroBytes 32) 21)).src ∧ (wire (toMe 2 (zeroBytes 32) 21)).epoch ≤ s.fab.epoch) ∧
    (let s := meshed [(21, { node := 9, what := .shard 7 1 })]
     s.fab.reqs.find? (wire (toMe 2 (zeroBytes 32) 21)).requestId = some { node := 9, what := .shard 7 1 }) := by
  decide +kernel

/-- The node at epoch 5 with its lease held until tape time 1,000, node 9 its Twin. -/
def leased (k : Cmd := cmdOf []) : State :=
  let s := mutating tailed k
  let m := reg (reg (meshed []) (pgFab 0) 0x0D0 (2 ^ 31 + 9)) (pgFab 3) 0x040 0xB
  { m with wlk := { s.wlk with sources := [(255, { active := true, w := 9, domains := bytesOf 512 [(0, 1, 1)] })] }, dom := s.dom, fab := { m.fab with epoch := 5, expiry := 1000 } }

theorem witness_LeasesAndTransfers_fenced : (∀ ty ∈ [3, 4, 5, 8], Nexts (leased) (toMe ty [] 21 4) ty ∧ Nexts (leased) (toMe ty [] 21 6) ty ∧ Nexts (leased) (toMe ty [] 21 5) ty) ∧
    (wire (toMe 3 [] 21 4)).epoch < (leased).fab.epoch ∧ (leased).fab.epoch < (wire (toMe 3 [] 21 6)).epoch ∧ (wire (toMe 3 [] 21 5)).epoch = (leased).fab.epoch ∧
    ((leased).at 1000).leaseHeld = false ∧ ((leased).at 999).leaseHeld = true := by decide +kernel

/-- A MUTATION_REPLICATE for collection 3 and source 255: a Probe, or an insertion of one item at position 10. -/
def replAsk (probe : Bool) : FabMsg :=
  toMe 3 (bytesOf 32 [(0, 4, 3), (4, 2, 255), (6, 1, 8), (7, 1, if probe then 2 else 0), (8, 8, 10), (16, 4, 1)] ++ zeroBytes 192) 21 5

theorem witness_LeasesAndTransfers_mutations : (Nexts (leased) (replAsk true) 3 ∧ bitOf (fieldAt (wire (replAsk true)).payload 7 1) 1 = true) ∧
    (let f := replAsk false; let m := wire f; let u := (leased).acked 0 m; let k := replCmd f.port m
     Nexts (leased) f 3 ∧ bitOf (fieldAt m.payload 7 1) 1 = false ∧ k.isMut = true ∧ u.admission k = none ∧ bitOf (u.privs m.domain) 3 = true ∧
       (u.carried k).1.canMutate (leased).qmg.nextCid (cmdOpcode k.raw) = true) := by decide +kernel

/-- A segment of transfer 3: number `i` of `n`. -/
def segAsk (type i n : Nat) : FabMsg := toMe type (bytesOf 64 [(0, 4, 3), (4, 4, i), (8, 4, n)]) 21 5

theorem witness_LeasesAndTransfers_segments :
    (let m := wire (segAsk 4 0 2)
     Nexts (leased) (segAsk 4 0 2) 4 ∧ (leased).fab.transfers.find? (transferKey m.src 0 (fieldAt m.payload 0 4)) = none ∧
       (takeSegment none m.domain m.payload).toOption = some { domain := 0, segs := 2, next := 1 } ∧ 1 < 2) ∧
    (let m := wire (segAsk 5 1 2)
     Nexts (leased) (segAsk 5 1 2) 5 ∧ (takeSegment (some { domain := 0, segs := 2, next := 1 }) m.domain m.payload).toOption = some { domain := 0, segs := 2, next := 2 } ∧
       (takeSegment none m.domain m.payload).toOption = none) ∧
    (let m := wire (segAsk 4 0 1)
     Nexts (leased) (segAsk 4 0 1) 4 ∧ (takeSegment none m.domain m.payload).toOption = some { domain := 0, segs := 1, next := 1 }) := by decide +kernel

/-- A CUE_SYNC of one entry. -/
def cueAsk (n : Nat) : FabMsg := toMe 8 (natLE 8 n ++ zeroBytes 32) 21 5

theorem witness_LeasesAndTransfers_cues : (Nexts (leased) (cueAsk 4095) 8 ∧ (leased).twin? = some (wire (cueAsk 4095)).src ∧ (wire (cueAsk 4095)).payload.length = 40 ∧
      fieldAt (wire (cueAsk 4095)).payload 0 8 < 4096) ∧
    (let s := reg (leased) (pgFab 0) 0x0D0 (2 ^ 31 + 8)
     Nexts s (cueAsk 4095) 8 ∧ s.twin? ≠ some (wire (cueAsk 4095)).src ∧ s.fab.epoch = 5 ∧ (s.at 0).leaseHeld = true) := by decide +kernel

/-- A LEASE of an op for a duration under an epoch. -/
def leaseAsk (op dur epoch : Nat) : FabMsg := toMe 6 (bytesOf 32 [(4, 1, op), (8, 8, dur)]) 21 epoch

theorem witness_LeasesAndTransfers_leases : ∀ e ∈ [4, 5, 6], Nexts (leased) (leaseAsk 0 1000000 e) 6 ∧ Nexts (leased) (leaseAsk 1 0 e) 6 ∧
    Nexts (leased) (leaseAsk 2 0 e) 6 ∧ (leased).fabCtrl 3 3 = true ∧ fieldAt (wire (leaseAsk 0 1000000 e)).payload 0 4 = (leased).reg (pgFab 0) 0x04C ∧
    fieldAt (wire (leaseAsk 0 1000000 e)).payload 4 1 = 0 ∧ fieldAt (wire (leaseAsk 0 1000000 e)).payload 8 8 = 1000000 ∧
    fieldAt (wire (leaseAsk 1 0 e)).payload 4 1 = 1 ∧ fieldAt (wire (leaseAsk 2 0 e)).payload 4 1 = 2 := by decide +kernel

/-- An ADMIN command of AdminOp `op` on the node of the connection to node 9, with these fields. -/
def fabCmd (op : Nat) (fs : List (Nat × Nat × Nat)) : Cmd := cmdOf (adminEntry op fs)

/-- The leased node with it, and collection 3's checkpoint. -/
def admined (k : Cmd) (repls : Table Repl := []) : State :=
  let s := having (leased) k
  { s with fab := { s.fab with repls := repls }, bft := { ckpts := [(3, { coll := tailed, floors := [] })] },
           host := Memory.writeN [] 0x1000 (bytesOf 8 [(0, 2, 1023), (2, 2, 9), (4, 1, 1)]) }

theorem witness_FabricAdministration_routes :
    (let k := fabCmd 0x70 [(8, 2, 1023), (49, 1, 3), (50, 1, 0xFF), (51, 1, 2)]
     AskedAdmin (admined k) 0x70 k ∧ fieldAt k.raw 8 2 < 1024 ∧ fieldAt k.raw 49 1 < 4 ∧ fieldAt k.raw 50 1 = 0xFF) ∧
    (let k := fabCmd 0x70 [(8, 2, 1024), (49, 1, 4)]
     AskedAdmin (admined k) 0x70 k ∧ 1024 ≤ fieldAt k.raw 8 2 ∧ 4 ≤ fieldAt k.raw 49 1) ∧
    (let k := fabCmd 0x71 [(8, 4, 3), (24, 8, 0x1000), (52, 2, 1)]
     AskedAdmin (admined k) 0x71 k ∧ fieldAt k.raw 52 2 = 1 ∧ ((admined k).openColl? 3).isSome = true ∧
       ((List.range 1).map fun i => let e := ((admined k).at 0).cmdRead k (cmdPtrA k.raw + 8 * i) 8; (fieldAt e 0 2, fieldAt e 2 2, bitOf (fieldAt e 4 1) 0)) =
         [(1023, 9, true)]) ∧
    (let k := fabCmd 0x71 [(8, 4, 3), (52, 2, 1025)]
     AskedAdmin (admined k) 0x71 k ∧ 1024 < fieldAt k.raw 52 2) := by decide +kernel

theorem witness_FabricAdministration_leases :
    (let k := fabCmd 0x72 [(8, 4, 3), (12, 2, 255), (49, 1, 1)]
     AskedAdmin (admined k) 0x72 k ∧ (admined k).openColl? 3 = some tailed ∧ fieldAt k.raw 12 2 < 256 ∧ bitOf (fieldAt k.raw 49 1) 0 = true ∧
       (admined k).fab.repls.find? 3 = none ∧ bitOf (fieldAt (fabCmd 0x72 [(8, 4, 3)]).raw 49 1) 0 = false) ∧
    (let k := fabCmd 0x73 [(52, 4, 10000000), (16, 8, 6)]
     AskedAdmin (admined k) 0x73 k ∧ 1000 ≤ fieldAt k.raw 52 4 ∧ fieldAt k.raw 52 4 ≤ 10000000 ∧ (admined k).fab.epoch < cmdPos k.raw) ∧
    (AskedAdmin (admined (fabCmd 0x73 [(52, 4, 999)])) 0x73 (fabCmd 0x73 [(52, 4, 999)]) ∧ fieldAt (fabCmd 0x73 [(52, 4, 999)]).raw 52 4 < 1000) ∧
    (let k := fabCmd 0x74 []
     AskedAdmin (admined k) 0x74 k ∧ cmdPos k.raw = 0 ∧ (admined k).fab.floor = 0) ∧
    (let k := fabCmd 0x74 [(16, 8, 3)]
     AskedAdmin (admined k) 0x74 k ∧ cmdPos k.raw ≠ 0 ∧ cmdPos k.raw ||| (admined k).fab.floor = cmdPos k.raw ∧ cmdPos k.raw ||| 4 ≠ cmdPos k.raw) := by
  decide +kernel

theorem witness_FabricAdministration_sends :
    (let k := fabCmd 0x75 [(8, 4, 3), (12, 2, 9)]
     AskedAdmin (admined k) 0x75 k ∧ fieldAt k.raw 12 2 < 1024 ∧ ((admined k).openColl? 3).isSome = true ∧ ((admined k).newestCkpt 3).isSome = true ∧
       ({ admined k with bft := {} } : State).newestCkpt 3 = none ∧ 1024 ≤ fieldAt (fabCmd 0x75 [(12, 2, 1024)]).raw 12 2) ∧
    (let k := fabCmd 0x77 [(52, 2, 4088), (49, 1, 8)]
     AskedAdmin (admined k) 0x77 k ∧ fieldAt k.raw 52 2 + fieldAt k.raw 49 1 = 4096 ∧ fieldAt k.raw 49 1 = 8 ∧ (admined k).twin? = some 9 ∧
       (reg (admined k) (pgFab 0) 0x0D0 0).twin? = none ∧ 4096 < fieldAt (fabCmd 0x77 [(52, 2, 4089), (49, 1, 8)]).raw 52 2 + 8) := by
  decide +kernel

theorem witness_FabricAdministration_idle :
    let r : Repl := { source := 255, domain := 0 }
    let s := admined (cmdOf []) [(3, r)]
    s.live = true ∧ s.fab.repls.find? 3 = some r ∧ (s.at 999).leaseHeld = true ∧ (s.at 1000).leaseHeld = false ∧ s.twin? = some 9 ∧
      r.idleAt + (reg s (pgFab 0) 0x07C 0).reg (pgFab 0) 0x07C * 1000 ≤ max s.now 0 ∧ max s.now 0 < r.idleAt + (reg s (pgFab 0) 0x07C 1).reg (pgFab 0) 0x07C * 1000 ∧
      r.held = [] ∧ r.sentTo < ({ s with wlk := { s.wlk with watermark := 1 } } : State).wlk.watermark := by decide +kernel

/-! ### Egress and block resets -/

/-- Node 0 with port 3 up with credit and messages queued there. -/
def egressing (q : ShpPort) (credits : List Nat := List.replicate 8 9) : State :=
  { ported { up := true, credits := credits, lanes := [0, 1, 2, 3] } with shp := { ports := [{}, {}, {}, q] } }

/-- Queued: a message of a type to node 9. -/
def queuedMsg (type : Nat) (payload : List Byte := []) : Queued := { order := 0, msg := (wire (fabMsg type 9 0 1 1 payload)) }

theorem witness_EgressAndBlockReset_transmit :
    ((egressing {}).live = true ∧ ((egressing {}).port 3).up = true ∧ (egressing {}).accepts pgShp = true ∧ (egressing {}).accepts (pgFab 3) = true ∧
      ((ported {}).port 3).up = false) ∧
    (let s := egressing { tape := [queuedMsg 6] }
     (s.shpPort 3).tape.find? (fun y => s.canSend 3 y.msg) = some (queuedMsg 6)) ∧
    (let x := queuedMsg 2 (bytesOf 32 [(4, 2, 0x11)])
     let s := egressing { fault := [x] }
     (s.shpPort 3).tape.find? (fun y => s.canSend 3 y.msg) = none ∧ (s.shpPort 3).sending = none ∧
       (s.shpPort 3).fault.find? (fun y => s.canSend 3 y.msg) = some x) ∧
    (let s := egressing { service := [queuedMsg 3] }
     let w := (s.at 0).noteWaits 3
     (s.shpPort 3).fault = [] ∧ s.portRate 3 = 0 ∧ ((if w.hierarchical then w.chooseHier 3 else w.chooseFall 3).map fun e => e.1) = some (queuedMsg 3)) ∧
    (let s := reg (egressing { service := [queuedMsg 3] }) pgShp 0x040 5
     let w := (s.at 0).noteWaits 3
     w.hierarchical = true ∧ ((if w.hierarchical then w.chooseHier 3 else w.chooseFall 3).map fun e => e.1) = some (queuedMsg 3)) := by
  decide +kernel

/-- Port 3's one gate entry closes every gate while a message of class 3 is sent until time 1,000. -/
def gated : State := ((egressing { sending := some { cls := 3, vc := 3, ends := 1000 } }).setRegAt pgShp 0x08C 6 1).setRegAt pgShp 0x074 1536 0

theorem witness_EgressAndBlockReset_gates : ((egressing {}).shpPort 3).sending = none ∧ (gated.shpPort 3).sending = some { cls := 3, vc := 3, ends := 1000 } ∧
    max gated.now 999 < 1000 ∧ (gated.at 999).gateOpen 3 3 = false := by decide +kernel

theorem witness_EgressAndBlockReset_resets : running.flt.resets.has 12 = false ∧
    ({ having linked (cmdOf []) with flt := { resets := [(12, 5)] } } : State).flt.resets.has 12 = true := by decide

/-! ### The manual's worked examples -/

/-- 12 R393: extent 70, offset 0x123456 lies in stack 5, bank 274, row 2,240, byte 86. -/
theorem test_place_extent70 : winLoc (70 * 2 ^ 28 + 0x123456) = 5 * 2 ^ 37 + 274 * 2 ^ 27 + 2240 * 2 ^ 10 + 86 ∧ locUnit (winLoc (70 * 2 ^ 28 + 0x123456)) = 137 := by
  decide

/-- 14, the decoder's example: window offset 0x01234000 lies in stack 0, pseudo-channel 26, its bank 4, row 2, byte 0. -/
theorem test_place_window : winLoc 0x01234000 = (16 * 26 + 4) * 2 ^ 27 + 2 * 2 ^ 10 := by decide

/-- 08: a group of 1.6, -0.9, 0.3 and 0.05 in A4i takes E_g 125 and becomes 6, -4, 1 and 0, the last an underflow. -/
theorem test_quantise_group :
    let g := quantGroup .a4i 127 false ([0x3FCCCCCD, 0xBF666666, 0x3E99999A, 0x3D4CCCCD].map f32)
    g.eg = 125 ∧ g.els.map (fun e => e.d) = [6, -4, 1, 0] ∧ g.els.map (fun e => e.cnt.under) = [0, 0, 0, 1] := by decide +kernel

/-- 08: that group against weights 7, -3, 5 and 2 adds 59 × 0.01953125 × 0.25 = 0.2880859375 to the accumulator. -/
theorem test_rescale : toF32 (rescale 59 (f32 0x3CA00000) 125 0 Fl.zero) = 0x3E938000 := by decide +kernel

/-- 08: 61 of 49,152 elements clip, the largest 19.5: E_L rises from 127 to 129. -/
theorem test_scale_rises : (({ eL := 127 } : ScaleRec).stepEnd true 7 0x3A800000 { cnt := { clip := 61 }, total := 49152, amax := f32 0x419C0000 }).eL = 129 := by
  decide +kernel

/-- 07: the merge of three lists with K 4. -/
def exampleCast : CastResult :=
  let e (key : Nat) (score : Word) : Entry := { key := key, score := score }
  castOf 4 true true
    [{ entries := [e 0x10 0x3F68F5C3, e 0x22 0x3F5EB852, e 0x31 0x3F5EB852, e 0x47 0x80000000], carried := some 0x4008CCCCCCCCCCCD },
     { entries := [e 0x22 0x3F5EB852, e 0x58 0x3F5EB852, e 0x05 0x3F1EB852], carried := some 0x400399999999999A },
     { entries := [e 0x10 0x3F63D70A, e 0x73 0x3F5EB852, e 0x09 0x00000000], carried := some 0x3FF3333333333333 }] []

theorem test_cast_example : exampleCast.chosen.map (fun e => (e.key, e.score)) =
      [(0x10, 0x3F68F5C3), (0x22, 0x3F5EB852), (0x31, 0x3F5EB852), (0x58, 0x3F5EB852)] ∧
    exampleCast.report.duplicates = 2 ∧ exampleCast.report.candidates = 8 ∧ exampleCast.report.threshold = 0x3F5EB852 ∧ exampleCast.report.ties = 4 ∧
    exampleCast.report.taken = 3 ∧ exampleCast.report.carried = true ∧
    Fl.lt (Fl.ofInt 823) ((Fl.ofBits fp64 exampleCast.report.leftOutMass.toNat).mul (Fl.ofInt 100)) = true ∧
    Fl.lt ((Fl.ofBits fp64 exampleCast.report.leftOutMass.toNat).mul (Fl.ofInt 100)) (Fl.ofInt 825) = true := by decide +kernel

/-- 07: the ordering keys of the example's scores. -/
theorem test_cast_keys : [0x3F68F5C3, 0x3F5EB852, 0x3F1EB852, 0x00000000, 0x80000000].map (fun w => castKey true { key := 0, score := w }) =
    [0xBF68F5C3, 0xBF5EB852, 0xBF1EB852, 0x80000000, 0x80000000] := by decide +kernel

/-- 06: the probe program. Its fields follow R197. -/
def probeProgram : List Nat :=
  let ins (op a b c imm : Nat) : Nat := op * 2 ^ 56 + a * 2 ^ 48 + b * 2 ^ 40 + c * 2 ^ 32 + imm
  [ins 1 0 32 0 0, ins 2 0 1 0 0, ins 4 0 0 32 0, ins 5 0 0 0x80 256, ins 5 1 0 0x80 (256 * 65536 + 256), ins 6 0 1 0 0x3F4CCCCD, ins 6 1 1 0 0x3F4CCCCD,
    ins 7 0 1 0 0, ins 7 1 1 0 1, ins 3 0 0 0 0, ins 11 9 0 0 63, ins 15 0 0 0 0]

/-- 06: it takes 6,153 cycles at the worst, in segments of 2,312, 2,400 and 1,441, and breaks no rule of R218. -/
theorem test_probe_program : ((unroll 1 probeProgram).map fun x => insCycles x.ins).sum = 6153 ∧
    (segmentsOf 2400 (chunks (rowTrace (List.range 64) (unroll 1 probeProgram)).1)).map (fun x => x.2) = [2312, 2400, 1441] ∧
    probeProgram.any insReserved = false ∧ probeProgram.any insOutOfRange = false ∧ loopFormBad probeProgram = false := by decide +kernel

/-- 06: the row address of row 40 of bank 0 of unit 5 of pseudo-channel 21. -/
theorem test_row_address : rowAddr 21 5 0 40 = 0x15A28 := by decide

/-- 10: int8 rows of 256 elements with Adagrad take 288 bytes. -/
theorem test_row_stride : ({ owner := 0, kind := 0, fmt := 1, adagrad := true, elems := 256 } : Tab).stride = 288 := by decide

/-- 23: page 16 is HMC5's, and its FLT_REACT resets to 0x01F38C21. -/
theorem test_page16 : blockAt 16 = some (.hmc, 5) ∧ regReset 16 0x034 = 0x01F38C21 := by decide

/-- A field of the state that a step answers, where it answers a next state. -/
def after {α : Type} (o : Host.Outcome State Fault Refusal) (f : State → α) : Option α := match o with
  | .next v => some (f v)
  | _ => none

/-- Sources 3 and 9 at 48,211,907 and 48,211,899, and an empty list of source 9 at 48,211,910 with PositionComplete. -/
def example03 : State :=
  let sources : Table Source := [(3, { active := true, w := 48211907, domains := zeroBytes 512 }), (9, { active := true, w := 48211899, domains := zeroBytes 512 })]
  having { withDoms linked [] with wlk := { colls := [(3, tailed)], wasActive := true, watermark := 48211899, sources := sources } }
    (cmdOf (entry 0x0A [(1, 1, 1), (8, 4, 3), (12, 2, 9), (16, 8, 48211910), (24, 8, 0x1000), (32, 8, 0x2000)]))

/-- 03, step 4 of the example: W9 rises to 48,211,910 and the node watermark to 48,211,907. -/
theorem test_watermark_example : after (exec (.upsert 31000 7) example03) (fun v => ((v.source? 9).map (fun x => x.w), v.wlk.watermark)) =
    some (some 48211910, 48211907) := by decide +kernel

/-- 23: HMC5 reports OuterCorrRate while the Tape is lost: word 0 latches with its kind and instance, and FLT_CNT counts one. -/
theorem test_latch_example : after (exec (.faultMessage 5 0 0 0 0) (linked.sendFault (pgHmc 5) .outerCorrRate))
    (fun v => (v.readReg 16 0x024 % 2 ^ 28, v.readReg 16 0x030)) = some (0x0013050B, 1) := by decide +kernel

/-- 20 R631, R637: LinkDown with the override of the example stops ALIVE_OUT and starts a Drydown. -/
theorem test_stopAlive_example : after (exec (.faultMessage 1000 0 0 0 0) ((linked.setRegAt pgFlt 0x078 0x30 0x31).sendFault pgCxl .linkDown))
    (fun v => (v.flt.faulted, v.flt.dryFrom, v.readReg pgCxl 0x024 % 2 ^ 28)) = some (true, some 1000, 0x02300000) := by decide +kernel

/-- 21: with E at 14,336 and N at 14,336 after a start, the next commit is 15,360. -/
theorem test_lms_reserve : after (exec (.lmsCommit 0 true) ({ linked with sec := { lmsNext := 14336, lmsEnd := 14336, lmsCommitting := true } } : State))
    (fun v => v.sec.lmsEnd) = some 15360 := by decide +kernel

/-- 24: with a sensor above PWR_TJ_HIGH's 90 °C ThermalHigh is set, and once every sensor is below 87 °C it clears. -/
theorem test_thermal_example : after (exec (.thermalSample 1 (temps 91)) running) (fun v => v.pwr.thermalHigh) = some true ∧
    after (exec (.thermalSample 1 (temps 86)) { running with pwr := { thermalHigh := true } }) (fun v => v.pwr.thermalHigh) = some false := by decide +kernel

/-- 23, step 8 of the example: a write of 0x01F3CC21 to HMC5's FLT_REACT stands. -/
theorem test_register_write : after (exec (.registerWrite 5 0 (16 * 4096 + 0x034) 4 0x01F3CC21) linked) (fun v => v.readReg 16 0x034) = some 0x01F3CC21 := by
  decide +kernel

/-- 22: SELFTEST kind 2 outside maintenance completes BUSY at admission. -/
theorem test_selftest_busy : after (exec (.heartMarch 0 7 0) (rehearsing (testOf 2 0x10D1 true))) (fun v => (v.cmd? 7).isNone) = some true := by decide +kernel

/-- 10: the gather of the example pools 0.25 and 1.25 (FP32). -/
theorem test_gather_example :
    let t : Tab := { owner := 0, kind := 0, fmt := 1, elems := 64, rowCount := 20, current := 0, nextVer := 1,
                     vers := [(0, { num := 3, rows := [(7, [40#8] ++ zeroBytes 63 ++ natLE 2 0x2400 ++ zeroBytes 30),
                                                       (12, [0xF4#8] ++ zeroBytes 63 ++ natLE 2 0x2800 ++ zeroBytes 30)] })] }
    let s : State := { linked with gth := { tables := [(5, t)] } }
    let k := { cmdOf [] with versions := [(5, currentVersion, 0)] }
    let bag (sample : Nat) (is : List Nat) (ws : List Word) : Bag := { table := 5, asked := currentVersion, idx := is, ws := ws, sample := sample, off := 0, count := is.length }
    let bags := [bag 0 [12, 7, 12, 12] [0x3F000000, 0x3F800000, 0x3E800000, 0x3E800000], bag 1 [7, 7] [0x3F800000, 0x3F800000]]
    ((s.poolSample k bags 0 64).take 1).map toF32 = [0x3E800000] ∧ ((s.poolSample k bags 1 64).take 1).map toF32 = [0x3FA00000] ∧
      (s.distinctRows k bags).length = 2 := by decide +kernel

end Sys2Proof.Tests
end

section
/-!
What a CXL.mem request that R473 or R474 drops does to the state, over laws of counters, sticky bits and fault messages.
-/

namespace Sys2Proof.Machine

/-! ### Counters, register bits, and what time leaves -/

theorem bitOf_eq_testBit (v i : Nat) : bitOf v i = v.testBit i :=
  Nat.testBit_eq_decide_div_mod_eq.symm

@[simp] theorem State.count_bump_self (s : State) (page off n : Nat) :
    (s.bump page off n).count page off = min 0xFFFFFFFF (s.count page off + n) := by
  simp [State.bump, State.count]

@[simp] theorem State.reg_setReg_self (s : State) (page off v : Nat) : (s.setReg page off v).reg page off = v := by
  simp [State.setReg, State.setRegAt, State.reg, State.regAt]

/-- A bit made sticky reads 1. -/
theorem State.bitOf_reg_sticky (s : State) (page off : Nat) {bits i : Nat} (h : bits.testBit i = true) :
    bitOf ((s.sticky page off bits).reg page off) i = true := by
  simp [State.sticky, bitOf_eq_testBit, h]

@[simp] theorem State.at_winBytes (s : State) (t : Nat) : (s.at t).winBytes = s.winBytes := by
  rw [State.winBytes, State.at_reg, State.winBytes]

@[simp] theorem State.at_ideShut (s : State) (t : Nat) : (s.at t).ideShut = s.ideShut := rfl

/-! ### The fields of a fault message (20 R628 to R631) -/

theorem Block.pages_fit_byte (b : Block) : b.pages.1 < 256 ∧ b.pages.2 ≤ 256 := by cases b <;> decide

/-- A block's code and the number of a page within its block each fit their byte of word 0. -/
theorem blockAt_lt {page i : Nat} {b : Block} (h : blockAt page = some (b, i)) : b.code < 256 ∧ i < 256 := by
  obtain ⟨b', hfind, heq⟩ := Option.map_eq_some_iff.mp h
  obtain ⟨rfl, rfl⟩ := Prod.mk.inj heq
  have hpage := List.find?_some hfind
  simp only [Bool.and_eq_true, decide_eq_true_eq] at hpage
  have hle := b'.pages_fit_byte
  exact ⟨hle.1, by omega⟩

theorem Kind.spec_lt (k : Kind) : k.spec.1 < 256 ∧ k.spec.2 < 8 := by cases k <;> decide

/-- Word 0 of a fault message: kind and severity over the two bytes that name the sender. -/
theorem faultMsg_w0 (s : State) (page : Nat) (k : Kind) (detail addr : Nat) (node : Bool) :
    ∃ sender < 2 ^ 16, (faultMsg s page k detail addr node).w0 =
      boolNat s.tapeLost * 2 ^ 28 + k.spec.2 * 2 ^ 24 + k.spec.1 * 2 ^ 16 + sender := by
  have hsender : ∀ code inst : Nat, code < 256 → inst < 256 → (if node then 0xFF else inst) * 2 ^ 8 + code < 2 ^ 16 := by
    intro code inst hcode hinst
    split <;> omega
  rcases hb : blockAt page with _ | ⟨b, i⟩
  · exact ⟨_, hsender 0 0 (by omega) (by omega), by simp only [faultMsg, hb, Nat.add_assoc]⟩
  · obtain ⟨hcode, hinst⟩ := blockAt_lt hb
    exact ⟨_, hsender b.code i hcode hinst, by simp only [faultMsg, hb, Nat.add_assoc]⟩

@[simp] theorem faultMsg_kind (s : State) (page : Nat) (k : Kind) (detail addr : Nat) (node : Bool) :
    (faultMsg s page k detail addr node).kind = k.spec.1 := by
  obtain ⟨sender, hsender, hw0⟩ := faultMsg_w0 s page k detail addr node
  obtain ⟨hkind, -⟩ := k.spec_lt
  rw [FaultMsg.kind, hw0, bitsOf]
  omega

@[simp] theorem faultMsg_severity (s : State) (page : Nat) (k : Kind) (detail addr : Nat) (node : Bool) :
    (faultMsg s page k detail addr node).severity = k.spec.2 := by
  obtain ⟨sender, hsender, hw0⟩ := faultMsg_w0 s page k detail addr node
  obtain ⟨hkind, hsev⟩ := k.spec_lt
  rw [FaultMsg.severity, hw0, bitsOf]
  omega

/-! ### Requests at or beyond the window (14 R473) -/

/-- The state after a request at or beyond the window that leaves `o` at the node's edge: counted and shown, no block read or
written. -/
def State.oorAnswer (s : State) (t : Nat) (o : List Out) : State := { (s.at t).memOor with outbox := o ++ s.outbox }

/-- A request beyond the window waits for no controller. -/
theorem State.memOpen_of_winBytes_le {s : State} {dpa : Nat} (hl : s.memLink = true) (hd : s.winBytes ≤ dpa) :
    s.memOpen dpa = true := by
  simp [State.memOpen, hl, hd]

section
variable {s : State} {dpa : Nat} (hi : s.ideShut = false) (hd : s.winBytes ≤ dpa)
include hi hd

theorem memRd_oor (r : BlockRead) : memRd dpa r s = s.memOor.emit (.memData onesBlock) := by
  rw [memRd, if_neg (by simp [hi]), if_pos hd]

theorem memWr_oor (data : List Byte) (poison : Bool) : memWr dpa data poison s = s.memOor.emit .memDone := by
  rw [memWr, if_neg (by simp [hi]), if_pos hd]

theorem memWrPtl_oor (data : List Byte) (en : List Bool) (poison : Bool) (r : BlockRead) :
    memWrPtl dpa data en poison r s = s.memOor.emit .memDone := by
  rw [memWrPtl, if_neg (by simp [hi]), if_pos hd]

end

section
variable {s : State} {dpa : Nat} (hl : s.memLink = true) (hi : s.ideShut = false) (hd : s.winBytes ≤ dpa) (t : Nat)
include hl hi hd

theorem exec_memRd_oor (r : BlockRead) :
    exec (.memRd t dpa r) s = .next (s.oorAnswer t [.memData onesBlock]).settle := by
  show execMemRd t dpa r s = _
  rw [execMemRd, State.memOpen_of_winBytes_le hl hd, State.onlyIf_true, memRd_oor (by simpa) (by simpa)]
  rfl

theorem exec_memSpecRd_oor : exec (.memSpecRd t dpa) s = .next (s.oorAnswer t []).settle := by
  show execMemSpecRd t dpa s = _
  rw [execMemSpecRd, hl, State.onlyIf_true, if_pos (by simp [hi, hd])]
  rfl

theorem exec_memInv_oor : exec (.memInv t dpa) s = .next (s.oorAnswer t [.memDone]).settle := by
  show execMemInv t dpa s = _
  rw [execMemInv, hl, State.onlyIf_true, if_pos (by simp [hi, hd])]
  rfl

theorem exec_memWr_oor (data : List Byte) (poison : Bool) :
    exec (.memWr t dpa data poison) s = .next (s.oorAnswer t [.memDone]).settle := by
  show execMemWr t dpa data poison s = _
  rw [execMemWr, State.memOpen_of_winBytes_le hl hd, State.onlyIf_true, memWr_oor (by simpa) (by simpa)]
  rfl

theorem exec_memWrPtl_oor (data : List Byte) (en : List Bool) (poison : Bool) (r : BlockRead) :
    exec (.memWrPtl t dpa data en poison r) s = .next (s.oorAnswer t [.memDone]).settle := by
  show execMemWrPtl t dpa data en poison r s = _
  rw [execMemWrPtl, State.memOpen_of_winBytes_le hl hd, State.onlyIf_true, memWrPtl_oor (by simpa) (by simpa)]
  rfl

end

@[simp] theorem State.count_oorAnswer (s : State) (t : Nat) (o : List Out) :
    (s.oorAnswer t o).count pgCxl 0x060 = min 0xFFFFFFFF (s.count pgCxl 0x060 + 1) :=
  (s.at t).count_bump_self pgCxl 0x060 1

@[simp] theorem State.oorSeen_oorAnswer (s : State) (t : Nat) (o : List Out) :
    bitOf ((s.oorAnswer t o).reg pgCxl 0x044) 1 = true :=
  ((s.at t).bump pgCxl 0x060).bitOf_reg_sticky pgCxl 0x044 (by decide : (2).testBit 1 = true)

/-- Settles O24: each of the five requests ends in `oorAnswer` with its own response. -/
theorem memOutOfRange : Obligations.MemOutOfRange := by
  intro s t dpa hl hi hd i o hreq
  have hexec : exec i s = .next (s.oorAnswer t o).settle := by
    rcases hreq with ⟨r, rfl, rfl⟩ | ⟨rfl, rfl⟩ | ⟨rfl, rfl⟩ | ⟨data, poison, rfl, rfl⟩ | ⟨data, en, poison, r, rfl, rfl⟩
    · exact exec_memRd_oor hl hi hd t r
    · exact exec_memSpecRd_oor hl hi hd t
    · exact exec_memInv_oor hl hi hd t
    · exact exec_memWr_oor hl hi hd t data poison
    · exact exec_memWrPtl_oor hl hi hd t data en poison r
  exact ⟨s.oorAnswer t o, hexec, rfl, s.count_oorAnswer t o, s.oorSeen_oorAnswer t o, rfl, rfl, rfl, rfl⟩

/-! ### Poisoned writes (14 R474) -/

section
variable {s : State} {dpa : Nat} (hi : s.ideShut = false) (hd : dpa < s.winBytes)
include hi hd

theorem memWr_poison (data : List Byte) : memWr dpa data true s = (s.poisonWrite dpa).emit .memDone := by
  rw [memWr, if_neg (by simp [hi]), if_neg (by omega), if_pos rfl]

theorem memWrPtl_poison (data : List Byte) (en : List Bool) (r : BlockRead) :
    memWrPtl dpa data en true r s = (s.poisonWrite dpa).emit .memDone := by
  rw [memWrPtl, if_neg (by simp [hi]), if_neg (by omega), if_pos rfl]

end

section
variable {s : State} {dpa : Nat} (ho : s.memOpen dpa = true) (hi : s.ideShut = false) (hd : dpa < s.winBytes) (t : Nat)
include ho hi hd

theorem exec_memWr_poison (data : List Byte) :
    exec (.memWr t dpa data true) s = .next (((s.at t).poisonWrite dpa).emit .memDone).settle := by
  show execMemWr t dpa data true s = _
  rw [execMemWr, ho, State.onlyIf_true, memWr_poison (by simpa) (by simpa), done_eq]

theorem exec_memWrPtl_poison (data : List Byte) (en : List Bool) (r : BlockRead) :
    exec (.memWrPtl t dpa data en true r) s = .next (((s.at t).poisonWrite dpa).emit .memDone).settle := by
  show execMemWrPtl t dpa data en true r s = _
  rw [execMemWrPtl, ho, State.onlyIf_true, memWrPtl_poison (by simpa) (by simpa), done_eq]

end

@[simp] theorem State.count_poisonWrite (s : State) (dpa : Nat) :
    (s.poisonWrite dpa).count pgCxl 0x064 = min 0xFFFFFFFF (s.count pgCxl 0x064 + 1) :=
  s.count_bump_self pgCxl 0x064 1

theorem State.poisonWrite_flt (s : State) (dpa : Nat) :
    (s.poisonWrite dpa).flt = { s.flt with inbox := s.flt.inbox ++ [faultMsg s pgCxl .hostPoisonWrite 0 dpa false] } := rfl

/-- Settles O25: both writes end in `poisonWrite`, whose message carries the address. -/
theorem memPoison : Obligations.MemPoison := by
  intro s t dpa data en r ho hi hd i hwrite
  have hexec : exec i s = .next (((s.at t).poisonWrite dpa).emit .memDone).settle := by
    rcases hwrite with rfl | rfl
    · exact exec_memWr_poison ho hi hd t data
    · exact exec_memWrPtl_poison ho hi hd t data en r
  exact ⟨_, _, hexec, rfl, rfl, rfl, rfl, (s.at t).count_poisonWrite dpa, (s.at t).poisonWrite_flt dpa,
    faultMsg_kind .., faultMsg_severity .., rfl, rfl⟩

end Sys2Proof.Machine
end

section
/-!
What writes of CBD_SW_SET and CBD_SW_CLR do to the software interrupt sources (19 R618).
-/

namespace Sys2Proof.Machine

/-! ### The bits of a mask -/

theorem bitOf_or (a b i : Nat) : bitOf (a ||| b) i = (bitOf a i || bitOf b i) := by
  simp only [bitOf_eq_testBit, Nat.testBit_or]

theorem bitOf_and (a b i : Nat) : bitOf (a &&& b) i = (bitOf a i && bitOf b i) := by
  simp only [bitOf_eq_testBit, Nat.testBit_and]

/-- Within a word, subtracting from `allBits` turns every bit over. -/
theorem bitOf_allBits_sub (w : Word) {j : Nat} (hj : j < 32) : bitOf (allBits - w.toNat) j = !bitOf w.toNat j := by
  have hsub : allBits - w.toNat = 2 ^ 32 - (w.toNat + 1) := by rw [allBits]; omega
  rw [hsub, bitOf_eq_testBit, bitOf_eq_testBit, Nat.testBit_two_pow_sub_succ w.isLt, decide_eq_true hj, Bool.true_and]

/-! ### Software sources -/

theorem isEdgeSource_software (j : Nat) : isEdgeSource (992 + j) = false := by
  have hcue : 992 + j ≠ pgCue * 8 + 4 := by rw [pgCue]; omega
  have hflt : 992 + j ≠ pgFlt * 8 + 2 := by rw [pgFlt]; omega
  rw [isEdgeSource, beq_false_of_ne hcue, beq_false_of_ne hflt, Bool.or_false]

/-- A software source is asserted as its bit stands (R618). -/
theorem State.asserted_software (s : State) {j : Nat} (hj : j < 32) : s.asserted (992 + j) = bitOf s.cbd.sw j := by
  have hhigh : ¬ 992 + j < 576 := by omega
  have htop : 992 + j < 1024 := by omega
  simp [State.asserted, hhigh, htop]

/-- The node at `t` with the software sources at `w` and all else as it was. -/
def State.swWritten (s : State) (t w : Nat) : State := { s.at t with cbd := { s.cbd with sw := w } }

theorem State.asserted_swWritten (s : State) (t w : Nat) {j : Nat} (hj : j < 32) :
    (s.swWritten t w).asserted (992 + j) = bitOf w j :=
  (s.swWritten t w).asserted_software hj

section
variable {s : State} (hl : s.live = true) (t : Nat) (val : Word)
include hl

theorem exec_cbdSwSet : exec (.cbdSwSet t 0 val) s = .next (s.swWritten t (s.cbd.sw ||| val.toNat)).settle := by
  show execCbdSwSet t 0 val s = _
  rw [execCbdSwSet, hl, beq_self_eq_true, Bool.and_true, State.onlyIf_true, done_eq]
  rfl

theorem exec_cbdSwClr : exec (.cbdSwClr t 0 val) s = .next (s.swWritten t (s.cbd.sw &&& (allBits - val.toNat))).settle := by
  show execCbdSwClr t 0 val s = _
  rw [execCbdSwClr, hl, beq_self_eq_true, Bool.and_true, State.onlyIf_true, done_eq]
  rfl

end

/-- Settles O8: both writes end in `swWritten`, whose sources read the new mask bit by bit. -/
theorem softwareSources : Obligations.SoftwareSources := by
  intro s t val hl
  refine ⟨fun j hj => ⟨isEdgeSource_software j, s.asserted_software hj⟩,
    ⟨_, exec_cbdSwSet hl t val, rfl, fun j hj => ?_⟩, ⟨_, exec_cbdSwClr hl t val, rfl, fun j hj => ?_⟩⟩
  · rw [s.asserted_swWritten t _ hj, s.asserted_software hj, bitOf_or]
  · rw [s.asserted_swWritten t _ hj, s.asserted_software hj, bitOf_and, bitOf_allBits_sub val hj]

end Sys2Proof.Machine
end

section
/-!
What every step keeps: each completed step ends in `State.settle`, which alone restores the invariant.
-/

namespace Sys2Proof.Machine

theorem eq_settle_of_done {v u : State} (h : done v = .next u) : u = v.settle :=
  (Host.Outcome.next.inj h).symm

theorem exec_registerWrite_next {t fn off width : Nat} {val : Word} {s u : State}
    (h : exec (.registerWrite t fn off width val) s = .next u) : ∃ v : State, u = v.settle := by
  change execRegisterWrite t fn off width val s = .next u at h
  rw [execRegisterWrite] at h
  split at h
  · exact ⟨_, eq_settle_of_done h⟩
  split at h
  · nomatch h
  split at h
  · nomatch h
  · exact ⟨_, eq_settle_of_done h⟩

/-- Every step that completes ends in `settle`. -/
theorem exec_next {i : Instr} {s u : State} (h : exec i s = .next u) : ∃ v : State, u = v.settle := by
  cases i with
  | registerWrite => exact exec_registerWrite_next h
  | _ => exact ⟨_, eq_settle_of_done h⟩

/-! ### What `settle` restores -/

theorem Coll.rise_horizon_le (c : Coll) (w : Nat) (h : (c.rise w).autoHorizon = true) : (c.rise w).autoTarget w ≤ (c.rise w).horizon := by
  by_cases ha : c.autoHorizon = true
  · rw [Coll.rise, if_pos ha]
    exact Nat.le_max_right _ _
  · rw [Coll.rise, if_neg ha] at h
    exact absurd h ha

theorem Search.markReady_stage (q : Search) (w now : Nat) : (q.markReady w now).stage = q.stage := by
  rw [Search.markReady]
  split <;> rfl

theorem Search.markReady_waits_not (q : Search) (w now : Nat) (hs : (q.markReady w now).stage = .queued)
    (hr : (q.markReady w now).timedOut = true ∨ (q.markReady w now).asOf ≤ w) : (q.markReady w now).readyAt.isSome = true := by
  by_cases hc : (q.stage = .queued && q.readyAt.isNone && (q.timedOut || q.asOf ≤ w)) = true
  · rw [Search.markReady, if_pos hc]
    rfl
  · rw [Search.markReady, if_neg hc] at hs hr ⊢
    cases hq : q.readyAt with
    | some a => rfl
    | none => exact absurd (by simpa [hs, hq] using hr) hc

/-- `settle` leaves every search in its stage. -/
theorem State.settle_admq (s : State) : s.settle.admq = s.admq := by
  simp only [State.admq, State.settle, Table.countP, Table.mapVal, List.filter_map, List.length_map]
  congr 2
  funext e
  simp [Search.markReady_stage]

theorem State.settle_irqRaw (s : State) (page : Nat) : s.settle.irqRaw page = s.irqRaw page := by
  have hfull : s.settle.admqFull = s.admqFull := by rw [State.admqFull, State.admqFull, s.settle_admq]
  rw [State.irqRaw, State.irqRaw, hfull]
  rfl

/-- What `settle` changes asserts no source and takes none away. -/
theorem State.settle_asserted (s : State) (src : Nat) : s.settle.asserted src = s.asserted src := by
  rw [State.asserted, State.asserted, State.irqPend, State.irqPend, s.settle_irqRaw]
  rfl

theorem State.settle_inv (s : State) : s.settle.Inv where
  watermark := Nat.le_max_right _ _
  horizons := by
    intro e he
    obtain ⟨e', -, rfl⟩ := List.mem_map.mp he
    exact e'.2.rise_horizon_le _
  searches := by
    intro e he
    obtain ⟨e', -, rfl⟩ := List.mem_map.mp he
    exact e'.2.markReady_waits_not _ _
  known := by
    intro src hsrc
    rw [s.settle_asserted]
    exact (List.mem_filter.mp hsrc).2

/-- Settles O2: an idle step changes nothing, and any other that completes ends in `settle`. -/
theorem stepKeepsInvariant : Obligations.StepKeepsInvariant := by
  intro s u hinv hstep
  rw [step] at hstep
  split at hstep
  · exact Host.Outcome.next.inj hstep ▸ hinv
  · obtain ⟨v, rfl⟩ := exec_next hstep
    exact v.settle_inv

end Sys2Proof.Machine
end

section
/-!
Steps that do not take place, the state at reset, and register writes that reach no register.
-/

namespace Sys2Proof.Machine

/-- Settles O1: both clauses are the two branches of `step`. -/
theorem stepRunsFrontCommand : Obligations.StepRunsFrontCommand := by
  refine ⟨fun s i rest hs => ?_, fun s hs => ?_⟩
  · rw [step, hs]
  · rw [step, hs]

/-! ### The state at reset -/

theorem State.reset_reg (page off : Nat) : State.reset.reg page off = regReset page off := rfl

theorem State.reset_inv : State.reset.Inv where
  watermark := Nat.le_refl 0
  horizons _ he := nomatch he
  searches _ he := nomatch he
  known _ hsrc := nomatch hsrc

/-- Settles O3: every field stands at its default, and an unlisted register reads its Reset column. -/
theorem resetState : Obligations.ResetState :=
  ⟨State.reset_inv, rfl, rfl, rfl, State.reset_reg, rfl, rfl⟩

/-! ### A node that is not in service -/

section
variable {s : State} (hl : s.live = false)
include hl

theorem State.withCmd_not_live (cid : Nat) (ok : Cmd → Bool) (f : Cmd → State → State) : s.withCmd cid ok f = s := by
  rw [State.withCmd]
  split <;> simp [hl]

theorem State.spdm_not_live (r : SpdmRequest) (ok : Bool) (f : State → State) : s.spdm r ok f = s := by
  rw [State.spdm, hl, Bool.false_and, State.onlyIf_false]

theorem State.fireNext_not_live (p : Nat → Bool) : s.fireNext p = s := by
  simp [State.fireNext, State.mayFire, hl]

theorem State.canMutate_not_live (cid op : Nat) : s.canMutate cid op = false := by
  rw [State.canMutate]
  split <;> simp [hl]

theorem State.memLink_not_live : s.memLink = false := by simp [State.memLink, hl]

theorem State.memOpen_not_live (dpa : Nat) : s.memOpen dpa = false := by
  simp [State.memOpen, State.memLink_not_live hl]

end

theorem exec_registerWrite_not_live {s : State} (hl : s.live = false) (t fn off width : Nat) (val : Word) :
    exec (.registerWrite t fn off width val) s = .next (s.at t).settle := by
  show execRegisterWrite t fn off width val s = _
  rw [execRegisterWrite, if_pos (by simp [hl])]
  rfl

/-- Settles O4: each step of the kind is `onlyIf`, `withCmd`, `spdm` or `fireNext` of the state at its time, and each of these needs a
node in service. -/
theorem outOfServiceOnlyTimeMoves : Obligations.OutOfServiceOnlyTimeMoves := by
  intro s i hl
  have hat : ∀ t, (s.at t).live = false := fun _ => hl
  cases i with
  | registerWrite => exact exec_registerWrite_not_live hl ..
  | leaseLapse => rfl
  | refresh | faultMessage | fltInjGo | faultInputEdge | powerSample | thermalSample | thermalHardTrip | sysClkLoss | sysClkReturn
  | referenceLoss | supplyFail | supplyReturn | debugPortAccess | resetInputFall | porRelease | sysRstRelease | perstRelease
  | startLimitExpiry | coldStart | warmStartSequence => trivial
  | _ =>
    refine congrArg done ?_
    simp only [hl, hat, Bool.false_and, State.onlyIf_false, State.withCmd_not_live, State.spdm_not_live, State.fireNext_not_live,
      State.canMutate_not_live, State.memLink_not_live, State.memOpen_not_live]
    rfl

/-! ### Register writes from another function -/

theorem exec_registerWrite_of_fn {fn : Nat} (hfn : fn ≠ 0) (s : State) (t off width : Nat) (val : Word) :
    exec (.registerWrite t fn off width val) s = .next (s.at t).settle := by
  show execRegisterWrite t fn off width val s = _
  rw [execRegisterWrite, if_pos (by simp [hfn])]
  rfl

theorem exec_registerWrite_pf0 {s : State} (hl : s.live = true) (t off width : Nat) (val : Word) :
    exec (.registerWrite t 0 off width val) s =
      if 0x100000 ≤ off then .fault .outsideBar
      else if 0xF0000 ≤ off then .refused .componentBlock
      else done ((s.at t).onlyIf (width == 4 && off % 4 == 0) (plainWrite (off / 4096) (off % 4096) val.toNat)) := by
  show execRegisterWrite t 0 off width val s = _
  rw [execRegisterWrite, if_neg (by simp [hl])]
  rfl

/-- Settles O5: each write asks for function 0, and an access of PF0 is sorted by its offset before its width and alignment. -/
theorem registerWritesTurnedAway : Obligations.RegisterWritesTurnedAway := by
  refine ⟨fun s t fn val hfn => ?_, fun s t off width val hl => ⟨fun hoff hbad => ?_, fun hoff => ?_, fun hlo hhi => ?_⟩⟩
  · refine ⟨fun off width => exec_registerWrite_of_fn hfn s t off width val, ?_⟩
    refine ⟨?_, ?_, ?_, ?_, ?_, ?_, ?_, ?_, ?_, ?_, ?_, ?_, ?_, ?_, ?_, ?_, ?_, ?_, ?_, ?_,
      fun _ => ?_, fun _ => ?_, fun _ => ?_, fun _ => ⟨?_, ?_, ?_, ?_, ?_, ?_⟩⟩
    all_goals
      refine congrArg done ?_
      simp only [beq_false_of_ne hfn, Bool.and_false, Bool.false_and, State.onlyIf_false]
  · rw [exec_registerWrite_pf0 hl, if_neg (by omega), if_neg (by omega)]
    have hdrop : (width == 4 && off % 4 == 0) = false := by
      rcases hbad with h | h <;> simp [h]
    rw [hdrop, State.onlyIf_false, done_eq]
  · rw [exec_registerWrite_pf0 hl, if_pos hoff]
  · rw [exec_registerWrite_pf0 hl, if_neg (by omega), if_pos hlo]

end Sys2Proof.Machine
end

section
/-!
Register writes by access code, reads that capture, and BLK_CTRL, BLK_LOCK and IRQ_EN (00 R8 to R12; 23 R705 to R718).
-/

namespace Sys2Proof.Machine

/-! ### Bits of register values -/

theorem bitOf_allBits_sub_of_le {v j : Nat} (hv : v ≤ allBits) (hj : j < 32) : bitOf (allBits - v) j = !bitOf v j := by
  have hlt : v < 2 ^ 32 := by rw [allBits] at hv; omega
  have hv : (BitVec.ofNat 32 v).toNat = v := by simpa using hlt
  have := bitOf_allBits_sub (BitVec.ofNat 32 v) hj
  rwa [hv] at this

@[simp] theorem bitOf_bitAt (on : Bool) (i j : Nat) : bitOf (bitAt on i) j = (on && decide (i = j)) := by
  cases on
  · simp [bitOf_eq_testBit, bitAt, boolNat]
  · simp [bitOf_eq_testBit, bitAt, boolNat, Nat.testBit_two_pow]

@[simp] theorem bitOf_two_pow (i j : Nat) : bitOf (2 ^ i) j = decide (i = j) := by
  rw [bitOf_eq_testBit, Nat.testBit_two_pow]

theorem word_le_allBits (val : Word) : val.toNat ≤ allBits := by
  rw [allBits]
  omega

/-- The bits of every access code lie within a register. -/
theorem regDef_bits_le {b : Block} {off : Nat} {d : RegDef} (h : regDef b off = some d) : d.rw ≤ allBits ∧ d.lk ≤ allBits := by
  have htable : ∀ d ∈ headerRegs b ++ blockRegs b, d.rw ≤ allBits ∧ d.lk ≤ allBits := by
    cases b <;> decide
  exact htable d (List.mem_of_find?_eq_some h)

/-- A write by access code, bit by bit (R8). -/
theorem RegDef.bitOf_written {d : RegDef} (hc : d.clamps = []) (hrw : d.rw ≤ allBits) (hlk : d.lk ≤ allBits) (lock : Bool) (old : Nat)
    {val j : Nat} (hval : val ≤ allBits) (hj : j < 32) :
    bitOf (d.written lock old val) j = ((if bitOf d.rw j || (bitOf d.lk j && !lock) then bitOf val j else bitOf old j) &&
      !(bitOf d.w1c j && bitOf val j)) := by
  have htake : (d.rw ||| if lock then 0 else d.lk) ≤ allBits := by
    cases lock
    · exact Nat.le_of_lt_succ (Nat.or_lt_two_pow (n := 32) (Nat.lt_succ_of_le hrw) (Nat.lt_succ_of_le hlk))
    · simpa using hrw
  have hclear : (val &&& d.w1c) ≤ allBits := Nat.le_trans Nat.and_le_left hval
  have hlock : bitOf (if lock then 0 else d.lk) j = (bitOf d.lk j && !lock) := by
    cases lock <;> simp [bitOf_eq_testBit]
  simp only [RegDef.written, RegDef.clamp, hc, List.foldl_nil, bitOf_and, bitOf_or, bitOf_allBits_sub_of_le htake hj,
    bitOf_allBits_sub_of_le hclear hj, hlock, Bool.and_comm (bitOf val j) (bitOf d.w1c j)]
  cases bitOf d.rw j || (bitOf d.lk j && !lock) <;> simp

/-! ### The plain write -/

section
variable {s : State} {page off : Nat} {b : Block} {d : RegDef}

/-- The fields that a write of `val` leaves in a register of one copy on its own page. -/
def State.writtenReg (s : State) (page off val : Nat) (d : RegDef) : Nat :=
  d.written (bitOf (s.reg page 0x038) 0) (s.reg page off) val

/-- The block that `blockAt` gives. -/
theorem blockAt_of_map (h : (blockAt page).map (fun e => e.1) = some b) : ∃ i, blockAt page = some (b, i) := by
  obtain ⟨e, he, rfl⟩ := Option.map_eq_some_iff.mp h
  exact ⟨e.2, he⟩

/-- A write by access code of a register of one copy on its own page. -/
theorem State.writeFields_one (s : State) {page off i : Nat} {b : Block} {d : RegDef} (hblock : blockAt page = some (b, i))
    (hreg : regDef b off = some d) (hsel : d.sel = .one) (hnode : d.node = 0) (v : Nat) :
    s.writeFields page off v = s.setReg page off (s.writtenReg page off v d) := by
  simp only [State.writeFields, hblock, hreg, hsel, State.selIdx, hnode, State.locked]
  rfl

theorem State.PlainRegister.writeFields {val : Nat} (h : s.PlainRegister page off val b d) (v : Nat) :
    s.writeFields page off v = s.setReg page off (s.writtenReg page off v d) := by
  obtain ⟨i, hblock⟩ := blockAt_of_map h.block
  exact s.writeFields_one hblock h.reg h.oneCopy h.ownPage v

theorem State.PlainRegister.afterWrite {val : Nat} (h : s.PlainRegister page off val b d) (u : State) (old v : Nat) :
    u.afterWrite b off old v = u := by
  have hno := h.noMore
  unfold State.afterWrite
  split
  all_goals simp_all

theorem plainWrite_plain {val : Nat} (h : s.PlainRegister page off val b d) (hval : val ≤ allBits) :
    plainWrite page off val s = (s.wake page).setReg page off (s.writtenReg page off val d) := by
  obtain ⟨i, hblock⟩ := blockAt_of_map h.block
  have hown : ownBits b off ((s.wake page).reg page off) val = 0 := h.noOwn
  have hdrop : (s.wake page).dropsWrite b off = false := h.taken
  have hwake : (s.wake page).PlainRegister page off val b d :=
    ⟨h.block, h.reg, h.oneCopy, h.ownPage, h.noRange, h.noOwn, h.taken, h.noMore⟩
  have hword : (val &&& (allBits - 0)) ||| ((s.wake page).reg page off &&& 0) = val := by
    rw [Nat.and_zero, Nat.or_zero, Nat.sub_zero, allBits]
    exact Nat.and_two_pow_sub_one_of_lt_two_pow (n := 32) (Nat.lt_succ_of_le hval)
  simp only [plainWrite, hblock, hown, hdrop, hword, Bool.false_eq_true, if_false, hwake.afterWrite, hwake.writeFields]
  rfl

end

/-! ### Reads that capture -/

theorem execHmcUeLocRead_found {s : State} (hl : s.live = true) {stack : Nat} (hs : stack < 8) (t : Nat) :
    exec (.hmcUeLocRead t stack) s = .next (State.settle { s.at t with
        tier := { s.tier with stackList := s.tier.stackList.set stack { s.stack stack with ueLoc := none } },
        hiCap := ((s.hiCap.set (pgHmc stack * 4096 + 0x070) (((s.stack stack).ueLoc.getD (0, 0)).1 / 2 ^ 32)).set
          (pgHmc stack * 4096 + 0x078) (((s.stack stack).ueLoc.getD (0, 0)).2 % 2 ^ 32)).set
          (pgHmc stack * 4096 + 0x07C) (((s.stack stack).ueLoc.getD (0, 0)).2 / 2 ^ 32),
        outbox := .readData (BitVec.ofNat 32 ((s.stack stack).ueLoc.getD (0, 0)).1) :: s.outbox }) := by
  show execHmcUeLocRead t stack s = _
  rw [execHmcUeLocRead, hl, decide_eq_true hs, Bool.and_self, State.onlyIf_true]
  rfl

theorem counterLoRead_split {s : State} {page off v : Nat} (h : s.split? page off = some v) : counterLoRead page off s =
    ({ s with hiCap := s.hiCap.set (page * 4096 + off) (v / 2 ^ 32 % 2 ^ 32) }).emit (.readData (BitVec.ofNat 32 v)) := by
  rw [counterLoRead, h]

/-- Settles O6: a plain write sets one register through its access codes, and each capturing read names its own registers. -/
theorem registerAccess : Obligations.RegisterAccess := by
  refine ⟨fun s t off val b d hl hoff halign hplain => ?_, fun s t hl => ⟨fun off v hv => ?_, ?_, fun stack hs => ?_⟩⟩
  · have hat : (s.at t).PlainRegister (off / 4096) (off % 4096) val.toNat b d :=
      ⟨hplain.block, hplain.reg, hplain.oneCopy, hplain.ownPage, hplain.noRange, hplain.noOwn, hplain.taken, hplain.noMore⟩
    obtain ⟨hrw, hlk⟩ := regDef_bits_le hplain.reg
    refine ⟨s.writtenReg (off / 4096) (off % 4096) val.toNat d, ?_, fun j hj =>
      RegDef.bitOf_written hplain.noRange hrw hlk _ _ (word_le_allBits val) hj⟩
    rw [exec_registerWrite_pf0 hl, if_neg (by omega), if_neg (by omega), halign, beq_self_eq_true, beq_self_eq_true, Bool.and_self,
      State.onlyIf_true, plainWrite_plain hat (word_le_allBits val), done_eq]
    rfl
  · show execCounterLoRead t off s = _
    rw [execCounterLoRead, hl, State.onlyIf_true, counterLoRead_split hv]
    rfl
  · show execCueTpLoRead t s = _
    rw [execCueTpLoRead, hl, State.onlyIf_true]
    rfl
  · exact execHmcUeLocRead_found hl hs t

end Sys2Proof.Machine
end

section
/-!
Laws of the Call Board's operations: what an event, a message and its hold change, and what they leave alone (19 R615 to R622).
-/

namespace Sys2Proof.Machine

/-! ### The frame of the Call Board -/

/-- `u` is `s` after operations of the Call Board: its own block, the Prompters, counters, CBD_STAT and what left the node. -/
structure State.CbdStep (s u : State) : Prop where
  rest : u = { s with cbd := u.cbd, prm := u.prm, regs := u.regs, counts := u.counts, outbox := u.outbox }
  regs : ∀ k, k ≠ regKey pgCbd 0x044 0 → u.regs.find? k = s.regs.find? k
  fns : u.cbd.fns = s.cbd.fns
  latched : u.cbd.latched = s.cbd.latched

namespace State.CbdStep

theorem refl (s : State) : s.CbdStep s := ⟨rfl, fun _ _ => rfl, rfl, rfl⟩

theorem trans {s u v : State} (h : s.CbdStep u) (h' : u.CbdStep v) : s.CbdStep v where
  rest := by rw [h'.rest, h.rest]
  regs k hk := (h'.regs k hk).trans (h.regs k hk)
  fns := h'.fns.trans h.fns
  latched := h'.latched.trans h.latched

/-- `trans` read from its second step. -/
theorem after {s u v : State} (h' : u.CbdStep v) (h : s.CbdStep u) : s.CbdStep v := h.trans h'

/-- A fold of such operations is one. -/
theorem foldl {α : Type} {f : State → α → State} (h : ∀ (s : State) a, s.CbdStep (f s a)) (l : List α) (s : State) : s.CbdStep (l.foldl f s) := by
  induction l generalizing s with
  | nil => exact refl s
  | cons a l ih => exact (h s a).trans (ih _)

section
variable {s u : State} (h : s.CbdStep u)
include h

theorem host : u.host = s.host := by rw [h.rest]
theorem win : u.win = s.win := by rw [h.rest]
theorem flt : u.flt = s.flt := by rw [h.rest]
theorem qmg : u.qmg = s.qmg := by rw [h.rest]
theorem cxl : u.cxl = s.cxl := by rw [h.rest]

/-- Every copy of a register but CBD_STAT reads as before. -/
theorem regAt {page off idx : Nat} (hk : regKey page off idx ≠ regKey pgCbd 0x044 0) : u.regAt page off idx = s.regAt page off idx := by
  rw [State.regAt, State.regAt, Table.getD, Table.getD, h.regs _ hk]

theorem reg {page off : Nat} (hk : regKey page off 0 ≠ regKey pgCbd 0x044 0) : u.reg page off = s.reg page off := h.regAt hk

theorem linkUp : linkUp u = linkUp s := by rw [Machine.linkUp, Machine.linkUp, h.cxl]

end

end State.CbdStep

/-- An operation of the Call Board's own block that keeps the functions' control bits and the latched edges. -/
theorem State.cbdStep_cbd (s : State) (c : CbdBlock) (hf : c.fns = s.cbd.fns) (hl : c.latched = s.cbd.latched) :
    s.CbdStep { s with cbd := c } := ⟨rfl, fun _ _ => rfl, hf, hl⟩

theorem State.cbdStep_setVec (s : State) (key : Nat) (v : Vec) : s.CbdStep (s.setVec key v) := s.cbdStep_cbd _ rfl rfl

theorem State.cbdStep_bump (s : State) (page off n : Nat) : s.CbdStep (s.bump page off n) := ⟨rfl, fun _ _ => rfl, rfl, rfl⟩

theorem State.cbdStep_bump64 (s : State) (page off n : Nat) : s.CbdStep (s.bump64 page off n) := ⟨rfl, fun _ _ => rfl, rfl, rfl⟩

theorem State.cbdStep_emit (s : State) (o : Out) : s.CbdStep (s.emit o) := ⟨rfl, fun _ _ => rfl, rfl, rfl⟩

theorem State.cbdStep_sticky (s : State) (bits : Nat) : s.CbdStep (s.sticky pgCbd 0x044 bits) :=
  ⟨rfl, fun _ hk => Table.find?_set_ne _ _ hk, rfl, rfl⟩

/-! ### Sending a vector's message (R620, R622) -/

section
variable {s : State} {key : Nat}

theorem State.sendVec_open (h : s.vecBlocked key = false) : s.sendVec key =
    ((s.setVec key { s.vec key with pending := 0, timer := none, held := false, armed := false }).emit
      (.msix (key / 2048) (key % 2048))).bump64 pgCbd 0x070 := by
  rw [State.sendVec, h]
  rfl

theorem State.sendVec_hold (h : s.vecBlocked key = true) (hh : (s.vec key).held = false) : s.sendVec key =
    ((s.setVec key { s.vec key with held := true, timer := none }).bump pgCbd 0x080).sticky pgCbd 0x044 2 := by
  rw [State.sendVec, h, hh]
  rfl

theorem State.sendVec_held (h : s.vecBlocked key = true) (hh : (s.vec key).held = true) : s.sendVec key = s := by
  rw [State.sendVec, h, hh]
  rfl

end

theorem State.cbdStep_sendVec (s : State) (key : Nat) : s.CbdStep (s.sendVec key) := by
  cases hb : s.vecBlocked key with
  | false =>
    rw [State.sendVec_open hb]
    exact ((s.cbdStep_setVec key _).trans (State.cbdStep_emit _ _)).trans (State.cbdStep_bump64 _ _ _ _)
  | true =>
    cases hh : (s.vec key).held with
    | true =>
      rw [State.sendVec_held hb hh]
      exact .refl s
    | false =>
      rw [State.sendVec_hold hb hh]
      exact ((s.cbdStep_setVec key _).trans (State.cbdStep_bump _ _ _ _)).trans (State.cbdStep_sticky _ _)

theorem State.cbdStep_vecEvent (s : State) (fn vector : Nat) : s.CbdStep (s.vecEvent fn vector) := by
  unfold State.vecEvent
  dsimp only
  have hset := s.cbdStep_setVec (vecKey fn vector)
  split
  · exact hset _
  split
  · exact hset _
  split
  · exact ((hset _).trans (State.cbdStep_bump _ _ _ _)).trans (State.cbdStep_sendVec _ _)
  split
  · exact (hset _).trans (State.cbdStep_sendVec _ _)
  split
  · exact (hset _).trans (State.cbdStep_sendVec _ _)
  split
  · exact (hset _).trans (State.cbdStep_setVec _ _ _)
  · exact hset _

/-! ### Events (R615 to R617) -/

theorem State.cbdStep_prompterEvent (s : State) (p src : Nat) : s.CbdStep (s.prompterEvent p src) := by
  unfold State.prompterEvent
  dsimp only
  split
  · exact ⟨rfl, fun _ _ => rfl, rfl, rfl⟩
  · exact ⟨rfl, fun _ _ => rfl, rfl, rfl⟩

theorem State.cbdStep_raiseHost (s : State) (src : Nat) : s.CbdStep (s.raiseHost src) := by
  unfold State.raiseHost
  split
  · exact (State.cbdStep_vecEvent _ _ _).after (s.cbdStep_cbd _ rfl rfl)
  · exact .refl s

theorem State.cbdStep_raisePrompter (s : State) (src : Nat) : s.CbdStep (s.raisePrompter src) := by
  unfold State.raisePrompter
  split
  · exact .refl s
  split
  · exact .refl s
  · exact (State.cbdStep_prompterEvent _ _ _).after (s.cbdStep_cbd _ rfl rfl)

theorem State.cbdStep_levelSourceAssert (s : State) (src : Nat) : s.CbdStep (levelSourceAssert src s) := by
  unfold levelSourceAssert
  split
  · exact (State.cbdStep_raisePrompter _ _).after ((State.cbdStep_raiseHost _ _).after (s.cbdStep_cbd _ rfl rfl))
  · exact .refl s

theorem State.cbdStep_edgeEvent (s : State) (src : Nat) : s.CbdStep (s.edgeEvent src) := by
  have hhost : s.CbdStep (if bitOf (s.regAt pgCbd 0x04C src) 31 then s.vecEvent 0 (bitsOf (s.regAt pgCbd 0x04C src) 10 0) else s) := by
    split
    · exact s.cbdStep_vecEvent _ _
    · exact .refl s
  unfold State.edgeEvent
  dsimp only
  split
  · exact hhost.trans (State.cbdStep_prompterEvent _ _ _)
  · exact hhost

end Sys2Proof.Machine
end

section
/-!
Arming, moderation, held messages and latched edges of the Call Board (19 R619 to R622, R626).
-/

namespace Sys2Proof.Machine

@[simp] theorem State.vec_setVec_self (s : State) (key : Nat) (v : Vec) : (s.setVec key v).vec key = v := by
  simp [State.vec, State.setVec]

theorem State.vec_setVec_ne (s : State) {key k : Nat} (v : Vec) (h : k ≠ key) : (s.setVec key v).vec k = s.vec k := by
  simp [State.vec, State.setVec, Table.getD_set_ne _ _ _ h]

/-! ### A message that is sent or held -/

section
variable {s : State} {key : Nat}

theorem State.vec_sendVec_ne (s : State) {k : Nat} (h : k ≠ key) : (s.sendVec key).vec k = s.vec k := by
  cases hb : s.vecBlocked key with
  | false => rw [State.sendVec_open hb]; exact s.vec_setVec_ne _ h
  | true =>
    cases hh : (s.vec key).held with
    | true => rw [State.sendVec_held hb hh]
    | false => rw [State.sendVec_hold hb hh]; exact s.vec_setVec_ne _ h

theorem State.vec_sendVec_open (h : s.vecBlocked key = false) :
    (s.sendVec key).vec key = { s.vec key with pending := 0, timer := none, held := false, armed := false } := by
  rw [State.sendVec_open h]
  exact s.vec_setVec_self key _

theorem State.outbox_sendVec_open (h : s.vecBlocked key = false) :
    (s.sendVec key).outbox = .msix (key / 2048) (key % 2048) :: s.outbox := by
  rw [State.sendVec_open h]
  rfl

theorem State.masked_sendVec (s : State) (key k : Nat) : ((s.sendVec key).vec k).masked = (s.vec k).masked := by
  by_cases hk : k = key
  · subst hk
    cases hb : s.vecBlocked k with
    | false => rw [State.vec_sendVec_open hb]
    | true =>
      cases hh : (s.vec k).held with
      | true => rw [State.sendVec_held hb hh]
      | false =>
        rw [State.sendVec_hold hb hh]
        show ((s.setVec k { s.vec k with held := true, timer := none }).vec k).masked = _
        rw [State.vec_setVec_self]
  · rw [s.vec_sendVec_ne hk]

end

/-! ### Releasing what was held (R622) -/

/-- One message of `releaseHeld`. -/
def State.releaseOne (s : State) (key : Nat) : State := if s.vecBlocked key then s else s.sendVec key

theorem State.releaseHeld_eq (s : State) :
    s.releaseHeld = ((s.cbd.vecs.filter fun e => e.2.held).map fun e => e.1).foldl State.releaseOne s := rfl

theorem State.cbdStep_releaseOne (s : State) (key : Nat) : s.CbdStep (s.releaseOne key) := by
  unfold State.releaseOne
  split
  · exact .refl s
  · exact s.cbdStep_sendVec key

theorem State.cbdStep_releaseHeld (s : State) : s.CbdStep s.releaseHeld := .foldl State.cbdStep_releaseOne _ s

theorem State.masked_releaseOne (s : State) (key k : Nat) : ((s.releaseOne key).vec k).masked = (s.vec k).masked := by
  unfold State.releaseOne
  split
  · rfl
  · exact s.masked_sendVec key k

theorem State.masked_releaseHeld (s : State) (k : Nat) : (s.releaseHeld.vec k).masked = (s.vec k).masked := by
  rw [s.releaseHeld_eq]
  induction (s.cbd.vecs.filter fun e => e.2.held).map fun e => e.1 generalizing s with
  | nil => rfl
  | cons key l ih => exact (ih _).trans (s.masked_releaseOne key k)

theorem State.vecBlocked_releaseOne (s : State) (key k : Nat) : (s.releaseOne key).vecBlocked k = s.vecBlocked k := by
  have h := s.cbdStep_releaseOne key
  rw [State.vecBlocked, State.vecBlocked, s.masked_releaseOne key k, h.fns, h.linkUp, h.reg (by decide)]

/-- A vector's message has gone and nothing of it waits. -/
def State.Sent (s : State) (key : Nat) : Prop :=
  .msix (key / 2048) (key % 2048) ∈ s.outbox ∧ (s.vec key).held = false ∧ (s.vec key).pending = 0

theorem State.sent_releaseOne_self {s : State} {key : Nat} (h : s.vecBlocked key = false) : (s.releaseOne key).Sent key := by
  rw [State.releaseOne, h]
  refine ⟨?_, ?_, ?_⟩
  · exact s.outbox_sendVec_open h ▸ List.mem_cons_self
  · exact congrArg Vec.held (State.vec_sendVec_open h)
  · exact congrArg Vec.pending (State.vec_sendVec_open h)

theorem State.Sent.releaseOne {s : State} {key : Nat} (h : s.Sent key) (k : Nat) : (s.releaseOne k).Sent key := by
  cases hb : s.vecBlocked k with
  | true => rwa [State.releaseOne, hb]
  | false =>
    by_cases hk : key = k
    · exact hk ▸ State.sent_releaseOne_self (hk ▸ hb)
    · obtain ⟨hout, hheld, hpend⟩ := h
      rw [State.releaseOne, hb]
      refine ⟨?_, ?_, ?_⟩
      · exact State.outbox_sendVec_open hb ▸ List.mem_cons_of_mem _ hout
      · exact (congrArg Vec.held (s.vec_sendVec_ne hk)).trans hheld
      · exact (congrArg Vec.pending (s.vec_sendVec_ne hk)).trans hpend

theorem State.sent_foldl_releaseOne {l : List Nat} {s : State} {key : Nat} (hmem : key ∈ l) (hb : s.vecBlocked key = false) :
    (l.foldl State.releaseOne s).Sent key := by
  have hkeep : ∀ (l : List Nat) (s : State), s.Sent key → (l.foldl State.releaseOne s).Sent key := by
    intro l
    induction l with
    | nil => exact fun _ h => h
    | cons k l ih => exact fun s h => ih _ (h.releaseOne k)
  induction l generalizing s with
  | nil => nomatch hmem
  | cons k l ih =>
    rcases List.mem_cons.mp hmem with rfl | hmem
    · exact hkeep l _ (State.sent_releaseOne_self hb)
    · exact ih hmem ((s.vecBlocked_releaseOne k key).trans hb)

/-- An entry that a table finds stands in it. -/
theorem mem_of_find? {α : Type} {t : Table α} {k : Nat} {a : α} (h : t.find? k = some a) : (k, a) ∈ t := by
  induction t with
  | nil => nomatch h
  | cons e t ih =>
    obtain ⟨k', a'⟩ := e
    rw [Table.find?] at h
    split at h
    · next hk => exact hk ▸ Option.some.inj h ▸ List.mem_cons_self
    · exact List.mem_cons_of_mem _ (ih h)

theorem State.sent_releaseHeld {s : State} {key : Nat} (hh : (s.vec key).held = true) (hb : s.vecBlocked key = false) :
    s.releaseHeld.Sent key := by
  refine State.sent_foldl_releaseOne ?_ hb
  cases hf : s.cbd.vecs.find? key with
  | none => simp [State.vec, Table.getD, hf] at hh
  | some v =>
    have hv : v.held = true := by simpa [State.vec, Table.getD, hf] using hh
    exact List.mem_map.mpr ⟨_, List.mem_filter.mpr ⟨mem_of_find? hf, hv⟩, rfl⟩

/-! ### Arming and moderation (R620 to R622) -/

/-- CBD_ARM reaches the vector of CBD_VSEL. -/
theorem exec_cbdArm_one {s : State} (hl : s.live = true) (t : Nat) :
    exec (.cbdArm t 0 1) s = .next ((s.at t).armVec ((s.at t).selIdx .vector)).settle := by
  show execCbdArm t 0 1 s = _
  rw [execCbdArm, hl, beq_self_eq_true, beq_self_eq_true, Bool.and_self, Bool.and_self, State.onlyIf_true, done_eq]

theorem exec_cbdArm_other {val : Word} (hval : val ≠ 1) (s : State) (t : Nat) : exec (.cbdArm t 0 val) s = .next (s.at t).settle := by
  show execCbdArm t 0 val s = _
  rw [execCbdArm, beq_false_of_ne hval, Bool.and_false, State.onlyIf_false, done_eq]

section
variable {s : State} (hl : s.live = true) (t : Nat) {fn vector t0 : Nat} (ht : (s.vec (fn * 2048 + vector)).timer = some t0)
include hl ht

theorem exec_moderationTimerExpiry : exec (.moderationTimerExpiry t fn vector) s =
    .next (if t0 + s.vecTimerUs (fn * 2048 + vector) * 1000 ≤ max s.now t then (s.at t).sendVec (fn * 2048 + vector) else s.at t).settle := by
  show execModerationTimerExpiry t fn vector s = _
  have htimer : ((s.at t).vec (vecKey fn vector)).timer = some t0 := ht
  rw [execModerationTimerExpiry, hl, State.onlyIf_true, moderationTimerExpiry, htimer, done_eq]
  rfl

end

theorem moderationTimer (s : State) (t fn vector t0 : Nat) (hl : s.live = true) (ht : (s.vec (fn * 2048 + vector)).timer = some t0) :
    let key := fn * 2048 + vector
    (t0 + s.vecTimerUs key * 1000 ≤ max s.now t → s.vecBlocked key = false →
      ∃ v : State, exec (.moderationTimerExpiry t fn vector) s = .next v.settle ∧
        v.outbox = .msix (key / 2048) (key % 2048) :: s.outbox ∧
        v.vec key = { s.vec key with pending := 0, timer := none, held := false, armed := false } ∧
        v.count pgCbd 0x070 = (s.count pgCbd 0x070 + 1) % 2 ^ 64 ∧ (∀ k, k ≠ key → v.vec k = s.vec k) ∧
        v.host = s.host ∧ v.win = s.win ∧ v.regs = s.regs) ∧
    (t0 + s.vecTimerUs key * 1000 ≤ max s.now t → s.vecBlocked key = true → (s.vec key).held = false →
      ∃ v : State, exec (.moderationTimerExpiry t fn vector) s = .next v.settle ∧ v.outbox = s.outbox ∧
        v.vec key = { s.vec key with held := true, timer := none } ∧
        v.count pgCbd 0x080 = min 0xFFFFFFFF (s.count pgCbd 0x080 + 1) ∧ bitOf (v.reg pgCbd 0x044) 1 = true ∧
        (∀ k, k ≠ key → v.vec k = s.vec k) ∧ v.host = s.host ∧ v.win = s.win) ∧
    (max s.now t < t0 + s.vecTimerUs key * 1000 → exec (.moderationTimerExpiry t fn vector) s = .next (s.at t).settle) := by
  intro key
  have hexec := exec_moderationTimerExpiry hl t ht
  refine ⟨fun hdue hb => ?_, fun hdue hb hh => ?_, fun hearly => ?_⟩
  · have hb' : (s.at t).vecBlocked key = false := hb
    refine ⟨(s.at t).sendVec key, by rw [hexec, if_pos hdue], State.outbox_sendVec_open hb', State.vec_sendVec_open hb', ?_,
      fun k hk => (s.at t).vec_sendVec_ne hk, ?_⟩
    · rw [State.sendVec_open hb']
      simp [State.bump64, State.count, State.emit, State.setVec]
    · rw [State.sendVec_open hb']
      exact ⟨rfl, rfl, rfl⟩
  · have hb' : (s.at t).vecBlocked key = true := hb
    have hh' : ((s.at t).vec key).held = false := hh
    refine ⟨(s.at t).sendVec key, by rw [hexec, if_pos hdue], ?_, ?_, ?_, ?_, fun k hk => (s.at t).vec_sendVec_ne hk, ?_⟩
    · rw [State.sendVec_hold hb' hh']
      rfl
    · rw [State.sendVec_hold hb' hh']
      exact (s.at t).vec_setVec_self key _
    · rw [State.sendVec_hold hb' hh']
      exact State.count_bump_self _ _ _ 1
    · rw [State.sendVec_hold hb' hh']
      exact State.bitOf_reg_sticky _ _ _ (by decide : (2).testBit 1 = true)
    · rw [State.sendVec_hold hb' hh']
      exact ⟨rfl, rfl⟩
  · rw [hexec, if_neg (Nat.not_le.mpr hearly)]

/-! ### What held a message clears (R622, R626) -/

theorem vecKey_div {fn vector : Nat} (hv : vector < 2048) : (fn * 2048 + vector) / 2048 = fn := by omega

theorem vecKey_mod {fn vector : Nat} (hv : vector < 2048) : (fn * 2048 + vector) % 2048 = vector := by omega

theorem State.vecBlocked_eq_false {s : State} {fn vector : Nat} (hv : vector < 2048) (hm : (s.vec (vecKey fn vector)).masked = false)
    (hf : (s.cbd.fns.getD fn {}).mask = false) (hu : linkUp s = true) (he : bitOf (s.reg pgCbd 0x040) 0 = true) :
    s.vecBlocked (vecKey fn vector) = false := by
  rw [State.vecBlocked, hm, vecKey, vecKey_div hv, hf, hu, he]
  rfl

theorem msixMaskClear_sends (s : State) (t fn vector : Nat) (hl : s.live = true) (hv : vector < 2048) :
    ∃ v : State, exec (.msixMaskClear t fn vector false) s = .next v.settle ∧
      (v.vec (fn * 2048 + vector)).masked = false ∧ v.host = s.host ∧ v.win = s.win ∧
      ((s.vec (fn * 2048 + vector)).held = true → (s.cbd.fns.getD fn {}).mask = false → linkUp s = true → bitOf (s.reg pgCbd 0x040) 0 = true →
        .msix fn vector ∈ v.outbox ∧ (v.vec (fn * 2048 + vector)).held = false ∧ (v.vec (fn * 2048 + vector)).pending = 0) := by
  let u := (s.at t).setVec (vecKey fn vector) { s.vec (vecKey fn vector) with masked := false }
  have hvec : u.vec (vecKey fn vector) = { s.vec (vecKey fn vector) with masked := false } := State.vec_setVec_self _ _ _
  have hstep := u.cbdStep_releaseHeld
  refine ⟨u.releaseHeld, ?_, ?_, hstep.host, hstep.win, fun hh hf hu he => ?_⟩
  · show execMsixMaskClear t fn vector false s = _
    rw [execMsixMaskClear, hl, State.onlyIf_true, done_eq]
    rfl
  · exact (u.masked_releaseHeld _).trans (congrArg Vec.masked hvec)
  · have hb : u.vecBlocked (vecKey fn vector) = false := State.vecBlocked_eq_false hv (congrArg Vec.masked hvec) hf hu he
    have hsent : u.releaseHeld.Sent (fn * 2048 + vector) := State.sent_releaseHeld ((congrArg Vec.held hvec).trans hh) hb
    rwa [State.Sent, vecKey_div hv, vecKey_mod hv] at hsent

/-- The state after a write of CBD_CTRL, before the held messages go. -/
def State.cbdCtrlWritten (s : State) (val : Word) : State :=
  s.setReg pgCbd 0x040 (s.writtenReg pgCbd 0x040 val.toNat { off := 0x040, reset := 3, rw := 3 })

theorem State.bitOf_cbdCtrlWritten (s : State) (val : Word) {j : Nat} (hj : j < 2) :
    bitOf ((s.cbdCtrlWritten val).reg pgCbd 0x040) j = bitOf val.toNat j := by
  rw [State.cbdCtrlWritten, State.reg_setReg_self, State.writtenReg,
    RegDef.bitOf_written rfl (by decide) (by decide) _ _ (word_le_allBits val) (by omega)]
  have hrw : bitOf 3 j = true := by
    have : j = 0 ∨ j = 1 := by omega
    rcases this with rfl | rfl <;> decide
  simp [hrw, bitOf_eq_testBit 0]

theorem exec_cbdHostEnableSet {s : State} (hl : s.live = true) {val : Word} (hval : bitOf val.toNat 0 = true) (t : Nat) :
    exec (.cbdHostEnableSet t 0 val) s = .next ((s.at t).cbdCtrlWritten val).releaseHeld.settle := by
  show execCbdHostEnableSet t 0 val s = _
  rw [execCbdHostEnableSet, hl, hval, beq_self_eq_true, Bool.and_self, Bool.and_self, State.onlyIf_true, done_eq,
    (s.at t).writeFields_one (b := .cbd) (i := 0) (d := { off := 0x040, reset := 3, rw := 3 }) rfl rfl rfl rfl]
  rfl

theorem cbdHostEnableSet_sends (s : State) (t fn vector : Nat) (val : Word) (hl : s.live = true) (hv : vector < 2048)
    (hval : bitOf val.toNat 0 = true) : ∃ v : State, exec (.cbdHostEnableSet t 0 val) s = .next v.settle ∧
      bitOf (v.reg pgCbd 0x040) 0 = true ∧ bitOf (v.reg pgCbd 0x040) 1 = bitOf val.toNat 1 ∧ v.host = s.host ∧ v.win = s.win ∧
      ((s.vec (fn * 2048 + vector)).held = true → (s.vec (fn * 2048 + vector)).masked = false → (s.cbd.fns.getD fn {}).mask = false →
        linkUp s = true → .msix fn vector ∈ v.outbox ∧ (v.vec (fn * 2048 + vector)).held = false) := by
  let u := (s.at t).cbdCtrlWritten val
  have hstep := u.cbdStep_releaseHeld
  have hreg : u.releaseHeld.reg pgCbd 0x040 = u.reg pgCbd 0x040 := hstep.reg (by decide)
  have hbit : ∀ {j}, j < 2 → bitOf (u.releaseHeld.reg pgCbd 0x040) j = bitOf val.toNat j := fun hj => by
    rw [hreg, State.bitOf_cbdCtrlWritten _ _ hj]
  refine ⟨u.releaseHeld, exec_cbdHostEnableSet hl hval t, (hbit (by omega)).trans hval, hbit (by omega), hstep.host, hstep.win,
    fun hh hm hf hu => ?_⟩
  have hb : u.vecBlocked (vecKey fn vector) = false :=
    State.vecBlocked_eq_false hv hm hf hu ((State.bitOf_cbdCtrlWritten _ _ (by omega)).trans hval)
  have hsent := State.sent_releaseHeld (s := u) hh hb
  rw [State.Sent, vecKey_div hv, vecKey_mod hv] at hsent
  exact ⟨hsent.1, hsent.2.1⟩

/-- Looking up a table of which `g` changes the entries. -/
theorem find?_map_entry {α : Type} (t : Table α) (g : Nat → α → α) (k : Nat) :
    Table.find? (t.map fun e => (e.1, g e.1 e.2)) k = (t.find? k).map (g k) := by
  induction t with
  | nil => rfl
  | cons e t ih =>
    obtain ⟨k', a⟩ := e
    simp only [List.map_cons, Table.find?]
    split
    · next hk => rw [hk, Option.map_some]
    · exact ih

/-- The vectors of a function with no pending state. -/
def idleVecs (fn : Nat) (t : Table Vec) : Table Vec := t.map fun e => (e.1, if e.1 / 2048 = fn then e.2.idle else e.2)

theorem idleVecs_getD (fn : Nat) (t : Table Vec) (k : Nat) :
    (idleVecs fn t).getD k {} = if k / 2048 = fn then (t.getD k {}).idle else t.getD k {} := by
  rw [Table.getD, idleVecs, find?_map_entry t (fun k v => if k / 2048 = fn then v.idle else v), Table.getD]
  cases t.find? k with
  | none => simp [Vec.idle]
  | some v => rfl

theorem msixEnableClear_idles (s : State) (t fn vector : Nat) (hl : s.live = true) (hv : vector < 2048) :
    ∃ v : State, exec (.msixEnableClear t fn) s = .next v.settle ∧ (v.cbd.fns.getD fn {}).enable = false ∧
      (v.vec (fn * 2048 + vector)).pending = 0 ∧ (v.vec (fn * 2048 + vector)).held = false ∧ (v.vec (fn * 2048 + vector)).timer = none ∧
      (∀ k, k / 2048 ≠ fn → v.vec k = s.vec k) ∧ v.host = s.host ∧ v.win = s.win ∧ v.outbox = s.outbox := by
  let v : State := { s.at t with cbd := { s.cbd with
    fns := s.cbd.fns.set fn { s.cbd.fns.getD fn {} with enable := false }, vecs := idleVecs fn s.cbd.vecs } }
  have hexec : exec (.msixEnableClear t fn) s = .next v.settle := by
    show execMsixEnableClear t fn s = _
    have hvecs : (s.cbd.vecs.map fun e => if e.1 / 2048 = fn then (e.1, e.2.idle) else e) = idleVecs fn s.cbd.vecs := by
      refine List.map_congr_left fun e _ => ?_
      split <;> rfl
    rw [execMsixEnableClear, hl, State.onlyIf_true, done_eq, State.at_cbd, hvecs]
  have hvec : ∀ k, v.vec k = if k / 2048 = fn then (s.vec k).idle else s.vec k := fun k => idleVecs_getD fn s.cbd.vecs k
  have hmine : v.vec (fn * 2048 + vector) = (s.vec (fn * 2048 + vector)).idle := by rw [hvec, if_pos (vecKey_div hv)]
  refine ⟨v, hexec, ?_, ?_, ?_, ?_, fun k hk => by rw [hvec, if_neg hk], rfl, rfl, rfl⟩
  · simp [v]
  all_goals
    rw [hmine]
    rfl

/-! ### Edges latched while clocks were stopped (R619; 23 R716) -/

theorem State.cbdStep_faultInEdge (s : State) : (s.setReg pgFlt 0x018 (s.reg pgFlt 0x018 ||| 4)).CbdStep s.faultInEdge := by
  unfold State.faultInEdge
  dsimp only
  split
  · exact State.cbdStep_edgeEvent _ _
  · exact .refl _

theorem State.bitOf_faultInEdge (s : State) : bitOf (s.faultInEdge.reg pgFlt 0x018) 2 = true := by
  rw [s.cbdStep_faultInEdge.reg (by decide), State.reg_setReg_self, bitOf_or]
  simp [show bitOf 4 2 = true by decide]

/-- An accepted edge changes the Tape alone. -/
theorem State.ppsAccept_eq (s : State) : s.ppsAccept = { s with cue := s.ppsAccept.cue } := by
  unfold State.ppsAccept
  dsimp only
  split <;> rfl

/-- The node after an accepted edge, before the edge's event. -/
def State.ppsNoted (s : State) : State := s.ppsAccept.setReg pgCue 0x018 (s.reg pgCue 0x018 ||| 0x10)

theorem tapePpsEdge_cases (s : State) :
    tapePpsEdge s = s ∨ s.ppsNoted.CbdStep (tapePpsEdge s) := by
  unfold tapePpsEdge
  dsimp only
  refine iteInduction (motive := fun u => u = s ∨ s.ppsNoted.CbdStep u) (fun _ => .inr ?_) fun _ => .inl rfl
  split
  · exact s.ppsNoted.cbdStep_edgeEvent _
  · exact .refl _

theorem tapePpsEdge_keeps (s : State) :
    (tapePpsEdge s).cbd.latched = s.cbd.latched ∧ (tapePpsEdge s).host = s.host ∧ (tapePpsEdge s).win = s.win := by
  rcases tapePpsEdge_cases s with h | hstep
  · rw [h]
    exact ⟨rfl, rfl, rfl⟩
  · rw [hstep.latched, hstep.host, hstep.win, State.ppsNoted, s.ppsAccept_eq]
    exact ⟨rfl, rfl, rfl⟩

theorem edgeLatchHandoff_found {s : State} {src a : Nat} (h : s.cbd.latched.find? src = some a) :
    (edgeLatchHandoff src s).cbd.latched = s.cbd.latched.erase src ∧ (edgeLatchHandoff src s).host = s.host ∧
      (edgeLatchHandoff src s).win = s.win ∧ (src = 42 → bitOf ((edgeLatchHandoff src s).reg pgFlt 0x018) 2 = true) := by
  let u : State := { s with cbd := { s.cbd with latched := s.cbd.latched.erase src } }
  have hexec : edgeLatchHandoff src s = if src = 52 then { tapePpsEdge { u with now := a } with now := u.now }
      else if src = 42 then u.faultInEdge else u := by
    rw [edgeLatchHandoff, h]
    rfl
  rw [hexec]
  split
  · next h52 =>
    obtain ⟨hlatched, hhost, hwin⟩ := tapePpsEdge_keeps { u with now := a }
    exact ⟨hlatched, hhost, hwin, fun h42 => absurd (h42.symm.trans h52) (by decide)⟩
  split
  · have hstep := u.cbdStep_faultInEdge
    exact ⟨hstep.latched, hstep.host, hstep.win, fun _ => u.bitOf_faultInEdge⟩
  · next hne => exact ⟨rfl, rfl, rfl, fun h42 => absurd h42 hne⟩

theorem exec_edgeLatchHandoff {s : State} (hl : s.live = true) (t src : Nat) :
    exec (.edgeLatchHandoff t src) s = .next (edgeLatchHandoff src (s.at t)).settle := by
  show execEdgeLatchHandoff t src s = _
  rw [execEdgeLatchHandoff, hl, State.onlyIf_true, done_eq]

/-- Settles O9: one lemma each for arming, the timer, the three writes that release or drop, and the latched edge. -/
theorem callBoardMessages : Obligations.CallBoardMessages := by
  refine ⟨fun s t val hl => ⟨exec_cbdArm_one hl t, fun hval => exec_cbdArm_other hval s t⟩, moderationTimer,
    fun s t fn vector hl _ hv => ⟨msixMaskClear_sends s t fn vector hl hv,
      fun val hval => cbdHostEnableSet_sends s t fn vector val hl hv hval, msixEnableClear_idles s t fn vector hl hv⟩,
    fun s t src hl => ⟨fun a ha => ⟨_, exec_edgeLatchHandoff hl t src, edgeLatchHandoff_found ha⟩, fun hnone => ?_⟩⟩
  have hnone' : (s.at t).cbd.latched.find? src = none := hnone
  rw [exec_edgeLatchHandoff hl t src, edgeLatchHandoff, hnone']

end Sys2Proof.Machine
end

section
/-!
Writes of BLK_CTRL, BLK_LOCK and IRQ_EN (23 R710 to R718; 19 R611, R612).
-/

namespace Sys2Proof.Machine

/-- The value of BLK_CTRL with a field set to `on`. -/
def State.ctrlWith (s : State) (page bit : Nat) (on : Bool) : Nat :=
  (s.reg page 0x010 &&& (allBits - 2 ^ bit)) ||| bitAt on bit

theorem State.bitOf_ctrlWith (s : State) (page : Nat) {bit j : Nat} (on : Bool) (hb : bit < 32) (hj : j < 32) :
    bitOf (s.ctrlWith page bit on) j = if j = bit then on else bitOf (s.reg page 0x010) j := by
  have hle : 2 ^ bit ≤ allBits := by
    have := Nat.pow_lt_pow_right (a := 2) (by omega) hb
    rw [allBits]
    omega
  rw [State.ctrlWith, bitOf_or, bitOf_and, bitOf_allBits_sub_of_le hle hj, bitOf_two_pow, bitOf_bitAt]
  by_cases h : j = bit
  · simp [h]
  · simp [h, Ne.symm h]

/-- The node at `t` after a write that wakes a page and leaves `x` in a register of it. -/
def State.pageWritten (s : State) (t page off x : Nat) : State :=
  { s.at t with regs := s.regs.set (regKey page off 0) x, pwr := { s.pwr with stopped := s.pwr.stopped.erase page } }

section
variable {s : State} (hl : s.live = true) (t : Nat) {page : Nat} {e : Block × Nat} (he : blockAt page = some e) (val : Word)
include hl he

theorem exec_quiesceWrite (hp : 10 ≤ page) :
    exec (.quiesceWrite t 0 page val) s = .next (s.pageWritten t page 0x010 (s.ctrlWith page 1 (bitOf val.toNat 1))).settle := by
  show execQuiesceWrite t 0 page val s = _
  rw [execQuiesceWrite, hl, switchable, he, decide_eq_true hp]
  rfl

theorem exec_enableWrite (hp : 10 ≤ page) :
    exec (.enableWrite t 0 page val) s = .next (enableWrite page (bitOf val.toNat 0) ((s.at t).wake page)).settle := by
  show execEnableWrite t 0 page val s = _
  rw [execEnableWrite, hl, switchable, he, decide_eq_true hp]
  rfl

theorem exec_blockResetWrite (hv : bitOf val.toNat 2 = true) :
    exec (.blockResetWrite t 0 page val) s =
      .next (if [pgFlt, pgCbd, pgSec, pgPrm].contains page then s.at t else ((s.at t).wake page).startReset page).settle := by
  show execBlockResetWrite t 0 page val s = _
  rw [execBlockResetWrite, hl, hv, he]
  cases [pgFlt, pgCbd, pgSec, pgPrm].contains page <;> rfl

theorem exec_blkLockWrite (hv : bitOf val.toNat 0 = true) :
    exec (.blkLockWrite t 0 page val) s = .next (s.pageWritten t page 0x038 1).settle := by
  show execBlkLockWrite t 0 page val s = _
  rw [execBlkLockWrite, hl, hv, he]
  rfl

theorem exec_irqEnWrite : exec (.irqEnWrite t 0 page val) s = .next (irqEnWrite page val.toNat ((s.at t).wake page)).settle := by
  show execIrqEnWrite t 0 page val s = _
  rw [execIrqEnWrite, hl, he]
  rfl

end

theorem exec_quiesceWrite_control {page : Nat} (hp : page < 10) (s : State) (t : Nat) (val : Word) :
    exec (.quiesceWrite t 0 page val) s = .next (s.at t).settle := by
  show execQuiesceWrite t 0 page val s = _
  rw [execQuiesceWrite, switchable, decide_eq_false (by omega), Bool.false_and, Bool.and_false, State.onlyIf_false, done_eq]

theorem exec_enableWrite_control {page : Nat} (hp : page < 10) (s : State) (t : Nat) (val : Word) :
    exec (.enableWrite t 0 page val) s = .next (s.at t).settle := by
  show execEnableWrite t 0 page val s = _
  rw [execEnableWrite, switchable, decide_eq_false (by omega), Bool.false_and, Bool.and_false, State.onlyIf_false, done_eq]

theorem State.startReset_wake (s : State) (t page : Nat) : ((s.at t).wake page).startReset page =
    { s.at t with
        pwr := { s.pwr with stopped := s.pwr.stopped.erase page },
        flt := if s.flt.resets.has page then s.flt else { s.flt with resets := s.flt.resets.set page (max s.now t) } } := by
  unfold State.startReset
  have hhas : ((s.at t).wake page).flt.resets.has page = s.flt.resets.has page := rfl
  rw [hhas]
  split <;> rfl

/-! ### IRQ_EN -/

/-- The definition of IRQ_EN in the common header. -/
def irqEnDef (b : Block) : RegDef := { off := 0x01C, reset := 1, rw := irqBits b }

theorem regDef_irqEn (b : Block) : regDef b 0x01C = some (irqEnDef b) := rfl

/-- The events that a write of IRQ_EN raises are operations of the Call Board. -/
theorem cbdStep_irqEnWrite (s : State) (page val : Nat) : (s.writeFields page 0x01C val).CbdStep (irqEnWrite page val s) := by
  unfold irqEnWrite
  exact (State.CbdStep.foldl (fun s i => s.cbdStep_levelSourceAssert (page * 8 + i)) _ _).after (State.cbdStep_cbd _ _ rfl rfl)

theorem regKey_irqEn_ne (page : Nat) : regKey page 0x01C 0 ≠ regKey pgCbd 0x044 0 := by
  rw [regKey, regKey]
  omega

theorem irqBits_le (b : Block) : irqBits b ≤ allBits := by cases b <;> decide

theorem irqEnWrite_sets {s : State} (hl : s.live = true) (t : Nat) {page : Nat} {e : Block × Nat} (he : blockAt page = some e) (val : Word) :
    ∃ v : State, exec (.irqEnWrite t 0 page val) s = .next v.settle ∧
      (∀ j < 8, bitOf (irqBits e.1) j = true → bitOf (v.reg page 0x01C) j = bitOf val.toNat j) ∧
      v.host = s.host ∧ v.win = s.win ∧ v.flt = s.flt ∧ v.qmg = s.qmg := by
  let u := (s.at t).wake page
  have hwrite := u.writeFields_one (v := val.toNat) he (regDef_irqEn e.1) rfl rfl
  have hstep := cbdStep_irqEnWrite u page val.toNat
  rw [hwrite] at hstep
  refine ⟨_, exec_irqEnWrite hl t he val, fun j hj hbit => ?_, hstep.host, hstep.win, hstep.flt, hstep.qmg⟩
  rw [hstep.reg (regKey_irqEn_ne page), State.reg_setReg_self, State.writtenReg, RegDef.bitOf_written rfl (irqBits_le e.1) (Nat.zero_le _)
    _ _ (word_le_allBits val) (by omega)]
  have hrw : bitOf (irqEnDef e.1).rw j = true := hbit
  have hw1c : bitOf (irqEnDef e.1).w1c j = false := by simp [irqEnDef, bitOf_eq_testBit]
  simp [hrw, hw1c]

/-- Settles O7: each write leaves one register of its page, whose bits `bitOf_ctrlWith` and the access codes give. -/
theorem controlAndEnableWrites : Obligations.ControlAndEnableWrites := by
  refine ⟨fun s t page val e hl he => ?_, fun s t page val e hl he => irqEnWrite_sets hl t he val⟩
  have hbit : ∀ {bit}, bit < 32 → ∀ on, bitOf (s.ctrlWith page bit on) bit = on ∧
      ∀ j < 32, j ≠ bit → bitOf (s.ctrlWith page bit on) j = bitOf (s.reg page 0x010) j := fun hb on =>
    ⟨by rw [s.bitOf_ctrlWith page on hb hb, if_pos rfl], fun j hj hne => by rw [s.bitOf_ctrlWith page on hb hj, if_neg hne]⟩
  refine ⟨fun hp => ⟨_, exec_quiesceWrite hl t he val hp, hbit (by omega) _⟩, fun hp hv => ?_, fun hp hv hm hq => ?_, fun hp hv hno => ?_,
    fun hp => ⟨exec_quiesceWrite_control hp s t val, exec_enableWrite_control hp s t val⟩, fun hv hmem => ?_, fun hv hmem => ?_,
    fun hv => exec_blkLockWrite hl t he val hv⟩
  · refine ⟨s.ctrlWith page 0 true, ?_, hbit (by omega) _⟩
    rw [exec_enableWrite hl t he val hp, hv]
    rfl
  · refine ⟨s.ctrlWith page 0 false, ?_, hbit (by omega) _⟩
    have hq' : ((s.at t).wake page).quiesced page = true := hq
    have hm' : ((s.at t).wake page).cal.maintenance = true := hm
    rw [exec_enableWrite hl t he val hp, hv, enableWrite, hq', hm']
    rfl
  · have hoff : (((s.at t).wake page).quiesced page && ((s.at t).wake page).cal.maintenance) = false := by
      show (s.quiesced page && s.cal.maintenance) = false
      rcases hno with h | h <;> simp [h]
    rw [exec_enableWrite hl t he val hp, hv, enableWrite, hoff]
    rfl
  · rw [exec_blockResetWrite hl t he val hv, if_neg (by simpa using hmem), State.startReset_wake]
  · rw [exec_blockResetWrite hl t he val hv, if_pos (by simpa using hmem)]

end Sys2Proof.Machine
end

section
/-!
The fault block: messages taken, latches cleared, the end of the fault state, and the Prompters' supervision (20 R632 to R651).
-/

namespace Sys2Proof.Machine

/-! ### Conditional steps -/

@[simp] theorem State.when_true (s : State) (f : State → State) : s.when true f = f s := rfl
@[simp] theorem State.when_false (s : State) (f : State → State) : s.when false f = s := rfl

/-- What an update keeps, it keeps when it is made conditional. -/
theorem State.when_keeps {α : Type} (g : State → α) {s : State} (c : Bool) {f : State → State} (h : g (f s) = g s) :
    g (s.when c f) = g s := by
  cases c
  · rfl
  · exact h

/-! ### FLT takes a message (R632 to R643) -/

/-- What the reactions after the record leave alone: the counts and latches, the messages that wait, and both memories. -/
structure State.ReactFrame (s u : State) : Prop where
  inbox : u.flt.inbox = s.flt.inbox
  kindCnt : u.flt.kindCnt = s.flt.kindCnt
  latches : u.flt.latches = s.flt.latches
  glob : u.flt.glob = s.flt.glob
  host : u.host = s.host
  win : u.win = s.win

namespace State.ReactFrame

theorem refl (s : State) : s.ReactFrame s := ⟨rfl, rfl, rfl, rfl, rfl, rfl⟩

theorem trans {s u v : State} (h : s.ReactFrame u) (h' : u.ReactFrame v) : s.ReactFrame v :=
  ⟨h'.inbox.trans h.inbox, h'.kindCnt.trans h.kindCnt, h'.latches.trans h.latches, h'.glob.trans h.glob, h'.host.trans h.host,
    h'.win.trans h.win⟩

theorem of_flt {s u : State} (hf : u.flt = s.flt) (hh : u.host = s.host) (hw : u.win = s.win) : s.ReactFrame u :=
  ⟨by rw [hf], by rw [hf], by rw [hf], by rw [hf], hh, hw⟩

theorem when {s : State} (c : Bool) {f : State → State} (h : s.ReactFrame (f s)) : s.ReactFrame (s.when c f) := by
  cases c
  · exact refl s
  · exact h

end State.ReactFrame

theorem State.trapLowest_keeps (s : State) :
    s.trapLowest.flt = s.flt ∧ s.trapLowest.host = s.host ∧ s.trapLowest.win = s.win := by
  unfold State.trapLowest
  split <;> exact ⟨rfl, rfl, rfl⟩

theorem State.resetFor_keeps (s : State) (m : FaultMsg) :
    s.ReactFrame (s.resetFor m) ∧ (s.resetFor m).flt.faulted = s.flt.faulted := by
  unfold State.resetFor
  split
  · exact ⟨.refl s, rfl⟩
  split
  · unfold State.resetPrompter
    split
    · exact ⟨.refl s, rfl⟩
    · exact ⟨.of_flt rfl rfl rfl, rfl⟩
  · unfold State.startReset
    split
    · exact ⟨.refl s, rfl⟩
    · exact ⟨⟨rfl, rfl, rfl, rfl, rfl, rfl⟩, rfl⟩

theorem State.cbdStep_chipMessage (s : State) (page : Nat) : s.CbdStep (s.chipMessage page) := by
  unfold State.chipMessage
  dsimp only
  split
  · exact (State.cbdStep_levelSourceAssert _ _).after (s.cbdStep_setVec _ _)
  · exact .refl s

theorem State.chipReset_keeps (s : State) (m : FaultMsg) :
    s.ReactFrame (s.chipReset m) ∧ (s.chipReset m).flt.faulted = s.flt.faulted := by
  have hmsg := s.cbdStep_chipMessage m.page
  have hframe : s.ReactFrame (s.chipMessage m.page) := .of_flt hmsg.flt hmsg.host hmsg.win
  have hfaulted : (s.chipMessage m.page).flt.faulted = s.flt.faulted := by rw [hmsg.flt]
  unfold State.chipReset
  split
  · dsimp only
    split
    · exact ⟨hframe, hfaulted⟩
    · exact ⟨hframe.trans ⟨rfl, rfl, rfl, rfl, rfl, rfl⟩, hfaulted⟩
  · split
    · exact ⟨.refl s, rfl⟩
    · exact ⟨.of_flt rfl rfl rfl, rfl⟩
  · exact ⟨.refl s, rfl⟩

/-- The reactions that follow the record of a message. -/
theorem State.takeFault_reacts (s : State) (m : FaultMsg) : (s.recordFault m (bitOf (s.reaction m) 0)).ReactFrame (s.takeFault m) ∧
    (s.takeFault m).flt.faulted = (bitOf (s.reaction m) 4 || s.flt.faulted) := by
  unfold State.takeFault
  extract_lets r reset
  let s0 := s.recordFault m (bitOf r 0)
  let s1 := s0.when (bitOf r 1) (·.trapLowest)
  let s2 := s1.when (bitOf r 2) (·.resetFor m)
  let s3 := s2.when (bitOf r 4) (·.stopAlive)
  have h1 : s0.ReactFrame s1 := .when _ (.of_flt s0.trapLowest_keeps.1 s0.trapLowest_keeps.2.1 s0.trapLowest_keeps.2.2)
  have h2 : s1.ReactFrame s2 := .when _ (s1.resetFor_keeps m).1
  have h3 : s2.ReactFrame s3 := .when _ ⟨rfl, rfl, rfl, rfl, rfl, rfl⟩
  have h4 : s3.ReactFrame (s3.when reset (·.chipReset m)) := .when _ (s3.chipReset_keeps m).1
  refine ⟨((h1.trans h2).trans h3).trans h4, ?_⟩
  have f1 : s1.flt.faulted = s.flt.faulted := State.when_keeps (·.flt.faulted) (s := s0) _ (by simp only [s0.trapLowest_keeps.1])
  have f2 : s2.flt.faulted = s.flt.faulted := (State.when_keeps (·.flt.faulted) (s := s1) _ (s1.resetFor_keeps m).2).trans f1
  have f3 : s3.flt.faulted = (bitOf r 4 || s.flt.faulted) := by
    show (s2.when (bitOf r 4) (·.stopAlive)).flt.faulted = _
    cases bitOf r 4
    · exact f2
    · rfl
  exact (State.when_keeps (·.flt.faulted) (s := s3) _ (s3.chipReset_keeps m).2).trans f3

theorem faultMessage_takes {s : State} (t : Nat) (w0 w1 w2 w3 : Word) {m : FaultMsg} {rest : List FaultMsg} (ha : s.awake = true)
    (hin : s.flt.inbox = m :: rest) : ∃ v : State, exec (.faultMessage t w0 w1 w2 w3) s = .next v.settle ∧ v.flt.inbox = rest ∧
      v.flt.kindCnt.getD m.kind 0 = min 0xFFFFFFFF (s.flt.kindCnt.getD m.kind 0 + 1) ∧
      (v.latchAt m.page).count = min 0xFFFF ((s.latchAt m.page).count + 1) ∧
      (v.latchAt m.page).msg = (if bitOf (s.reaction m) 0 = true ∧ (s.latchAt m.page).msg.w0 = 0 then m else (s.latchAt m.page).msg) ∧
      v.flt.glob.msg = (if s.flt.glob.msg.w0 = 0 then m else s.flt.glob.msg) ∧
      (bitOf (s.reaction m) 4 = true → v.flt.faulted = true) ∧
      (bitOf (s.reaction m) 4 = false → v.flt.faulted = s.flt.faulted) ∧ v.host = s.host ∧ v.win = s.win := by
  let u := (s.at t).withFlt fun f => { f with inbox := rest }
  have hexec : exec (.faultMessage t w0 w1 w2 w3) s = .next (u.takeFault m).settle := by
    show execFaultMessage t w0 w1 w2 w3 s = _
    have hin' : (s.at t).flt.inbox = m :: rest := hin
    rw [execFaultMessage, ha, State.onlyIf_true, faultMessage, hin', done_eq]
  obtain ⟨hframe, hfaulted⟩ := u.takeFault_reacts m
  have hreact : u.reaction m = s.reaction m := rfl
  refine ⟨_, hexec, hframe.inbox, ?_, ?_, ?_, ?_, fun h => ?_, fun h => ?_, hframe.host, hframe.win⟩
  · rw [hframe.kindCnt]
    exact Table.getD_set_self _ _ _ _
  · rw [State.latchAt, hframe.latches]
    exact congrArg Latch.count (Table.getD_set_self _ _ _ _)
  · rw [State.latchAt, hframe.latches]
    refine (congrArg Latch.msg (Table.getD_set_self _ _ _ _)).trans ?_
    simp [Latch.note, hreact]
    rfl
  · rw [hframe.glob]
    simp [State.recordFault, State.withFlt, Latch.note, u]
  · rw [hfaulted, hreact, h, Bool.true_or]
  · rw [hfaulted, hreact, h, Bool.false_or]
    rfl

/-! ### Clearing and injecting (R635, R651, R656) -/

section
variable {s : State} (hl : s.live = true) (t : Nat) {val : Word}
include hl

theorem State.awake_of_live : s.awake = true := by
  have hrun : s.cal.phase = .running := by simpa [State.live] using hl
  simp [State.awake, hrun]

theorem exec_fltCntClear (hv : bitOf val.toNat 30 = true) (page : Nat) : exec (.fltCntClear t 0 page val) s =
    .next (State.settle { s.at t with flt := { s.flt with latches := s.flt.latches.erase page } }) := by
  show execFltCntClear t 0 page val s = _
  rw [execFltCntClear, hl, hv]
  rfl

theorem exec_fltGcntClear (hv : bitOf val.toNat 30 = true) :
    exec (.fltGcntClear t 0 val) s = .next (State.settle { s.at t with flt := { s.flt with glob := {} } }) := by
  show execFltGcntClear t 0 val s = _
  rw [execFltGcntClear, hl, hv]
  rfl

/-- The message that the injection registers hold, marked as injected. -/
def State.injected (s : State) : FaultMsg :=
  { w0 := s.reg pgFlt 0x090 ||| 0x08000000, w1 := s.reg pgFlt 0x094, w2 := s.reg pgFlt 0x098, w3 := s.reg pgFlt 0x09C }

theorem exec_fltInjGo (hf : s.dom.ftm = true) (hk : s.injected.known = true) (hp : s.injected.present = true) :
    exec (.fltInjGo t 0 1) s =
      .next (((s.at t).withFlt fun f => { f with inbox := f.inbox ++ [s.injected] }).sticky pgFlt 0x044 8).settle := by
  have hsends : ((s.at t).injected.known && (s.at t).injected.present) = true := by
    rw [show (s.at t).injected = s.injected from rfl, hk, hp, Bool.and_self]
  show execFltInjGo t 0 1 s = _
  rw [execFltInjGo, State.awake_of_live hl, hf]
  exact congrArg done (if_pos hsends)

end

section
variable (s : State) (t : Nat) {val : Word}

theorem exec_fltCntClear_not (hv : bitOf val.toNat 30 = false) (page : Nat) :
    exec (.fltCntClear t 0 page val) s = .next (s.at t).settle := by
  show execFltCntClear t 0 page val s = _
  rw [execFltCntClear, hv, Bool.and_false, State.onlyIf_false, done_eq]

theorem exec_fltGcntClear_not (hv : bitOf val.toNat 30 = false) : exec (.fltGcntClear t 0 val) s = .next (s.at t).settle := by
  show execFltGcntClear t 0 val s = _
  rw [execFltGcntClear, hv, Bool.and_false, State.onlyIf_false, done_eq]

theorem exec_fltInjGo_not (hf : s.dom.ftm = false) (val : Word) : exec (.fltInjGo t 0 val) s = .next (s.at t).settle := by
  show execFltInjGo t 0 val s = _
  rw [execFltInjGo, hf, Bool.and_false, State.onlyIf_false, done_eq]

end

/-- Settles O11: the record comes first, and no reaction that follows it touches a latch, a count or a memory. -/
theorem faultMessages : Obligations.FaultMessages := by
  refine ⟨fun s t w0 w1 w2 w3 m rest ha hin => faultMessage_takes t w0 w1 w2 w3 ha hin, fun s t page val hl =>
    ⟨fun hv => exec_fltCntClear hl t hv page, fun hv => exec_fltGcntClear hl t hv,
      fun hv => ⟨exec_fltCntClear_not s t hv page, exec_fltGcntClear_not s t hv⟩, fun hf => ?_,
      fun hf => exec_fltInjGo_not s t hf val⟩⟩
  intro m hk hp
  exact ⟨_, exec_fltInjGo hl t hf hk hp, rfl, State.bitOf_reg_sticky _ _ _ (by decide : (8).testBit 3 = true), rfl, rfl⟩

/-! ### The end of the fault state (R642 to R645) -/

section
variable {s : State} (hl : s.live = true) (t : Nat)
include hl

theorem exec_drydownEnd {d : Nat} (he : bitOf (s.reg pgFlt 0x040) 0 = true) (hd : s.flt.dryFrom = some d) (hf : s.flt.faulted = true)
    (hs : s.flt.stuck = false) (hdue : d + s.reg pgFlt 0x05C * 1000 ≤ (s.at t).tapeTime) :
    exec (.drydownEnd t) s = .next (s.at t).endDrydown.settle := by
  have hdry : (s.at t).dryTime = true := by
    have hd' : (s.at t).flt.dryFrom = some d := hd
    rw [State.dryTime, hd', State.at_flt, hf, hs]
    exact decide_eq_true hdue
  show execDrydownEnd t s = _
  rw [execDrydownEnd, hl, he, hdry]
  rfl

theorem exec_fltRelease (hf : s.flt.faulted = true) : exec (.fltRelease t 0 1) s = .next (State.settle { s.at t with flt := { s.flt with
      faulted := false, stuck := false, dryFrom := none, lastToggle := max s.now t } }) := by
  show execFltRelease t 0 1 s = _
  rw [execFltRelease, hl, hf]
  rfl

theorem exec_aliveToggle (hf : s.flt.faulted = false) (hc : s.flt.chipReset = none) (hdue : s.flt.lastToggle + 500000 ≤ max s.now t) :
    exec (.aliveToggle t) s = .next (State.settle { s.at t with
        flt := { s.flt with alive := !s.flt.alive, lastToggle := max s.now t }, outbox := .pin "ALIVE_OUT" (!s.flt.alive) :: s.outbox }) := by
  have hdue' : decide (s.flt.lastToggle + 500 * us ≤ (s.at t).now) = true := decide_eq_true hdue
  show execAliveToggle t s = _
  rw [execAliveToggle, hl, hf, hc, hdue']
  rfl

theorem exec_drydownEnableSet {val : Word} (hv : bitOf val.toNat 0 = true) (hd : s.flt.dryFrom = none) :
    exec (.drydownEnableSet t 0 val) s = .next ((s.at t).setReg pgFlt 0x040
      (s.writtenReg pgFlt 0x040 val.toNat { off := 0x040, reset := 1, rw := 1 })).settle := by
  have hdry : (s.at t).dryTime = false := by
    have hd' : (s.at t).flt.dryFrom = none := hd
    rw [State.dryTime, hd']
  show execDrydownEnableSet t 0 val s = _
  rw [execDrydownEnableSet, hl, hv]
  show done (((s.at t).writeFields pgFlt 0x040 val.toNat).when (s.at t).dryTime (·.endDrydown)) = _
  rw [hdry, State.when_false, (s.at t).writeFields_one (b := .flt) (i := 0) (d := { off := 0x040, reset := 1, rw := 1 }) rfl rfl rfl rfl]
  rfl

end

theorem exec_fltRelease_not {s : State} (hf : s.flt.faulted = false) (t : Nat) (val : Word) :
    exec (.fltRelease t 0 val) s = .next (s.at t).settle := by
  show execFltRelease t 0 val s = _
  rw [execFltRelease, hf, Bool.and_false, State.onlyIf_false, done_eq]

theorem exec_aliveToggle_faulted {s : State} (hf : s.flt.faulted = true) (t : Nat) :
    exec (.aliveToggle t) s = .next (s.at t).settle := by
  show execAliveToggle t s = _
  rw [execAliveToggle, hf, Bool.not_true, Bool.and_false, Bool.false_and, Bool.false_and, State.onlyIf_false, done_eq]

theorem State.endDrydown_recovers {s : State} (h : s.recentRecoveries < s.reg pgFlt 0x064) : s.endDrydown =
    s.withFlt fun f => { f with faulted := false, dryFrom := none, recovered := s.tapeTime :: f.recovered,
                                recoverCnt := min 0xFFFF (f.recoverCnt + 1), lastToggle := s.now } := by
  rw [State.endDrydown, if_pos h]

theorem State.endDrydown_sticks {s : State} (h : s.reg pgFlt 0x064 ≤ s.recentRecoveries) : s.endDrydown =
    (s.withFlt fun f => { f with stuck := true, dryFrom := none }).sendFault pgFlt .recoveryLimit := by
  rw [State.endDrydown, if_neg (Nat.not_lt.mpr h)]

/-- The sender of a message, of a block whose page is not the node as a whole. -/
theorem faultMsg_sender (s : State) {page i : Nat} {b : Block} (h : blockAt page = some (b, i)) (k : Kind) (detail addr : Nat) :
    (faultMsg s page k detail addr false).block = b.code ∧ (faultMsg s page k detail addr false).inst = i := by
  obtain ⟨hcode, hinst⟩ := blockAt_lt h
  have hw0 : (faultMsg s page k detail addr false).w0 =
      boolNat s.tapeLost * 2 ^ 28 + k.spec.2 * 2 ^ 24 + k.spec.1 * 2 ^ 16 + i * 2 ^ 8 + b.code := by
    simp only [faultMsg, h]
    rfl
  rw [FaultMsg.block, FaultMsg.inst, hw0, bitsOf]
  omega

/-- Settles O12: `endDrydown` has the two endings, and the other clauses are single steps. -/
theorem drydownRecoversOrSticks : Obligations.DrydownRecoversOrSticks := by
  intro s t d hl
  refine ⟨fun he hd hf hs hdue => ⟨fun hlt => ?_, fun hle => ?_⟩, exec_fltRelease hl t, fun hf val => exec_fltRelease_not hf t val,
    exec_aliveToggle hl t, fun hf => exec_aliveToggle_faulted hf t, fun val hv hd => ⟨_, exec_drydownEnableSet hl t hv hd, ?_, rfl, rfl, rfl⟩⟩
  · rw [exec_drydownEnd hl t he hd hf hs hdue, State.endDrydown_recovers hlt]
    rfl
  · refine ⟨faultMsg ((s.at t).withFlt fun f => { f with stuck := true, dryFrom := none }) pgFlt .recoveryLimit 0 0 false, ?_, faultMsg_kind .., faultMsg_severity .., (faultMsg_sender (b := .flt) (i := 0) _ rfl _ _ _).1⟩
    rw [exec_drydownEnd hl t he hd hf hs hdue, State.endDrydown_sticks hle]
    rfl
  · rw [State.reg_setReg_self, State.writtenReg, RegDef.bitOf_written rfl (by decide) (by decide) _ _ (word_le_allBits val) (by omega)]
    simp [show bitOf 1 0 = true by decide, bitOf_eq_testBit 0, hv]

/-! ### Supervision of the Prompters (R646, R647) -/

/-- The message of one Prompter. -/
def State.prompterMsg (s : State) (k : Kind) (p detail : Nat) : FaultMsg :=
  { faultMsg s pgPrm k detail 0 false with w0 := (faultMsg s pgPrm k detail 0 false).w0 + p * 256 }

theorem State.prompterMsg_fields (s : State) (k : Kind) {p : Nat} (hp : p < 8) (detail : Nat) :
    (s.prompterMsg k p detail).kind = k.spec.1 ∧ (s.prompterMsg k p detail).severity = k.spec.2 ∧ (s.prompterMsg k p detail).inst = p := by
  obtain ⟨hkind, hsev⟩ := k.spec_lt
  have hw0 : (s.prompterMsg k p detail).w0 =
      boolNat s.tapeLost * 2 ^ 28 + k.spec.2 * 2 ^ 24 + k.spec.1 * 2 ^ 16 + 0 * 2 ^ 8 + 3 + p * 256 := rfl
  rw [FaultMsg.kind, FaultMsg.severity, FaultMsg.inst, hw0, bitsOf, bitsOf, bitsOf]
  omega

section
variable {s : State} (hl : s.live = true) (t : Nat) {p : Nat} (hp : p < 8)
include hl hp

theorem exec_prompterHeartbeat (hr : (s.prompter p).running = true) : exec (.prompterHeartbeat t p) s = .next (State.settle { s.at t with
      prm := s.prm.set p { s.prompter p with beat := max s.now t, trapped := false } }) := by
  show execPrompterHeartbeat t p s = _
  rw [execPrompterHeartbeat, hl, hr, decide_eq_true hp]
  rfl

theorem exec_prompterHang (hr : (s.prompter p).running = true) (hdue : (s.prompter p).beat + s.reg pgFlt 0x070 * 1000 ≤ max s.now t) :
    exec (.prompterHang t p) s = .next (prompterHang p (s.at t)).settle := by
  have hdue' : decide ((s.prompter p).beat + s.reg pgFlt 0x070 * us ≤ (s.at t).now) = true := decide_eq_true hdue
  show execPrompterHang t p s = _
  rw [execPrompterHang, hl, hr, decide_eq_true hp, hdue']
  rfl

theorem exec_prompterResetRelease (hh : (s.prompter p).heldFrom.isSome = true) : exec (.prompterResetRelease t p) s =
    .next (State.settle { s.at t with
      prm := s.prm.set p { s.prompter p with running := true, heldFrom := none, beat := max s.now t } }) := by
  show execPrompterResetRelease t p s = _
  rw [execPrompterResetRelease, hl, hh, decide_eq_true hp]
  rfl

theorem exec_controlDecision_bad {code target kind : Nat} (hr : (s.prompter p).running = true) (hb : s.decisionBad kind target = true) :
    exec (.controlDecision t p code target kind) s =
      .next ((((s.at t).bump pgPrm 0x04C).prompterFault .controlMismatch p code).trap p).settle := by
  have hb' : (s.at t).decisionBad kind target = true := hb
  show execControlDecision t p code target kind s = _
  rw [execControlDecision, hl, hr, decide_eq_true hp, Bool.and_self, Bool.and_self, State.onlyIf_true, controlDecision, hb']
  rfl

end

theorem exec_controlDecision_good {s : State} {kind target : Nat} (hb : s.decisionBad kind target = false) (t p code : Nat) :
    exec (.controlDecision t p code target kind) s = .next (s.at t).settle := by
  have hb' : (s.at t).decisionBad kind target = false := hb
  have hnone : controlDecision p code target kind (s.at t) = s.at t := if_neg (by rw [hb']; decide)
  show execControlDecision t p code target kind s = _
  rw [execControlDecision, State.onlyIf, hnone, ite_self, done_eq]

/-- Settles O13: each clause is one step, and both faults are a `prompterMsg`. -/
theorem prompterSupervision : Obligations.PrompterSupervision := by
  intro s t p hl hp
  refine ⟨exec_prompterHeartbeat hl t hp, fun hr hdue => ?_, exec_prompterResetRelease hl t hp, fun code target kind hr hb => ?_,
    fun code target kind hb => exec_controlDecision_good hb t p code⟩
  · obtain ⟨hkind, hsev, hinst⟩ := State.prompterMsg_fields
      (((s.at t).setPrompter p { s.prompter p with missed := true, beat := max s.now t }).bump pgPrm 0x048) .prompterHang hp 0
    exact ⟨_, _, exec_prompterHang hl t hp hr hdue, rfl, hkind, hsev, hinst, rfl, State.count_bump_self _ _ _ 1, rfl, rfl⟩
  · obtain ⟨hkind, -, hinst⟩ := State.prompterMsg_fields ((s.at t).bump pgPrm 0x04C) .controlMismatch hp code
    exact ⟨_, _, exec_controlDecision_bad hl t hp hr hb, rfl, hkind, hinst, rfl, rfl, State.count_bump_self _ _ _ 1, rfl, rfl⟩

end Sys2Proof.Machine
end

section
/-!
Laws of byte strings and of the node's writes, and the completion that stands in its ring slot (15 R491, R506 to R510).
-/

namespace Sys2Proof.Machine

/-! ### Byte strings -/

theorem leNat_natLE (n v : Nat) : leNat (natLE n v) = v % 256 ^ n := by
  induction n generalizing v with
  | zero => simp [leNat, natLE, Nat.mod_one]
  | succ n ih =>
    have hpow : 256 ^ (n + 1) = 256 * 256 ^ n := by rw [Nat.pow_succ, Nat.mul_comm]
    rw [natLE, leNat, ih, BitVec.toNat_ofNat, hpow, Nat.mod_mul]

@[simp] theorem length_natLE (n v : Nat) : (natLE n v).length = n := by
  induction n generalizing v with
  | zero => rfl
  | succ n ih => rw [natLE, List.length_cons, ih]

theorem leNat_lt (bs : List Byte) : leNat bs < 256 ^ bs.length := by
  induction bs with
  | nil => simp [leNat]
  | cons b bs ih =>
    have hb : b.toNat < 256 := b.isLt
    rw [leNat, List.length_cons, Nat.pow_succ]
    omega

theorem fieldAt_lt (bs : List Byte) (off n : Nat) : fieldAt bs off n < 256 ^ n :=
  Nat.lt_of_lt_of_le (leNat_lt _) (Nat.pow_le_pow_right (by omega) (by rw [bytesAt, List.length_take]; omega))

/-- A field that lies in the second part of a byte string. -/
theorem fieldAt_append_right {as : List Byte} {off : Nat} (h : as.length ≤ off) (bs : List Byte) (n : Nat) :
    fieldAt (as ++ bs) off n = fieldAt bs (off - as.length) n := by
  rw [fieldAt, fieldAt, bytesAt, bytesAt, List.drop_append, List.drop_eq_nil_of_le h, List.nil_append]

/-- The field that `natLE` lays down at the front. -/
theorem fieldAt_natLE_append (n v : Nat) (bs : List Byte) : fieldAt (natLE n v ++ bs) 0 n = v % 256 ^ n := by
  rw [fieldAt, bytesAt, List.drop_zero, List.take_append_of_le_length (by simp), List.take_of_length_le (by simp), leNat_natLE]

/-! ### Reads after writes -/

theorem State.writeByte_linkUp (s : State) (v : View) (a : Nat) (b : Byte) : linkUp (s.writeByte v a b) = linkUp s := by
  unfold State.writeByte
  split
  · rfl
  split <;> rfl

theorem View.inWin_le {v : View} {a : Nat} (h : v.inWin a = true) : v.base ≤ a := by
  simp only [View.inWin, Bool.and_eq_true, decide_eq_true_eq] at h
  exact h.1

section
variable {s : State} (hu : linkUp s = true) (v : View)
include hu

/-- Over a link that is up a byte reads as it was written. -/
theorem State.readByte_writeByte_self (a : Nat) (b : Byte) : (s.writeByte v a b).readByte v a = b := by
  rw [State.readByte, s.writeByte_linkUp, hu, State.writeByte, hu]
  cases v.inWin a <;> simp

/-- A write of a byte leaves every other. -/
theorem State.readByte_writeByte_ne {a x : Nat} (b : Byte) (h : x ≠ a) : (s.writeByte v a b).readByte v x = s.readByte v x := by
  rw [State.readByte, s.writeByte_linkUp, hu, State.writeByte, hu, State.readByte, hu]
  cases hx : v.inWin x with
  | false =>
    cases v.inWin a
    · simp [Memory.read_write_ne b h]
    · rfl
  | true =>
    cases ha : v.inWin a
    · rfl
    · have hne : x - v.base ≠ a - v.base := by
        have := View.inWin_le hx
        have := View.inWin_le ha
        omega
      simp [Memory.read_write_ne b hne]

theorem State.readByte_writeBytesGo_outside {a x : Nat} (bs : List Byte) (h : x < a ∨ a + bs.length ≤ x) :
    (s.writeBytesGo v a bs).readByte v x = s.readByte v x := by
  induction bs generalizing s a with
  | nil => rfl
  | cons b bs ih =>
    rw [List.length_cons] at h
    exact (ih ((s.writeByte_linkUp v a b).trans hu) (by omega)).trans (s.readByte_writeByte_ne hu v b (by omega))

theorem State.readByte_writeBytesGo_inside (a : Nat) {bs : List Byte} {i : Nat} (h : i < bs.length) :
    (s.writeBytesGo v a bs).readByte v (a + i) = bs[i] := by
  induction bs generalizing s a i with
  | nil => simp at h
  | cons b bs ih =>
    have hu' := (s.writeByte_linkUp v a b).trans hu
    cases i with
    | zero => exact (State.readByte_writeBytesGo_outside hu' v bs (.inl (by omega))).trans (s.readByte_writeByte_self hu v a b)
    | succ j =>
      have hj : j < bs.length := by simpa using h
      have := ih hu' (a + 1) hj
      rwa [Nat.add_assoc, Nat.add_comm 1 j] at this

/-- Over a link that is up a write of several bytes loses none. -/
theorem State.writeBytes_up (a : Nat) (bs : List Byte) : s.writeBytes v a bs = s.writeBytesGo v a bs := by
  rw [State.writeBytes, hu]
  rfl

theorem State.readByte_writeBytes_outside {a x : Nat} (bs : List Byte) (h : x < a ∨ a + bs.length ≤ x) :
    (s.writeBytes v a bs).readByte v x = s.readByte v x := by
  rw [State.writeBytes_up hu, State.readByte_writeBytesGo_outside hu v bs h]

theorem State.readBytes_writeBytes (a : Nat) (bs : List Byte) : (s.writeBytes v a bs).readBytes v a bs.length = bs := by
  rw [State.writeBytes_up hu]
  refine List.ext_getElem (by simp [State.readBytes]) fun i _ h => ?_
  simp only [State.readBytes, List.getElem_map, List.getElem_range]
  exact State.readByte_writeBytesGo_inside hu v a h

end

/-- Bytes are read from the two memories, and over a link that is down from the free values. -/
theorem State.readByte_congr {s u : State} (hh : u.host = s.host) (hw : u.win = s.win) (hc : u.cxl = s.cxl) (hf : u.freeCtr = s.freeCtr) (v : View) (a : Nat) :
    u.readByte v a = s.readByte v a := by
  rw [State.readByte, State.readByte, linkUp, linkUp, hh, hw, hc, hf]

/-- A write reaches the memories and the count of writes lost alone. -/
theorem State.writeByte_eq (s : State) (v : View) (a : Nat) (b : Byte) :
    s.writeByte v a b = { s with host := (s.writeByte v a b).host, win := (s.writeByte v a b).win } := by
  unfold State.writeByte
  split
  · rfl
  split <;> rfl

theorem State.writeBytesGo_eq (s : State) (v : View) (a : Nat) (bs : List Byte) :
    s.writeBytesGo v a bs = { s with host := (s.writeBytesGo v a bs).host, win := (s.writeBytesGo v a bs).win } := by
  induction bs generalizing s a with
  | nil => rfl
  | cons b bs ih =>
    have h := ih (s.writeByte v a b) (a + 1)
    rw [State.writeBytesGo, h, s.writeByte_eq]

theorem State.writeBytes_eq (s : State) (v : View) (a : Nat) (bs : List Byte) : s.writeBytes v a bs =
    { s with host := (s.writeBytes v a bs).host, win := (s.writeBytes v a bs).win, counts := (s.writeBytes v a bs).counts } := by
  unfold State.writeBytes
  dsimp only
  rw [s.writeBytesGo_eq v a bs]
  split <;> rfl

theorem State.writeBytes_qmg (s : State) (v : View) (a : Nat) (bs : List Byte) : (s.writeBytes v a bs).qmg = s.qmg := by
  rw [s.writeBytes_eq]

/-! ### The fields of a completion -/

section
variable (c : Comp) {tag : Nat} (sqHead watermark : Nat) (late phase : Bool) (hc : c.search = false)

/-- The 32 bytes of a completion in the general form, field by field (R506). -/
theorem Comp.bytes_general (hc : c.search = false) : c.bytes tag sqHead watermark late phase =
    natLE 4 tag ++ (natLE 2 c.status.code ++ (natLE 2 sqHead ++ (natLE 4 c.count ++ (natLE 4 c.detail ++ (natLE 8 watermark ++
      (natLE 8 (c.sillage / 64 * 64 + (c.insertOutcome.getD 0) % 4 * 16 + boolNat c.insertOutcome.isSome * 8 + boolNat late * 4 +
        boolNat c.alarm * 2 + boolNat phase) ++ [])))))) := by
  rw [Comp.bytes, hc]
  simp only [Bool.false_eq_true, if_false, List.append_assoc, List.append_nil]

theorem Comp.bytes_length (hc : c.search = false) : (c.bytes tag sqHead watermark late phase).length = 32 := by
  rw [Comp.bytes_general c sqHead watermark late phase hc]
  simp

/-- What each field of a completion in the general form reads. -/
theorem Comp.bytes_fields (hc : c.search = false) (ht : tag < 2 ^ 32) (hn : c.count < 2 ^ 32) (hd : c.detail < 2 ^ 32)
    (hw : watermark < 2 ^ 64) :
    let bs := c.bytes tag sqHead watermark late phase
    fieldAt bs 0 4 = tag ∧ fieldAt bs 4 2 = c.status.code ∧ fieldAt bs 8 4 = c.count ∧ fieldAt bs 12 4 = c.detail ∧
      fieldAt bs 16 8 = watermark ∧ bitOf (fieldAt bs 24 8) 0 = phase := by
  intro bs
  have hst : c.status.code < 256 ^ 2 := by cases c.status <;> decide
  have hbs : bs = _ := Comp.bytes_general c sqHead watermark late phase hc
  have hmod : ∀ {v}, v < 2 ^ 32 → v % 256 ^ 4 = v := fun h => Nat.mod_eq_of_lt h
  rw [hbs]
  refine ⟨?_, ?_, ?_, ?_, ?_, ?_⟩
  · rw [fieldAt_natLE_append, hmod ht]
  · rw [fieldAt_append_right (by simp), length_natLE, fieldAt_natLE_append, Nat.mod_eq_of_lt hst]
  · iterate 3 rw [fieldAt_append_right (by simp), length_natLE]
    rw [fieldAt_natLE_append, hmod hn]
  · iterate 4 rw [fieldAt_append_right (by simp), length_natLE]
    rw [fieldAt_natLE_append, hmod hd]
  · iterate 5 rw [fieldAt_append_right (by simp), length_natLE]
    rw [fieldAt_natLE_append, Nat.mod_eq_of_lt (by simpa using hw)]
  · iterate 6 rw [fieldAt_append_right (by simp), length_natLE]
    rw [fieldAt_natLE_append, show (256 : Nat) ^ 8 = 2 * 2 ^ 63 by rfl]
    have hodd : ∀ x, bitOf ((2 * x + boolNat phase) % (2 * 2 ^ 63)) 0 = phase := fun x => by
      cases phase <;> simp [bitOf, boolNat]
    refine Eq.trans ?_ (hodd (c.sillage / 64 * 32 + c.insertOutcome.getD 0 % 4 * 8 + boolNat c.insertOutcome.isSome * 4 +
      boolNat late * 2 + boolNat c.alarm))
    congr 2
    omega

end

/-! ### A command of a queue completes (R491, R510) -/

/-- The queue once a command that held it has completed. -/
def Queue.released (v : Queue) (cid : Nat) : Queue := if v.holdBy = some cid then { v with holdBy := none } else v

/-- The queue after one completion more in its ring. -/
def Queue.posted (v : Queue) : Queue :=
  { v with cqTail := (v.cqTail + 1) % 2 ^ v.cqLog2, phase := if (v.cqTail + 1) % 2 ^ v.cqLog2 = 0 then !v.phase else v.phase }

theorem Queue.released_fields (v : Queue) (cid : Nat) : (v.released cid).cqBase = v.cqBase ∧ (v.released cid).cqTail = v.cqTail ∧
    (v.released cid).cqLog2 = v.cqLog2 ∧ (v.released cid).phase = v.phase ∧ (v.released cid).cqHead = v.cqHead ∧
    (v.released cid).sqHead = v.sqHead ∧ (v.released cid).flrDrop = v.flrDrop := by
  unfold Queue.released
  split <;> exact ⟨rfl, rfl, rfl, rfl, rfl, rfl, rfl⟩

/-- The node once a command is outstanding no longer. -/
def State.letGo (s : State) (cid : Nat) : State := { s with qmg := { s.qmg with cmds := s.qmg.cmds.erase cid } }

/-- A completion that is neither ABORTED nor FENCED goes to its queue. -/
theorem State.post_queue {s : State} {cid q : Nat} {k : Cmd} {v : Queue} (hk : s.cmd? cid = some k) (ho : k.origin = .queue q)
    (hq : s.queue? q = some v) {c : Comp} (ha : c.status ≠ .aborted) (hf : c.status ≠ .fenced) (rest : List Byte) :
    s.post cid c rest = (s.letGo cid).postQueue q (v.released cid) c (cmdTag k.raw) (c.watermark.getD s.wlk.watermark) k.late k.warm.isNone := by
  have hq' : (s.letGo cid).queue? q = some v := hq
  rw [State.post, hk]
  simp only [if_neg ha, if_neg hf, ho]
  exact (congrArg (fun o : Option Queue => match o with
    | none => s.letGo cid
    | some v => (s.letGo cid).postQueue q (v.released cid) c (cmdTag k.raw) (c.watermark.getD s.wlk.watermark) k.late k.warm.isNone) hq')

/-- Over a link that is up the completion is written to the tail slot, the ring moves on, and an event may follow. -/
theorem State.postQueue_up {s : State} (hu : linkUp s = true) {v : Queue} (hd : v.flrDrop = false) (q : Nat) (c : Comp) (tag wm : Nat)
    (late event : Bool) :
    ((s.writeBytes s.view (v.cqBase + 32 * v.cqTail) (c.bytes tag v.sqHead wm late v.phase)).setQueue q v.posted).CbdStep
      (s.postQueue q v c tag wm late event) := by
  let w := s.writeBytes s.view (v.cqBase + 32 * v.cqTail) (c.bytes tag v.sqHead wm late v.phase)
  have hw : linkUp w = true := by
    show linkUp (s.writeBytes _ _ _) = true
    rw [s.writeBytes_eq]
    exact hu
  have hpost : s.postQueue q v c tag wm late event =
      if (!linkUp w && !(w.view.inWin (v.cqBase + 32 * v.cqTail))) || !event then w.setQueue q v.posted
      else (w.setQueue q v.posted).vecEvent v.fn v.vector := by
    rw [State.postQueue, if_neg (by simp [hd])]
    rfl
  rw [hpost]
  split
  · exact .refl _
  · exact State.cbdStep_vecEvent _ _ _

theorem Status.carries_ne {st : Status} (h : st.carries = true) : st ≠ .aborted ∧ st ≠ .fenced := by
  cases st <;> simp_all [Status.carries]

/-- The state just before the event of a completion of a queue. -/
theorem State.finish_queue {s : State} {cid q : Nat} {k : Cmd} {v : Queue} {st : Status} (hk : s.cmd? cid = some k)
    (ho : k.origin = .queue q) (hq : s.queue? q = some v) (hd : v.flrDrop = false) (hu : linkUp s = true) (hc : st.carries = true) (n d : Nat) :
    ((s.letGo cid).writeBytes s.view (v.cqBase + 32 * v.cqTail)
      (Comp.bytes { status := st, count := n, detail := d } (cmdTag k.raw) v.sqHead s.wlk.watermark k.late v.phase)
      |>.setQueue q (v.released cid).posted).CbdStep (s.finish cid st n d) := by
  obtain ⟨hna, hnf⟩ := Status.carries_ne hc
  obtain ⟨hbase, htail, -, hphase, -, hhead, hdrop⟩ := v.released_fields cid
  have h := State.postQueue_up (s := s.letGo cid) (v := v.released cid) hu (hdrop.trans hd) q
    { status := st, count := n, detail := d } (cmdTag k.raw) s.wlk.watermark k.late k.warm.isNone
  rw [hbase, htail, hphase, hhead] at h
  rw [State.finish, hc, if_pos rfl, State.post_queue hk ho hq hna hnf]
  exact h

theorem State.readBytes_congr {s u : State} {v : View} {a n : Nat} (h : ∀ x, u.readByte v x = s.readByte v x) :
    u.readBytes v a n = s.readBytes v a n := List.map_congr_left fun _ _ => h _

theorem State.finish_without_results {st : Status} (hc : st.carries = false) (s : State) (cid n d : Nat) :
    s.finish cid st n d = s.finish cid st 0 d := by
  rw [State.finish, State.finish, hc]
  rfl

/-- Settles O15: `finish_queue` gives the state before the event, and the event reaches neither memory nor queue. -/
theorem completions : Obligations.Completions := by
  refine ⟨fun s cid q n d k v st hk ho hq hd hu hc hn hdet hwm => ?_, fun s cid n d st hc => State.finish_without_results hc s cid n d⟩
  intro slot u
  have hstep := State.finish_queue hk ho hq hd hu hc n d
  let c : Comp := { status := st, count := n, detail := d }
  let bs := c.bytes (cmdTag k.raw) v.sqHead s.wlk.watermark k.late v.phase
  let w := (s.letGo cid).writeBytes s.view slot bs
  have hstep : (w.setQueue q (v.released cid).posted).CbdStep u := hstep
  have hqmg : u.qmg = { (s.letGo cid).qmg with queues := s.qmg.queues.set q (v.released cid).posted } := by
    refine hstep.qmg.trans ?_
    show ({ w.qmg with queues := w.qmg.queues.set q (v.released cid).posted } : QmgBlock) = _
    rw [show w.qmg = (s.letGo cid).qmg from State.writeBytes_qmg _ _ _ _]
    rfl
  have hread : ∀ x, u.readByte s.view x = w.readByte s.view x := fun x =>
    State.readByte_congr hstep.host hstep.win hstep.cxl (by rw [hstep.rest]) s.view x
  have hlen : bs.length = 32 := c.bytes_length v.sqHead s.wlk.watermark k.late v.phase rfl
  have hbytes : u.readBytes s.view slot 32 = bs := by
    rw [State.readBytes_congr hread, ← hlen]
    exact State.readBytes_writeBytes (s := s.letGo cid) hu s.view slot bs
  have htag : cmdTag k.raw < 2 ^ 32 := fieldAt_lt k.raw 4 4
  obtain ⟨f0, f4, f8, f12, f16, f24⟩ := c.bytes_fields v.sqHead s.wlk.watermark k.late v.phase rfl htag hn hdet hwm
  obtain ⟨-, htail, hlog, hphase, hhead, hsq, -⟩ := v.released_fields cid
  rw [hbytes]
  refine ⟨?_, fun j hj => ?_, ?_, f0, f4, f8, f12, f16, f24, fun a ha => ?_⟩
  · rw [State.cmd?, hqmg]
    exact Table.find?_erase_self _ _
  · rw [State.cmd?, hqmg]
    exact Table.find?_erase_ne _ hj
  · rw [State.queue?, hqmg, Table.find?_set_self]
    simp only [Queue.posted, Option.map_some, htail, hlog, hphase, hhead, hsq]
  · rw [hread, show w = (s.letGo cid).writeBytes s.view slot bs from rfl,
      State.readByte_writeBytes_outside (s := s.letGo cid) hu s.view bs (by omega)]
    rfl

end Sys2Proof.Machine
end

section
/-!
Power and thermal samples, clocks, supplies, references, and the management and debug ports (24 R732 to R744; 16 R538).
-/

namespace Sys2Proof.Machine

/-! ### Registers after a write of another -/

theorem State.reg_setReg_ne (s : State) {page off p o : Nat} (v : Nat) (h : regKey p o 0 ≠ regKey page off 0) :
    (s.setReg page off v).reg p o = s.reg p o := Table.getD_set_ne s.regs v _ h

theorem State.bitOf_reg_sticky_ne (s : State) (page off : Nat) {bits i : Nat} (h : bits.testBit i = false) :
    bitOf ((s.sticky page off bits).reg page off) i = bitOf (s.reg page off) i := by
  simp [State.sticky, bitOf_eq_testBit, h]

/-! ### Throttling (R740) -/

/-- What ends or begins throttling leaves all but the throttled mark and PWR_STAT, whose bit 2 it keeps. -/
structure State.ThrottleStep (s u : State) : Prop where
  rest : u = { s with pwr := { s.pwr with throttled := u.pwr.throttled }, regs := u.regs }
  regs : ∀ off, regKey pgPwr off 0 ≠ regKey pgPwr 0x044 0 → u.reg pgPwr off = s.reg pgPwr off
  stat : bitOf (u.reg pgPwr 0x044) 2 = bitOf (s.reg pgPwr 0x044) 2

theorem State.throttleStep_mark (s : State) (b : Bool) : s.ThrottleStep (s.withPwr fun p => { p with throttled := b }) :=
  ⟨rfl, fun _ _ => rfl, rfl⟩

theorem State.throttleStep_end (s : State) : s.ThrottleStep s.throttleEnd := by
  unfold State.throttleEnd
  dsimp only
  exact iteInduction (motive := s.ThrottleStep) (fun _ => s.throttleStep_mark false) fun _ => ⟨rfl, fun _ _ => rfl, rfl⟩

theorem State.throttleStep_check (s : State) : s.ThrottleStep s.throttleCheck := by
  unfold State.throttleCheck
  dsimp only
  split
  · exact s.throttleStep_mark false
  split
  · exact ⟨rfl, fun _ _ => rfl, rfl⟩
  · exact ⟨rfl, fun off ho => State.reg_setReg_ne _ _ ho, State.bitOf_reg_sticky_ne _ _ _ (by decide)⟩

theorem State.ThrottleStep.trans {s u v : State} (h : s.ThrottleStep u) (h' : u.ThrottleStep v) : s.ThrottleStep v where
  rest := by rw [h'.rest, h.rest]
  regs off ho := (h'.regs off ho).trans (h.regs off ho)
  stat := h'.stat.trans h.stat

/-- After every sample the node ends throttling and checks whether it begins (R740). -/
def State.throttled (s : State) : State := s.throttleEnd.throttleCheck

theorem State.throttleStep_throttled (s : State) : s.ThrottleStep s.throttled := s.throttleStep_end.trans (State.throttleStep_check _)

section
variable {s : State}

theorem State.throttleCheck_over (he : bitOf (s.reg pgPwr 0x040) 2 = true) (hw : s.reg pgPwr 0x048 < s.pwr.nowW) :
    s.throttleCheck.pwr.throttled = true := by
  unfold State.throttleCheck
  dsimp only
  rw [he, decide_eq_false (Nat.not_le.mpr hw)]
  cases ht : s.pwr.throttled
  · rfl
  · exact ht

theorem State.throttleCheck_off (he : bitOf (s.reg pgPwr 0x040) 2 = false) : s.throttleCheck.pwr.throttled = false := by
  rw [State.throttleCheck, he]
  rfl

theorem State.throttled_over (he : bitOf (s.reg pgPwr 0x040) 2 = true) (hw : s.reg pgPwr 0x048 < s.pwr.nowW) :
    s.throttled.pwr.throttled = true := by
  have h := s.throttleStep_end
  refine State.throttleCheck_over ((congrArg (bitOf · 2) (h.regs _ (by decide))).trans he) ?_
  rw [h.regs _ (by decide), show s.throttleEnd.pwr.nowW = s.pwr.nowW by rw [h.rest]]
  exact hw

theorem State.throttled_off (he : bitOf (s.reg pgPwr 0x040) 2 = false) : s.throttled.pwr.throttled = false :=
  State.throttleCheck_off ((congrArg (bitOf · 2) (s.throttleStep_end.regs _ (by decide))).trans he)

end

/-! ### Power samples -/

theorem State.onlyIf_of {s : State} {c : Bool} (h : c = true) (f : State → State) : s.onlyIf c f = f s := by rw [h]; rfl

/-- The state of a power sample before throttling is looked at. -/
def State.sampled (s : State) (watts : Nat) (mv amps : List Nat) : State :=
  ((s.bump64 pgPwr 0x080 watts).when s.pwr.throttled (·.bump pgPwr 0x078)).withPwr fun p =>
    { p with nowW := watts, peakW := max p.peakW watts, mv := mv, amps := amps,
             coolFrom := if decide (100 * watts ≤ 95 * s.reg pgPwr 0x048) then some (p.coolFrom.getD (s.now - ms)) else none }

theorem powerSample_eq (watts : Nat) (mv amps : List Nat) (s : State) : powerSample watts mv amps s = (s.sampled watts mv amps).throttled := by
  cases h : s.pwr.throttled <;> simp only [powerSample, State.sampled, h] <;> rfl

theorem State.sampled_fields (s : State) (watts : Nat) (mv amps : List Nat) :
    (s.sampled watts mv amps).count pgPwr 0x080 = (s.count pgPwr 0x080 + watts) % 2 ^ 64 ∧ (s.sampled watts mv amps).regs = s.regs ∧
    (s.sampled watts mv amps).pwr.peakW = max s.pwr.peakW watts ∧ (s.sampled watts mv amps).host = s.host ∧
    (s.sampled watts mv amps).win = s.win := by
  have hself : (s.bump64 pgPwr 0x080 watts).count pgPwr 0x080 = (s.count pgPwr 0x080 + watts) % 2 ^ 64 := Table.getD_set_self _ _ _ _
  unfold State.sampled
  cases s.pwr.throttled
  · exact ⟨hself, rfl, rfl, rfl, rfl⟩
  · exact ⟨(Table.getD_set_ne _ _ _ (by decide)).trans hself, rfl, rfl, rfl, rfl⟩

/-! ### Thermal samples -/

/-- One sensor more in the search for the hottest. -/
def warmest (m : Nat × Int) (e : Int × Nat) : Nat × Int := if m.2 < e.1 then (e.2, e.1) else m

theorem warmest_le (m : Nat × Int) (e : Int × Nat) : m.2 ≤ (warmest m e).2 ∧ e.1 ≤ (warmest m e).2 ∧ ((warmest m e).2 = m.2 ∨ (warmest m e).2 = e.1) := by
  unfold warmest
  split
  · exact ⟨by omega, Int.le_refl _, .inr rfl⟩
  · exact ⟨Int.le_refl _, by omega, .inl rfl⟩

theorem foldl_warmest (l : List (Int × Nat)) (m : Nat × Int) : m.2 ≤ (l.foldl warmest m).2 ∧ (∀ e ∈ l, e.1 ≤ (l.foldl warmest m).2) ∧
    ((l.foldl warmest m).2 = m.2 ∨ ∃ e ∈ l, (l.foldl warmest m).2 = e.1) := by
  induction l generalizing m with
  | nil => exact ⟨Int.le_refl _, by simp, .inl rfl⟩
  | cons e l ih =>
    obtain ⟨hm, he, hor⟩ := warmest_le m e
    obtain ⟨ihm, ihl, ihor⟩ := ih (warmest m e)
    refine ⟨Int.le_trans hm ihm, List.forall_mem_cons.mpr ⟨Int.le_trans he ihm, ihl⟩, ?_⟩
    rcases ihor with h | ⟨x, hx, h⟩
    · rcases hor with h' | h'
      · exact .inl (h.trans h')
      · exact .inr ⟨e, .head _, h.trans h'⟩
    · exact .inr ⟨x, .tail _ hx, h⟩

theorem hottest_ge {temps : List Int} {x : Int} (h : x ∈ temps) : x ≤ (hottest temps).2 := by
  rw [← List.zipIdx_map_fst 0 temps] at h
  obtain ⟨e, he, rfl⟩ := List.mem_map.mp h
  exact (foldl_warmest temps.zipIdx (0, temps.headD 0)).2.1 e he

theorem hottest_mem {temps : List Int} (h : temps ≠ []) : (hottest temps).2 ∈ temps := by
  rcases (foldl_warmest temps.zipIdx (0, temps.headD 0)).2.2 with h' | ⟨e, he, h'⟩
  · cases temps with
    | nil => exact absurd rfl h
    | cons a l => exact List.mem_of_mem_head? (congrArg some h'.symm)
  · show (hottest temps).2 ∈ temps
    rw [show (hottest temps).2 = e.1 from h']
    exact List.fst_mem_of_mem_zipIdx he

/-- The temperatures are noted. -/
def State.heated (s : State) (temps : List Int) : State :=
  s.withPwr fun p => { p with temps := temps, overTrip := decide ((s.reg pgPwr 0x058 : Int) ≤ (hottest temps).2) }

/-- ThermalHigh is set, counted and sent, or cleared (R742). -/
def State.highStep (s : State) (hot : Nat × Int) : State :=
  if !s.pwr.thermalHigh && decide ((s.reg pgPwr 0x054 : Int) ≤ hot.2) then
    let s := ((s.withPwr fun p => { p with thermalHigh := true }).sticky pgPwr 0x044 4).bump pgPwr 0x07C
    s.when (bitOf (s.reg pgPwr 0x040) 0) (·.sendFault pgPwr .thermalHigh hot.1)
  else if hot.2 ≤ (s.reg pgPwr 0x054 : Int) - 3 then s.withPwr fun p => { p with thermalHigh := false }
  else s

/-- ThermalTrip is sent as a sensor comes to the limit, and a start that waited for the node to cool may go on (R743). -/
def State.tripStep (s : State) (was : Bool) (trip : Int) (hot : Nat × Int) : State :=
  (s.when (!was && decide (trip ≤ hot.2)) (·.sendFault pgPwr .thermalTrip hot.1)).when (decide (hot.2 ≤ trip - 10)) fun s =>
    { s with cal := { s.cal with tripWait := false } }

theorem thermalSample_eq (temps : List Int) (s : State) : thermalSample temps s =
    (((s.heated temps).highStep (hottest temps)).tripStep s.pwr.overTrip (s.reg pgPwr 0x058) (hottest temps)).throttled := rfl

theorem State.highStep_sets {s : State} {hot : Nat × Int} (h0 : s.pwr.thermalHigh = false) (h : (s.reg pgPwr 0x054 : Int) ≤ hot.2) :
    (s.highStep hot).pwr.thermalHigh = true ∧ (s.highStep hot).count pgPwr 0x07C = min 0xFFFFFFFF (s.count pgPwr 0x07C + 1) ∧
    bitOf ((s.highStep hot).reg pgPwr 0x044) 2 = true := by
  let u := ((s.withPwr fun p => { p with thermalHigh := true }).sticky pgPwr 0x044 4).bump pgPwr 0x07C
  have hstep : s.highStep hot = u.when (bitOf (u.reg pgPwr 0x040) 0) (·.sendFault pgPwr .thermalHigh hot.1) := by
    rw [State.highStep, h0, decide_eq_true h]
    rfl
  have hbit : bitOf (u.reg pgPwr 0x044) 2 = true := State.bitOf_reg_sticky _ _ _ (by decide)
  rw [hstep]
  exact ⟨State.when_keeps (·.pwr.thermalHigh) _ rfl, (State.when_keeps (·.count pgPwr 0x07C) _ rfl).trans (State.count_bump_self _ _ _ _),
    (State.when_keeps (fun s => bitOf (s.reg pgPwr 0x044) 2) _ rfl).trans hbit⟩

theorem State.highStep_clears {s : State} {hot : Nat × Int} (h : hot.2 ≤ (s.reg pgPwr 0x054 : Int) - 3) :
    (s.highStep hot).pwr.thermalHigh = false := by
  rw [State.highStep, decide_eq_false (by omega), Bool.and_false, if_neg (by decide), if_pos h]
  rfl

theorem State.highStep_keeps (s : State) (hot : Nat × Int) : (s.highStep hot).pwr.temps = s.pwr.temps ∧
    (s.highStep hot).host = s.host ∧ (s.highStep hot).win = s.win := by
  unfold State.highStep
  split
  · exact ⟨State.when_keeps (·.pwr.temps) _ rfl, State.when_keeps State.host _ rfl, State.when_keeps State.win _ rfl⟩
  · split <;> exact ⟨rfl, rfl, rfl⟩

theorem State.tripStep_keeps (s : State) (was : Bool) (trip : Int) (hot : Nat × Int) : (s.tripStep was trip hot).pwr = s.pwr ∧
    (s.tripStep was trip hot).counts = s.counts ∧ (s.tripStep was trip hot).regs = s.regs ∧ (s.tripStep was trip hot).host = s.host ∧
    (s.tripStep was trip hot).win = s.win := by
  have h {α : Type} (g : State → α) (h1 : ∀ u : State, g (u.sendFault pgPwr .thermalTrip hot.1) = g u)
      (h2 : ∀ u : State, g { u with cal := { u.cal with tripWait := false } } = g u) : g (s.tripStep was trip hot) = g s :=
    (State.when_keeps g _ (h2 _)).trans (State.when_keeps g _ (h1 _))
  exact ⟨h _ (fun _ => rfl) fun _ => rfl, h _ (fun _ => rfl) fun _ => rfl, h _ (fun _ => rfl) fun _ => rfl, h _ (fun _ => rfl) fun _ => rfl,
    h _ (fun _ => rfl) fun _ => rfl⟩

theorem State.tripStep_sends (s : State) {trip : Int} {hot : Nat × Int} (h : trip ≤ hot.2) :
    ∃ m ∈ (s.tripStep false trip hot).flt.inbox, m.kind = 0x55 ∧ m.severity = 4 := by
  have hstep : (s.tripStep false trip hot).flt = (s.sendFault pgPwr .thermalTrip hot.1).flt := by
    rw [State.tripStep, decide_eq_true h]
    exact State.when_keeps State.flt _ rfl
  rw [hstep]
  exact ⟨_, List.mem_append_right _ (.head _), faultMsg_kind .., faultMsg_severity ..⟩

theorem powerSample_effects (s : State) (watts : Nat) (mv amps : List Nat) : let v := powerSample watts mv amps s
    v.pwr.nowW = watts ∧ v.pwr.peakW = max s.pwr.peakW watts ∧ v.pwr.mv = mv ∧ v.pwr.amps = amps ∧
    v.count pgPwr 0x080 = (s.count pgPwr 0x080 + watts) % 2 ^ 64 ∧
    (bitOf (s.reg pgPwr 0x040) 2 = true → s.reg pgPwr 0x048 < watts → v.pwr.throttled = true) ∧
    (bitOf (s.reg pgPwr 0x040) 2 = false → v.pwr.throttled = false) ∧ v.host = s.host ∧ v.win = s.win := by
  intro v
  obtain ⟨hcount, hregs, hpeak, hhost, hwin⟩ := s.sampled_fields watts mv amps
  have hreg (off : Nat) : (s.sampled watts mv amps).reg pgPwr off = s.reg pgPwr off := by
    rw [State.reg, State.regAt, hregs]
    rfl
  have h := (s.sampled watts mv amps).throttleStep_throttled
  rw [show v = _ from powerSample_eq watts mv amps s]
  refine ⟨by rw [h.rest]; rfl, by rw [h.rest]; exact hpeak, by rw [h.rest]; rfl, by rw [h.rest]; rfl, by rw [h.rest]; exact hcount,
    fun he hw => State.throttled_over (by rw [hreg]; exact he) (by rw [hreg]; exact hw),
    fun he => State.throttled_off (by rw [hreg]; exact he), by rw [h.rest]; exact hhost, by rw [h.rest]; exact hwin⟩

theorem thermalSample_effects (s : State) {temps : List Int} (hne : temps ≠ []) : let v := thermalSample temps s
    v.pwr.temps = temps ∧
    (s.pwr.thermalHigh = false → (∃ x ∈ temps, (s.reg pgPwr 0x054 : Int) ≤ x) → v.pwr.thermalHigh = true ∧
      v.count pgPwr 0x07C = min 0xFFFFFFFF (s.count pgPwr 0x07C + 1) ∧ bitOf (v.reg pgPwr 0x044) 2 = true) ∧
    ((∀ x ∈ temps, x ≤ (s.reg pgPwr 0x054 : Int) - 3) → v.pwr.thermalHigh = false) ∧
    (s.pwr.overTrip = false → (∃ x ∈ temps, (s.reg pgPwr 0x058 : Int) ≤ x) → ∃ m ∈ v.flt.inbox, m.kind = 0x55 ∧ m.severity = 4) ∧
    v.host = s.host ∧ v.win = s.win := by
  intro v
  let high := (s.heated temps).highStep (hottest temps)
  obtain ⟨ktemps, khost, kwin⟩ := (s.heated temps).highStep_keeps (hottest temps)
  obtain ⟨hpwr, hcounts, hregs, hhost, hwin⟩ := high.tripStep_keeps s.pwr.overTrip (s.reg pgPwr 0x058) (hottest temps)
  have h := (high.tripStep s.pwr.overTrip (s.reg pgPwr 0x058) (hottest temps)).throttleStep_throttled
  have hhot (x : Int) (hex : ∃ y ∈ temps, x ≤ y) : x ≤ (hottest temps).2 := by
    obtain ⟨y, hy, hxy⟩ := hex
    exact Int.le_trans hxy (hottest_ge hy)
  rw [show v = _ from thermalSample_eq temps s]
  refine ⟨by rw [h.rest, hpwr]; exact ktemps, fun h0 hex => ?_, fun hall => ?_, fun h0 hex => ?_, by rw [h.rest]; exact hhost.trans khost,
    by rw [h.rest]; exact hwin.trans kwin⟩
  · obtain ⟨hset, hcnt, hbit⟩ := State.highStep_sets (s := s.heated temps) h0 (hhot _ hex)
    refine ⟨by rw [h.rest, hpwr]; exact hset, ?_, h.stat.trans ?_⟩
    · rw [h.rest]
      exact (congrArg (Table.getD · (pgPwr * 4096 + 0x07C) 0) hcounts).trans hcnt
    · rw [State.reg, State.regAt, hregs]
      exact hbit
  · rw [h.rest, hpwr]
    exact State.highStep_clears (hall _ (hottest_mem hne))
  · rw [h.rest, h0]
    exact State.tripStep_sends _ (hhot _ hex)

/-- Settles O16: each sample is its own part, and then the node ends throttling and looks whether it begins. -/
theorem powerAndTemperature : Obligations.PowerAndTemperature := by
  intro s t ha
  refine ⟨fun watts mv amps => ⟨powerSample watts mv amps (s.at t), congrArg done (State.onlyIf_of ha _), powerSample_effects _ _ _ _⟩,
    fun temps hlen => ⟨thermalSample temps (s.at t), congrArg done (State.onlyIf_of (by rw [ha, hlen]; rfl) _), ?_⟩⟩
  have hne : temps ≠ [] := by
    rintro rfl
    simp at hlen
  exact thermalSample_effects (s.at t) hne

end Sys2Proof.Machine
end

section
/-!
Clocks, supplies and references; the management and debug ports (24 R732, R735 to R739, R744; 16 R538).
-/

namespace Sys2Proof.Machine

/-! ### The CXL link falls (14 R462) -/

/-- The block of a link that has fallen. -/
def CxlBlock.fallen (b : CxlBlock) (now : Nat) : CxlBlock :=
  { b with width := 0, rate := 0, mode := 0, ideIo := false, ideMem := false, idePendIo := false, idePendMem := false, lastTrain := now }

theorem State.linkFall_up {s : State} (h : linkUp s = true) (notice : Bool) : s.linkFall notice =
    ((s.withCxl (·.fallen s.now)).bump pgCxl 0x070).when (notice && bitOf (s.reg pgCxl 0x040) 0) (·.sendFault pgCxl .linkDown) := by
  rw [State.linkFall, h]
  rfl

/-- A link that falls changes the CXL block, the counters and the messages that wait, and nothing else. -/
theorem State.linkFall_eq (s : State) (notice : Bool) :
    s.linkFall notice = { s with cxl := (s.linkFall notice).cxl, counts := (s.linkFall notice).counts, flt := (s.linkFall notice).flt } := by
  cases h : linkUp s with
  | false =>
    rw [State.linkFall, h]
    rfl
  | true =>
    rw [State.linkFall_up h]
    generalize (notice && bitOf (s.reg pgCxl 0x040) 0) = c
    cases c <;> rfl

/-! ### The node held in reset (22 R678) -/

theorem State.when_emit (s : State) (c : Bool) (o : Out) : s.when c (·.emit o) = { s with outbox := (s.when c (·.emit o)).outbox } := by
  cases c <;> rfl

theorem State.aliveLow_eq (s : State) : s.aliveLow = { s with flt := { s.flt with alive := false }, outbox := s.aliveLow.outbox } :=
  State.when_emit _ _ _

/-- A node held in reset: what changed, and what stands. -/
theorem State.enterReset_eq (s : State) (power : Bool) : ∃ o x n f r, s.enterReset power =
    { s with outbox := o, cxl := x, counts := n, flt := f, cal := { s.cal with phase := .held, tripWait := false, ranCold := r } } := by
  unfold State.enterReset
  rw [s.when_emit]
  generalize (s.when _ _).outbox = o
  dsimp only
  rw [State.linkFall_eq]
  cases power
  · exact ⟨_, _, _, _, _, rfl⟩
  · rw [State.when_true, State.aliveLow_eq]
    exact ⟨_, _, _, _, _, rfl⟩

/-- A start begun: what changed, and what stands. -/
theorem State.beginCold_eq (s : State) (cause : Nat) : ∃ o f, s.beginCold cause = { s with outbox := o, flt := f, cal := { s.cal with
    phase := .starting true, cause := cause, startFrom := s.now, ranCold := false, tripWait := false } } := by
  rw [State.beginCold, State.aliveLow_eq]
  exact ⟨_, _, rfl⟩

/-- What a list of marks holds once one is set. -/
theorem mem_marked (l : List Nat) (x : Nat) : x ∈ (if l.contains x then l else x :: l) := by
  split
  case isTrue h => simpa using h
  case isFalse => exact .head _

section
variable {s : State} (t : Nat)

theorem exec_thermalHardTrip {sensor : Nat} (hs : sensor < 72) (hp : s.cal.porLow = false) (hph : s.cal.phase ≠ .tripped) :
    exec (.thermalHardTrip t sensor) s = .next (thermalHardTrip (s.at t)).settle :=
  congrArg done (State.onlyIf_of (by rw [decide_eq_true hs, hp, bne_iff_ne.mpr hph]; rfl) _)

/-- The node enters reset when its clock or a supply is lost, whatever the mark of the loss. -/
theorem enterReset_marked (s : State) (f : PwrBlock → PwrBlock) (hph : s.cal.phase ≠ .tripped) :
    let v := (fun u : State => if u.cal.phase = .tripped then u else u.enterReset true) (s.withPwr f)
    v.cal.phase = .held ∧ v.pwr = f s.pwr ∧ v.host = s.host ∧ v.win = s.win := by
  intro v
  obtain ⟨o, x, n, fl, r, h⟩ := (s.withPwr f).enterReset_eq true
  have hv : v = _ := (if_neg hph).trans h
  rw [hv]
  exact ⟨rfl, rfl, rfl, rfl⟩

/-- A cold start begins once nothing holds the node. -/
theorem coldAgain_marked (s : State) (f : PwrBlock → PwrBlock) (hph : s.cal.phase ≠ .tripped) (hh : (s.withPwr f).heldReset = false) :
    let v := (s.withPwr f).coldAgain
    v.cal.phase = .starting true ∧ v.cal.cause = 0 ∧ v.pwr = f s.pwr ∧ v.host = s.host ∧ v.win = s.win := by
  intro v
  obtain ⟨o, fl, h⟩ := (s.withPwr f).beginCold_eq 0
  have hph' : (s.withPwr f).cal.phase ≠ .tripped := hph
  have hv : v = _ := (if_neg (by rw [hh]; simpa using hph')).trans h
  rw [hv]
  exact ⟨rfl, rfl, rfl, rfl, rfl⟩

end

/-- A hard trip, losses and returns of clocks and supplies (R735, R738, R744). -/
theorem resetsOfClocksAndSupplies (s : State) (t : Nat) :
    (∀ sensor, sensor < 72 → s.cal.porLow = false → s.cal.phase ≠ .tripped → ∃ v : State,
      exec (.thermalHardTrip t sensor) s = .next v.settle ∧ v.cal.phase = .tripped ∧ v.outbox.head? = some (.pin "THERM_TRIP_L" false) ∧
      v.host = s.host ∧ v.win = s.win) ∧
    (s.pwr.sysClkLost = false → s.cal.phase ≠ .tripped → ∃ v : State, exec (.sysClkLoss t) s = .next v.settle ∧ v.cal.phase = .held ∧
      v.pwr.sysClkLost = true ∧ v.host = s.host ∧ v.win = s.win) ∧
    (s.pwr.sysClkLost = true → s.cal.phase ≠ .tripped → s.cal.porLow = false → s.cal.sysLow = false → s.pwr.railsLow = [] →
      ∃ v : State, exec (.sysClkReturn t) s = .next v.settle ∧ v.cal.phase = .starting true ∧ v.cal.cause = 0 ∧
        v.pwr.sysClkLost = false ∧ v.host = s.host ∧ v.win = s.win) ∧
    (∀ rail, rail < 6 → s.cal.porLow = false → s.cal.phase ≠ .tripped → ∃ v : State, exec (.supplyFail t rail) s = .next v.settle ∧
      v.cal.phase = .held ∧ rail ∈ v.pwr.railsLow ∧ v.host = s.host ∧ v.win = s.win) ∧
    (∀ rail, s.pwr.railsLow = [rail] → s.cal.phase ≠ .tripped → s.cal.porLow = false → s.cal.sysLow = false → s.pwr.sysClkLost = false →
      ∃ v : State, exec (.supplyReturn t rail) s = .next v.settle ∧ v.cal.phase = .starting true ∧ v.cal.cause = 0 ∧
        v.pwr.railsLow = [] ∧ v.host = s.host ∧ v.win = s.win) := by
  refine ⟨fun sensor hs hp hph => ?_, fun hc hph => ?_, fun hc hph hp hsl hr => ?_, fun rail hr hp hph => ?_, fun rail hr hph hp hsl hc => ?_⟩
  · obtain ⟨o, x, n, f, r, h⟩ := (s.at t).enterReset_eq true
    refine ⟨_, exec_thermalHardTrip t hs hp hph, rfl, rfl, (congrArg State.host h :), (congrArg State.win h :)⟩
  · obtain ⟨hheld, hpwr, hhost, hwin⟩ := enterReset_marked (s.at t) (fun p => { p with sysClkLost := true }) hph
    exact ⟨_, congrArg done (State.onlyIf_of (by rw [hc]; rfl) _), hheld, congrArg PwrBlock.sysClkLost hpwr, hhost, hwin⟩
  · obtain ⟨hph', hcause, hpwr, hhost, hwin⟩ := coldAgain_marked (s.at t) (fun p => { p with sysClkLost := false }) hph
      (by simp [State.heldReset, State.withPwr, hp, hsl, hr])
    exact ⟨_, congrArg done (State.onlyIf_of hc _), hph', hcause, congrArg PwrBlock.sysClkLost hpwr, hhost, hwin⟩
  · obtain ⟨hheld, hpwr, hhost, hwin⟩ := enterReset_marked (s.at t)
      (fun p => { p with railsLow := if p.railsLow.contains rail then p.railsLow else rail :: p.railsLow }) hph
    refine ⟨_, congrArg done (State.onlyIf_of (by rw [decide_eq_true hr, hp]; rfl) _), hheld, ?_, hhost, hwin⟩
    exact (congrArg (rail ∈ ·.railsLow) hpwr).mpr (mem_marked _ _)
  · obtain ⟨hph', hcause, hpwr, hhost, hwin⟩ := coldAgain_marked (s.at t) (fun p => { p with railsLow := p.railsLow.erase rail }) hph
      (by simp [State.heldReset, State.withPwr, hp, hsl, hr, hc])
    exact ⟨_, congrArg done (State.onlyIf_of (by rw [hr]; simp) _), hph', hcause, (congrArg PwrBlock.railsLow hpwr).trans (by simp [hr]), hhost, hwin⟩

/-! ### References and clocks (R735, R739) -/

/-- A port goes down with its fault. -/
def State.portDown (s : State) (p : Nat) : State := (s.portFall p).portFault p

theorem State.port_setPort_ne (s : State) {p q : Nat} (v : FabPort) (h : q ≠ p) : (s.setPort p v).port q = s.port q := by
  simp [State.port, State.setPort, List.getD_eq_getElem?_getD, List.getElem?_set_ne (Ne.symm h)]

theorem State.port_setPort_self {s : State} {p : Nat} (h : p < s.fab.ports.length) (v : FabPort) : (s.setPort p v).port p = v := by
  simp [State.port, State.setPort, h]

/-- A port set down reads down: one that the node does not have reads as a port that is down. -/
theorem State.up_setPort (s : State) (p : Nat) {v : FabPort} (h : v.up = false) : ((s.setPort p v).port p).up = false := by
  by_cases hp : p < s.fab.ports.length
  · rw [State.port_setPort_self hp, h]
  · simp [State.port, State.setPort, hp]

theorem State.portDown_fields (s : State) (p : Nat) : ((s.portDown p).port p).up = false ∧
    (∀ q, q ≠ p → (s.portDown p).port q = s.port q) ∧ (s.portDown p).cxl = s.cxl ∧ (s.portDown p).pwr = s.pwr ∧
    (s.portDown p).host = s.host ∧ (s.portDown p).win = s.win := by
  have hfall : ((s.portFall p).port p).up = false := s.up_setPort p (v := (s.port p).fallen s.now) rfl
  have hother (q : Nat) (hq : q ≠ p) : (s.portFall p).port q = s.port q := s.port_setPort_ne _ hq
  unfold State.portDown State.portFault
  split
  · exact ⟨State.up_setPort _ _ hfall, fun q hq => (State.port_setPort_ne _ _ hq).trans (hother q hq), rfl, rfl, rfl, rfl⟩
  · exact ⟨hfall, hother, rfl, rfl, rfl, rfl⟩

/-- The loss of a fabric reference takes its two ports down. -/
theorem referenceLoss_fabric (s : State) (hl : s.live = true) {ref : Nat} (href : ref = 1 ∨ ref = 2) :
    let v := referenceLoss ref s
    v.cxl = s.cxl ∧ ref ∈ v.pwr.refsLost ∧ (∀ p, p / 2 + 1 = ref → (v.port p).up = false) ∧
    (∀ p, p / 2 + 1 ≠ ref → v.port p = s.port p) ∧ v.host = s.host ∧ v.win = s.win := by
  intro v
  let u := s.withPwr fun p => { p with refsLost := if p.refsLost.contains ref then p.refsLost else ref :: p.refsLost }
  have hv : v = (u.portDown (2 * ref - 2)).portDown (2 * ref - 1) := by
    have hlu : u.live = true := hl
    show (if !u.live then u else _) = _
    rw [hlu]
    rcases href with rfl | rfl <;> rfl
  obtain ⟨hup, hother, hcxl, hpwr, hhost, hwin⟩ := u.portDown_fields (2 * ref - 2)
  obtain ⟨hup', hother', hcxl', hpwr', hhost', hwin'⟩ := (u.portDown (2 * ref - 2)).portDown_fields (2 * ref - 1)
  have hmem : ref ∈ u.pwr.refsLost := mem_marked s.pwr.refsLost ref
  rw [hv]
  refine ⟨hcxl'.trans hcxl, by rw [hpwr', hpwr]; exact hmem, fun p hp => ?_, fun p hp => ?_, hhost'.trans hhost, hwin'.trans hwin⟩
  · by_cases hodd : p = 2 * ref - 1
    · rw [hodd]
      exact hup'
    · rw [hother' p hodd, show p = 2 * ref - 2 by omega]
      exact hup
  · rw [hother' p (by omega), hother p (by omega)]
    rfl

theorem exec_referenceLoss {ref : Nat} (href : ref < 3) (s : State) (t : Nat) :
    exec (.referenceLoss t ref) s = .next (referenceLoss ref (s.at t)).settle := congrArg done (State.onlyIf_of (decide_eq_true href) _)

/-- The loss of CXL_REFCLK takes the CXL link down. -/
theorem referenceLoss_cxl (s : State) (hl : s.live = true) (hu : linkUp s = true) :
    let v := referenceLoss 0 s
    v.cxl.mode = 0 ∧ v.fab = s.fab ∧ 0 ∈ v.pwr.refsLost ∧ v.host = s.host ∧ v.win = s.win := by
  intro v
  let u := s.withPwr fun p => { p with refsLost := if p.refsLost.contains 0 then p.refsLost else 0 :: p.refsLost }
  have hu' : linkUp u = true := hu
  have hv : v = u.linkFall true := by
    have hlu : u.live = true := hl
    show (if !u.live then u else if 0 = 0 then (if linkUp u then u.linkFall true else u) else _) = _
    rw [hlu, hu']
    rfl
  have hmem : 0 ∈ u.pwr.refsLost := mem_marked s.pwr.refsLost 0
  have hmode : (u.linkFall true).cxl.mode = 0 := by
    rw [State.linkFall_up hu']
    exact State.when_keeps (·.cxl.mode) _ rfl
  rw [hv]
  refine ⟨hmode, ?_, ?_, ?_, ?_⟩ <;> rw [u.linkFall_eq true]
  · rfl
  · exact hmem
  · rfl
  · rfl

/-! ### The debug port (16 R538) -/

section
variable {s : State} (t addr : Nat) (val : Word)

theorem exec_debugPortAccess (hd : s.dom.fuses.debugLocked = false) (isWrite : Bool) :
    exec (.debugPortAccess t addr isWrite val) s = .next (debugPortAccess addr isWrite val (s.at t)).settle :=
  congrArg done (State.onlyIf_of (by rw [hd]; rfl) _)

theorem debugPortAccess_read {w : Nat} (h : s.dbg.find? addr = some w) :
    debugPortAccess addr false val s = s.emit (.debugData (BitVec.ofNat 32 w)) := by
  rw [debugPortAccess, Table.getD, h]
  rfl

end

/-- Settles O17: resets by clock and supply, references and idle clocks, then the two ports. -/
theorem clocksSuppliesAndPorts : Obligations.ClocksSuppliesAndPorts := by
  refine ⟨resetsOfClocksAndSupplies, fun s t hl => ⟨fun hu => ?_, fun ref href => ?_, fun page he hm hw => ?_⟩, fun s t =>
    ⟨fun hl ha hdue => ?_, fun hl => ?_, fun r a => ?_, fun addr hl hs haddr => ?_, fun addr val hd => ?_, fun addr val w hd hw => ?_,
      fun addr isWrite val hd => ?_⟩⟩
  · exact ⟨_, exec_referenceLoss (by decide) s t, referenceLoss_cxl (s.at t) hl hu⟩
  · exact ⟨_, exec_referenceLoss (by omega) s t, referenceLoss_fabric (s.at t) hl href⟩
  · refine ⟨_, congrArg done (State.onlyIf_of ?_ (clockStop page)), .head _⟩
    rw [hl, he, hm, hw]
    rfl
  · refine congrArg done (State.onlyIf_of ?_ _)
    have hdue' : decide (s.cal.servedFrom + oneSec ≤ (s.at t).now) = true := decide_eq_true hdue
    rw [hl, ha, hdue']
    rfl
  · exact congrArg done (State.onlyIf_of hl _)
  · unfold State.answer
    dsimp only
    split <;> rfl
  · refine congrArg done (State.onlyIf_of ?_ _)
    rw [hl, hs, decide_eq_true haddr]
    rfl
  · exact exec_debugPortAccess t addr val hd true
  · rw [exec_debugPortAccess t addr val hd, debugPortAccess_read (s := s.at t) addr val hw]
    rfl
  · show execDebugPortAccess t addr isWrite val s = _
    rw [execDebugPortAccess, hd]
    rfl

end Sys2Proof.Machine
end

section
/-!
What messages and completions change (15 R491, R506 to R510; 17 R559, R560; 18 R596): the frame that every completion keeps.
-/

namespace Sys2Proof.Machine

/-- `u` is `s` after messages and completions: memories, queues, commands, counters and status bits, the Call Board, connections, ports
and egress; the rest of the state stands. -/
structure State.PostStep (s u : State) : Prop where
  rest : u = { s with
    qmg := { s.qmg with cmds := u.qmg.cmds, queues := u.qmg.queues }, regs := u.regs, counts := u.counts, host := u.host, win := u.win,
    cbd := u.cbd, prm := u.prm, outbox := u.outbox, fab := { s.fab with conns := u.fab.conns, ports := u.fab.ports }, shp := u.shp }

namespace State.PostStep

theorem refl (s : State) : s.PostStep s := ⟨rfl⟩

theorem trans {s u v : State} (h : s.PostStep u) (h' : u.PostStep v) : s.PostStep v := ⟨by rw [h'.rest, h.rest]⟩

theorem after {s u v : State} (h' : u.PostStep v) (h : s.PostStep u) : s.PostStep v := h.trans h'

theorem of_cbd {s u : State} (h : s.CbdStep u) : s.PostStep u := ⟨by rw [h.rest]⟩

section
variable {s u : State} (h : s.PostStep u)
include h

theorem flt : u.flt = s.flt := by rw [h.rest]
theorem cxl : u.cxl = s.cxl := by rw [h.rest]
theorem gth : u.gth = s.gth := by rw [h.rest]
theorem enc : u.enc = s.enc := by rw [h.rest]
theorem bft : u.bft = s.bft := by rw [h.rest]
theorem cal : u.cal = s.cal := by rw [h.rest]

end

end State.PostStep

/-! ### Messages on their way out (17 R555, R559, R560; 18 R596) -/

theorem State.postStep_shpOffer (s : State) (p : Nat) (m : Msg) : s.PostStep (s.shpOffer p m).1 := by
  unfold State.shpOffer
  split
  · unfold State.shpQueue
    dsimp only
    split
    · split <;> exact ⟨rfl⟩
    · split <;> exact ⟨rfl⟩
  · exact ⟨rfl⟩

theorem State.postStep_of_shpOffer {s u : State} {p : Nat} {m : Msg} {b : Bool} (h : s.shpOffer p m = (u, b)) : s.PostStep u := by
  have := s.postStep_shpOffer p m
  rwa [h] at this

theorem State.postStep_pumpGo (s : State) (node n : Nat) : s.PostStep (s.pumpGo node n) := by
  induction n generalizing s with
  | zero => exact .refl s
  | succ n ih =>
    unfold State.pumpGo
    dsimp only
    split
    · split
      · split
        · exact (ih _).after ⟨rfl⟩
        · split
          · next s' hs => exact State.postStep_of_shpOffer hs
          · next s' hs => exact (ih _).after ((State.postStep_of_shpOffer hs).trans ⟨rfl⟩)
      · exact .refl s
    · exact .refl s

theorem State.postStep_flushSegsGo (s : State) (p : Nat) (l : List Msg) : s.PostStep (s.flushSegsGo p l) := by
  induction l generalizing s with
  | nil => exact ⟨rfl⟩
  | cons m l ih =>
    unfold State.flushSegsGo
    split
    · exact (ih _).after ⟨rfl⟩
    · exact ⟨rfl⟩

theorem State.postStep_sendSegment (s : State) (m : Msg) : s.PostStep (s.sendSegment m) := by
  unfold State.sendSegment
  split
  · exact ⟨rfl⟩
  · exact (State.postStep_flushSegsGo _ _ _).after ⟨rfl⟩

theorem State.postStep_sendMsg (s : State) (m : Msg) : s.PostStep (s.sendMsg m) := by
  unfold State.sendMsg
  dsimp only
  split
  · exact (State.postStep_pumpGo _ _ _).after ⟨rfl⟩
  · exact ⟨rfl⟩
  · exact (State.postStep_sendSegment _ _).after ⟨rfl⟩

/-! ### Completions -/

theorem State.postStep_writeBytes (s : State) (v : View) (a : Nat) (bs : List Byte) : s.PostStep (s.writeBytes v a bs) := by
  rw [s.writeBytes_eq]
  exact ⟨rfl⟩

theorem State.postStep_postQueue (s : State) (q : Nat) (k : Queue) (c : Comp) (tag wm : Nat) (late event : Bool) :
    s.PostStep (s.postQueue q k c tag wm late event) := by
  unfold State.postQueue
  dsimp only
  have hwrite := s.postStep_writeBytes s.view (k.cqBase + 32 * k.cqTail) (c.bytes tag k.sqHead wm late k.phase)
  split
  · exact ⟨rfl⟩
  split
  · exact hwrite.trans ⟨rfl⟩
  · exact (hwrite.trans ⟨rfl⟩).trans (.of_cbd (State.cbdStep_vecEvent _ _ _))

theorem State.postStep_post (s : State) (cid : Nat) (c : Comp) (rest : List Byte) : s.PostStep (s.post cid c rest) := by
  unfold State.post
  split
  · exact .refl s
  · next k hk =>
    dsimp only
    generalize hu : (if c.status = .fenced then State.bump _ (pgFab 0) 0x0CC else _) = u
    have hcount : s.PostStep u := by
      rw [← hu]
      split <;> split <;> exact ⟨rfl⟩
    split
    · split
      · exact hcount
      · exact hcount.trans (State.postStep_postQueue _ _ _ _ _ _ _ _)
    · exact hcount.trans (State.postStep_sendMsg _ _)
    · exact hcount.trans (State.postStep_sendMsg _ _)
    · exact hcount.trans (State.postStep_sendMsg _ _)

theorem State.postStep_finish (s : State) (cid : Nat) (st : Status) (count detail : Nat) : s.PostStep (s.finish cid st count detail) :=
  s.postStep_post cid _ _

/-- The completion of a mutation, with its source's W and next position (03 R87). -/
def State.mutComp (s : State) (src : Nat) (st : Status) (count : Nat) : Comp :=
  { status := st, count := count, detail := ((s.source? src).getD {}).next, watermark := some ((s.source? src).getD {}).w }

/-- A mutation's completion may also end a source that leaves (03 R85). -/
theorem State.finishMut_eq (s : State) (cid src : Nat) (st : Status) (count : Nat) : s.finishMut cid src st count =
    { s.post cid (s.mutComp src st count) with
      wlk := { (s.post cid (s.mutComp src st count)).wlk with sources := (s.finishMut cid src st count).wlk.sources } } := by
  unfold State.finishMut
  dsimp only
  split <;> rfl

/-! ### What a warm start owes (15 R514) -/

theorem State.postOwed_cxl (s : State) (cid : Nat) (k : Cmd) (ok : Bool) (n : Nat) : (s.postOwed cid k ok n).cxl = s.cxl := by
  unfold State.postOwed
  dsimp only
  split
  · exact (s.postStep_post _ _ _).cxl
  · exact (s.postStep_post _ _ _).cxl
  split
  · rw [State.finishMut_eq]
    exact (s.postStep_post _ _ _).cxl
  · exact (s.postStep_post _ _ _).cxl

theorem State.postWarm_cxl (s : State) (cid : Nat) (k : Cmd) : (s.postWarm cid k).cxl = s.cxl := by
  unfold State.postWarm
  split
  · rfl
  · exact State.postOwed_cxl _ _ _ _ _

/-- What every step of a fold keeps, the fold keeps. -/
theorem foldl_keeps {α β σ : Type} (g : σ → β) {f : σ → α → σ} (h : ∀ s a, g (f s a) = g s) (l : List α) (s : σ) : g (l.foldl f s) = g s := by
  induction l generalizing s with
  | nil => rfl
  | cons a l ih => exact (ih _).trans (h s a)

theorem State.queueMessage_cxl (s : State) (q : Nat) : (s.queueMessage q).cxl = s.cxl := by
  unfold State.queueMessage
  split
  · rfl
  split
  · exact (s.cbdStep_sendVec _).cxl
  · rfl

theorem State.flushWarm_cxl (s : State) : s.flushWarm.cxl = s.cxl := by
  unfold State.flushWarm
  dsimp only
  refine (foldl_keeps State.cxl State.queueMessage_cxl _ _).trans (foldl_keeps State.cxl (fun u e => ?_) _ s)
  split
  · split
    · exact u.postWarm_cxl _ _
    · rfl
  · rfl

end Sys2Proof.Machine
end

section
/-!
The CXL attachment: training, loss, Function Level Resets, the HDM decoder, DOE and IDE (14 R461 to R479).
-/

namespace Sys2Proof.Machine

/-! ### Training (R461 to R463) -/

theorem State.linkRise_cxl (s : State) (width rate : Nat) (cxl flit : Bool) : (s.linkRise width rate cxl flit).cxl =
    { s.cxl with width := width, rate := rate, mode := linkMode rate cxl flit, lastTrain := s.now } :=
  ((State.cbdStep_releaseHeld _).cxl).trans (State.flushWarm_cxl _)

theorem trains_iff {width rate : Nat} : trains width rate = true ↔ width ∈ [4, 8, 16] ∧ 1 ≤ rate ∧ rate ≤ 3 := by
  simp [trains, and_assoc]

theorem linkMode_eq (rate : Nat) (cxl flit : Bool) :
    linkMode rate cxl flit = if cxl = false then 1 else if flit = true ∨ rate = 3 then 3 else 2 := by
  cases cxl <;> simp [linkMode]

/-- An attempt that trains leaves the link in the mode that was negotiated. -/
theorem State.tryTrain_comes (s : State) {width rate : Nat} (h : trains width rate = true) (cxl flit first : Bool) :
    let v := s.tryTrain width rate cxl flit first
    v.cxl.width = width ∧ v.cxl.rate = rate ∧ v.cxl.mode = if cxl = false then 1 else if flit = true ∨ rate = 3 then 3 else 2 := by
  intro v
  have hv : v.cxl = _ := (congrArg State.cxl (if_pos h)).trans (State.linkRise_cxl _ width rate cxl flit)
  rw [hv]
  exact ⟨rfl, rfl, linkMode_eq rate cxl flit⟩

section
variable {s : State} (hl : s.live = true) (t : Nat)
include hl

section
variable (hu : linkUp s = false) (hp : s.cal.perstLow = false) (width rate : Nat) (cxl flit : Bool)
include hu hp

theorem exec_linkTrain : exec (.linkTrain t width rate cxl flit) s = .next ((s.at t).tryTrain width rate cxl flit true).settle :=
  congrArg done (State.onlyIf_of (by rw [hl, State.mayTrain, hu, hp]; rfl) _)

theorem exec_linkTrainRetry (hdue : s.cxl.lastTrain + 100000000 ≤ max s.now t) :
    exec (.linkTrainRetry t width rate cxl flit) s = .next ((s.at t).tryTrain width rate cxl flit false).settle := by
  have hdue' : decide (s.cxl.lastTrain + 100 * ms ≤ (s.at t).now) = true := decide_eq_true hdue
  exact congrArg done (State.onlyIf_of (by rw [hl, State.mayTrain, hu, hp, hdue']; rfl) _)

end

/-- The effects of a link that goes down (R462). -/
theorem linkDown_effects (hu : linkUp s = true) : ∃ v : State, exec (.linkDown t) s = .next v.settle ∧ v.cxl.mode = 0 ∧ v.cxl.width = 0 ∧
    v.cxl.ideIo = false ∧ v.cxl.ideMem = false ∧ v.count pgCxl 0x070 = min 0xFFFFFFFF (s.count pgCxl 0x070 + 1) ∧
    v.cxl.committed = s.cxl.committed ∧
    (bitOf (s.reg pgCxl 0x040) 0 = true → ∃ m : FaultMsg, v.flt = { s.flt with inbox := s.flt.inbox ++ [m] } ∧ m.kind = 0x30) ∧
    (bitOf (s.reg pgCxl 0x040) 0 = false → v.flt = s.flt) ∧ v.host = s.host ∧ v.win = s.win := by
  refine ⟨(s.at t).linkFall true, congrArg done (State.onlyIf_of (by rw [hl, hu]; rfl) _), ?_⟩
  let u := ((s.at t).withCxl (·.fallen (s.at t).now)).bump pgCxl 0x070
  have hv : (s.at t).linkFall true = u.when (bitOf (s.reg pgCxl 0x040) 0) (·.sendFault pgCxl .linkDown) :=
    State.linkFall_up (s := s.at t) hu true
  have hcxl : ((s.at t).linkFall true).cxl = s.cxl.fallen (s.at t).now := by
    rw [hv]
    exact State.when_keeps State.cxl _ rfl
  have hcount : ((s.at t).linkFall true).count pgCxl 0x070 = min 0xFFFFFFFF (s.count pgCxl 0x070 + 1) := by
    rw [hv]
    exact (State.when_keeps (·.count pgCxl 0x070) _ rfl).trans (State.count_bump_self _ _ _ _)
  rw [hcxl, hcount]
  refine ⟨rfl, rfl, rfl, rfl, rfl, rfl, fun hn => ?_, fun hn => ?_, ?_, ?_⟩
  · rw [hv, hn]
    exact ⟨_, rfl, faultMsg_kind ..⟩
  · rw [hv, hn]
    rfl
  · rw [(s.at t).linkFall_eq true]
    rfl
  · rw [(s.at t).linkFall_eq true]
    rfl

end

/-- Settles O20: a training that works, one that does not, and a link that falls. -/
theorem linkTrainingAndLoss : Obligations.LinkTrainingAndLoss := by
  intro s t width rate cxl flit hl
  refine ⟨fun hu hp hw h1 h3 => ?_, fun hu hp hbad => ?_, linkDown_effects hl t⟩
  · have ht := trains_iff.mpr ⟨hw, h1, h3⟩
    exact ⟨⟨_, exec_linkTrain hl t hu hp width rate cxl flit, State.tryTrain_comes _ ht cxl flit true⟩,
      fun hdue => ⟨_, exec_linkTrainRetry hl t hu hp width rate cxl flit hdue, State.tryTrain_comes _ ht cxl flit false⟩⟩
  · have ht : trains width rate = false := by
      rw [← Bool.not_eq_true, trains_iff]
      rintro ⟨hw, h1, h3⟩
      rcases hbad with h | h | h
      · exact h hw
      all_goals omega
    refine ⟨faultMsg ((s.at t).withCxl fun b => { b with lastTrain := (s.at t).now }) pgCxl .linkDown 0 0 false, ?_,
      faultMsg_kind .., faultMsg_severity ..⟩
    rw [exec_linkTrain hl t hu hp, State.tryTrain, ht]
    rfl

/-! ### Function Level Resets (15 R515; 19 R623) -/

/-- A table filtered by its keys. -/
theorem find?_filterKey {α : Type} (t : Table α) (p : Nat → Bool) (k : Nat) :
    Table.find? (t.filter fun e => p e.1) k = if p k then t.find? k else none := by
  induction t with
  | nil => simp [Table.find?]
  | cons e t ih =>
    rw [List.filter_cons]
    by_cases hk : e.1 = k
    · subst hk
      cases hp : p e.1
      · simpa [hp] using ih
      · simp [Table.find?]
    · have htail (l : Table α) : Table.find? (e :: l) k = Table.find? l k := by simp [Table.find?, hk]
      rw [htail, ← ih]
      cases p e.1
      · rfl
      · exact htail _

/-- The queues of the function stop, and no other. -/
theorem State.queue?_flrQueues {s : State} {q : Nat} {w : Queue} (fn : Nat) (h : s.queue? q = some w) :
    (s.flrQueues fn).queue? q = some (if w.fn = fn then { w with state := .stopped, flrDrop := true } else w) := by
  unfold State.flrQueues State.queue?
  rw [Table.find?_mapVal]
  exact congrArg (Option.map _) h

theorem State.vecs_flrVectors (s : State) (fn key : Nat) :
    (s.flrVectors fn).cbd.vecs.find? key = if key / 2048 = fn then none else s.cbd.vecs.find? key := by
  refine (find?_filterKey s.cbd.vecs (fun k => k / 2048 != fn) key).trans ?_
  by_cases h : key / 2048 = fn <;> simp [h]

theorem flrVf_effects (s : State) (fn : Nat) : let v := (s.flrQueues fn).flrVectors fn
    (∀ q w, s.queue? q = some w → v.queue? q = some (if w.fn = fn then { w with state := .stopped, flrDrop := true } else w)) ∧
    (∀ key, key / 2048 = fn → v.cbd.vecs.find? key = none) ∧ (∀ key, key / 2048 ≠ fn → v.cbd.vecs.find? key = s.cbd.vecs.find? key) ∧
    v.qmg.cmds = s.qmg.cmds ∧ v.cxl = s.cxl ∧ v.host = s.host ∧ v.win = s.win :=
  ⟨fun _ _ h => State.queue?_flrQueues fn h, fun key h => ((s.flrQueues fn).vecs_flrVectors fn key).trans (if_pos h),
    fun key h => ((s.flrQueues fn).vecs_flrVectors fn key).trans (if_neg h), rfl, rfl, rfl, rfl⟩

/-- A mask of all bits but one clears that bit. -/
theorem bitOf_and_but_1 (x : Nat) : bitOf (x &&& (allBits - 2)) 1 = false := by
  rw [bitOf_eq_testBit, Nat.testBit_and, show (allBits - 2).testBit 1 = false by decide, Bool.and_false]

theorem flrPf0_effects (s : State) :
    (∀ q w, s.queue? q = some w → (flrPf0 s).queue? q = some (if w.fn = 0 then { w with state := .stopped, flrDrop := true } else w)) ∧
    bitOf ((flrPf0 s).reg pgQmg 0x040) 1 = false ∧ (flrPf0 s).cxl.doeBusy = [false, false, false] ∧ (flrPf0 s).qmg.cmds = s.qmg.cmds ∧
    (flrPf0 s).host = s.host ∧ (flrPf0 s).win = s.win := by
  refine ⟨fun _ _ h => State.queue?_flrQueues 0 h, ?_, rfl, rfl, rfl, rfl⟩
  have hreg : (flrPf0 s).reg pgQmg 0x040 = ((s.flrQueues 0).flrVectors 0).reg pgQmg 0x040 &&& (allBits - 2) :=
    State.reg_setReg_self _ _ _ _
  rw [hreg, bitOf_and_but_1]

/-! ### The HDM decoder, DOE and IDE (14 R471, R476 to R479) -/

section
variable {s : State} (hl : s.live = true) (hu : linkUp s = true) (t : Nat)
include hl hu

theorem exec_hdmDecoderCommit (base size ways : Nat) :
    exec (.hdmDecoderCommit t base size ways) s = .next (hdmCommit base size ways (s.at t)).settle :=
  congrArg done (State.onlyIf_of (by rw [hl, hu]; rfl) _)

theorem exec_hdmDecoderCommit_whole {base size ways : Nat} (hsize : size = s.winBytes) (hways : ways = 1) :
    exec (.hdmDecoderCommit t base size ways) s = .next (State.settle { s.at t with
      cxl := { s.cxl with committed := true, base := base, errNotCommitted := false } }) := by
  rw [exec_hdmDecoderCommit hl hu, hdmCommit, State.at_winBytes, hsize, hways]
  simp only [decide_true, Bool.and_self, if_true]
  rfl

theorem exec_hdmDecoderCommit_not {base size ways : Nat} (h : size ≠ s.winBytes ∨ ways ≠ 1) :
    exec (.hdmDecoderCommit t base size ways) s = .next (State.settle { s.at t with cxl := { s.cxl with errNotCommitted := true } }) := by
  have hno : ¬(decide (size = s.winBytes) && decide (ways = 1)) = true := by
    rcases h with h | h <;> simp [h]
  rw [exec_hdmDecoderCommit hl hu, hdmCommit, State.at_winBytes, if_neg hno]
  rfl

theorem exec_cdatRequest (hb : s.cxl.doeBusy.getD 0 false = false) : exec (.cdatRequest t) s = .next (State.settle { s.at t with
    outbox := .cdat s.winBytes 350 350 100000 100000 :: s.outbox }) := by
  refine (congrArg done (State.onlyIf_of (by rw [hl, hu, hb]; rfl) _)).trans ?_
  rw [State.at_winBytes]
  rfl

theorem exec_ideKmRequest {session : Nat} (hb : s.cxl.doeBusy.getD 2 false = false)
    (hs : s.sec.sessions.find? session = some { path := .doe, finished := true }) :
    exec (.ideKmRequest t session false false) s = .next (State.settle { s.at t with
      cxl := { s.cxl with ideIo := true, idePendIo := false }, outbox := .ideKm session :: s.outbox }) :=
  congrArg done (State.onlyIf_of (by rw [hl, hu, hb, hs]; rfl) _)

theorem exec_ideFailure (hi : s.cxl.ideIo = true) :
    exec (.ideFailure t false) s = .next (ideFailure false (s.at t)).settle :=
  congrArg done (State.onlyIf_of (by rw [hl, hu, hi]; rfl) _)

end

theorem doeAbort_effects (s : State) (mailbox : Nat) : (doeAbort mailbox s).cxl.doeBusy = s.cxl.doeBusy.set mailbox false ∧
    (doeAbort mailbox s).host = s.host ∧ (doeAbort mailbox s).win = s.win ∧ (doeAbort mailbox s).regs = s.regs := by
  unfold doeAbort
  dsimp only
  split <;> exact ⟨rfl, rfl, rfl, rfl⟩

/-- Settles O21: the resets of a function, then the requests that a link that is up answers. -/
theorem linkFunctionReset : Obligations.LinkFunctionReset := by
  refine ⟨fun s t fn hl => ⟨fun h1 h255 => ?_, ?_⟩, fun s t hl hu => ⟨fun base size ways => exec_hdmDecoderCommit_whole hl hu t,
    fun base size ways => exec_hdmDecoderCommit_not hl hu t, exec_cdatRequest hl hu t, fun session => exec_ideKmRequest hl hu t, fun hi => ?_,
    fun mailbox hm => ?_⟩⟩
  · exact ⟨_, congrArg done (State.onlyIf_of (by rw [hl, decide_eq_true h1, decide_eq_true h255]; rfl) _), flrVf_effects (s.at t) fn⟩
  · exact ⟨_, congrArg done (State.onlyIf_of hl _), flrPf0_effects (s.at t)⟩
  · refine ⟨_, _, exec_ideFailure hl hu t hi, rfl, rfl, State.count_bump_self _ _ _ _, ?_, rfl, faultMsg_kind .., faultMsg_severity .., rfl, rfl⟩
    exact State.bitOf_reg_sticky _ _ _ (by decide)
  · exact ⟨_, congrArg done (State.onlyIf_of (by rw [hl, hu, decide_eq_true hm]; rfl) _), doeAbort_effects (s.at t) mailbox⟩

end Sys2Proof.Machine
end

section
/-!
CXL.mem reads and writes of the window; scrubs and wear (14 R472 to R480; 12 R388, R401 to R407).
-/

namespace Sys2Proof.Machine

/-! ### A block of the window, read and written (12 R401 to R404) -/

section
variable {s : State} {w : Nat} (detail : Nat)

theorem State.readBlock_clean (h : w / 64 ∉ s.tier.badBlocks) : s.readBlock w .clean detail = (s, some (s.win.readN w 64)) := by
  rw [State.readBlock, if_neg (by simpa using h)]

theorem State.readBlock_failed : s.readBlock w .failed detail = ((s.markBlock w).heartBad (winLoc w) detail (some w), none) := by
  unfold State.readBlock
  dsimp only
  split <;> rfl

end

theorem State.mem_markBlock (s : State) (w : Nat) : w / 64 ∈ (s.markBlock w).tier.badBlocks := by
  show w / 64 ∈ if s.tier.badBlocks.contains (w / 64) then s.tier.badBlocks else s.tier.badBlocks ++ [w / 64]
  split
  case isTrue h => simpa using h
  case isFalse => exact List.mem_append_right _ (.head _)

/-- What a memory reads after a write of several bytes. -/
theorem Memory.read_writeN (m : Memory) (a : Nat) (bs : List Byte) (x : Nat) :
    (m.writeN a bs).read x = if a ≤ x ∧ x < a + bs.length then bs.getD (x - a) 0 else m.read x := by
  by_cases h : a ≤ x ∧ x < a + bs.length
  · have hi : x - a < bs.length := by omega
    have hx := m.read_writeN_inside a hi
    rw [if_pos h, ← List.getElem_eq_getD (h := hi) 0, ← hx, Nat.add_sub_cancel' h.1]
  · rw [if_neg h, Memory.read_writeN_outside bs (by omega)]

theorem block64_of_length {bs : List Byte} (h : bs.length = 64) : block64 bs = bs := by
  rw [block64, List.take_append_of_le_length (by omega), List.take_of_length_le (by omega)]

theorem length_mergeBytes (old new : List Byte) (en : List Bool) : (mergeBytes old new en).length = 64 := by
  simp [mergeBytes]

theorem getD_mergeBytes (old new : List Byte) (en : List Bool) {i : Nat} (h : i < 64) :
    (mergeBytes old new en).getD i 0 = if en.getD i false then new.getD i 0 else old.getD i 0 := by
  simp [mergeBytes, List.getD_eq_getElem?_getD, h]

theorem getD_readN (m : Memory) (a : Nat) {n i : Nat} (h : i < n) : (m.readN a n).getD i 0 = m.read (a + i) := by
  simp [Memory.readN, List.getD_eq_getElem?_getD, h]

/-- Bytes all enabled replace the block. -/
theorem mergeBytes_all {new : List Byte} {en : List Bool} (hn : new.length = 64)
    (h : ((List.range 64).filter fun i => en.getD i false).length = 64) (old : List Byte) : mergeBytes old new en = new := by
  have hall : ∀ i ∈ List.range 64, en.getD i false = true :=
    List.length_filter_eq_length_iff.mp (h.trans List.length_range.symm)
  refine List.ext_getElem (by rw [length_mergeBytes, hn]) fun i h1 h2 => ?_
  have hi : i < 64 := by simpa [length_mergeBytes] using h1
  rw [List.getElem_eq_getD (h := h1) 0, List.getElem_eq_getD (h := h2) 0, getD_mergeBytes _ _ _ hi, hall i (List.mem_range.mpr hi), if_pos rfl]

/-! ### Requests of CXL.mem that the node takes (14 R472 to R474) -/

section
variable {s : State} {dpa : Nat} (hi : s.ideShut = false) (hd : dpa < s.winBytes)
include hi hd

theorem memRd_open (r : BlockRead) : memRd dpa r s =
    ((s.readBlock (dpa / 64 * 64) r 0).1.memMoved 64).emit (.memData ((s.readBlock (dpa / 64 * 64) r 0).2.getD onesBlock)) := by
  rw [memRd, if_neg (by simp [hi]), if_neg (by omega)]

theorem memWr_open {data : List Byte} (hn : data.length = 64) :
    memWr dpa data false s = ((s.writeBlock (dpa / 64 * 64) data).memMoved 64).emit .memDone := by
  rw [memWr, if_neg (by simp [hi]), if_neg (by omega), if_neg (by decide), block64_of_length hn]

/-- A partial write of a clean block stores the block's bytes with the enabled ones replaced. -/
theorem memWrPtl_open {data : List Byte} (hn : data.length = 64) (en : List Bool) (hb : dpa / 64 * 64 / 64 ∉ s.tier.badBlocks) :
    ∃ n, memWrPtl dpa data en false .clean s =
      ((s.writeBlock (dpa / 64 * 64) (mergeBytes (s.win.readN (dpa / 64 * 64) 64) data en)).memMoved n).emit .memDone := by
  refine ⟨((List.range 64).filter fun i => en.getD i false).length, ?_⟩
  rw [memWrPtl, if_neg (by simp [hi]), if_neg (by omega), if_neg (by decide)]
  split
  case isTrue h => rw [mergeBytes_all hn h, block64_of_length hn, h]
  case isFalse => rw [State.readBlock_clean _ hb]

end

/-- The window after a block is written reads the block's bytes there, and elsewhere what it read. -/
theorem State.writeBlock_win (s : State) (w : Nat) {bs : List Byte} (h : bs.length = 64) (a : Nat) :
    (s.writeBlock w bs).win.read a = if w ≤ a ∧ a < w + 64 then bs.getD (a - w) 0 else s.win.read a := by
  rw [← h]
  exact Memory.read_writeN _ _ _ _

section
variable {s : State} (t : Nat) {dpa : Nat} (ho : s.memOpen dpa = true)
include ho

theorem exec_memRd (r : BlockRead) : exec (.memRd t dpa r) s = .next (memRd dpa r (s.at t)).settle := congrArg done (State.onlyIf_of ho _)

theorem exec_memWr (data : List Byte) (poison : Bool) : exec (.memWr t dpa data poison) s = .next (memWr dpa data poison (s.at t)).settle :=
  congrArg done (State.onlyIf_of ho _)

theorem exec_memWrPtl (data : List Byte) (en : List Bool) (poison : Bool) (r : BlockRead) :
    exec (.memWrPtl t dpa data en poison r) s = .next (memWrPtl dpa data en poison r (s.at t)).settle :=
  congrArg done (State.onlyIf_of ho _)

theorem memLink_of_open : s.memLink = true := by
  rw [State.memOpen, Bool.and_eq_true] at ho
  exact ho.1

/-- The reads of the window, of each kind (R472, R473, R480). -/
theorem memReads (r : BlockRead) :
    (s.ideShut = false → dpa < s.winBytes → dpa / 64 * 64 / 64 ∉ s.tier.badBlocks → ∃ v : State,
      exec (.memRd t dpa .clean) s = .next v.settle ∧ v.outbox = .memData (s.win.readN (dpa / 64 * 64) 64) :: s.outbox ∧
      v.count pgCxl 0x078 = (s.count pgCxl 0x078 + 64) % 2 ^ 64 ∧ v.host = s.host ∧ v.win = s.win ∧ v.flt = s.flt) ∧
    (s.ideShut = false → dpa < s.winBytes → ∃ v : State, exec (.memRd t dpa .failed) s = .next v.settle ∧
      v.outbox = .memData (List.replicate 64 0xFF#8) :: s.outbox ∧ dpa / 64 * 64 / 64 ∈ v.tier.badBlocks ∧
      (∃ m ∈ v.flt.inbox, m.kind = 0x12) ∧ v.host = s.host ∧ v.win = s.win) ∧
    (s.ideShut = false → s.winBytes ≤ dpa → ∃ v : State, exec (.memRd t dpa r) s = .next v.settle ∧
      v.outbox = .memData (List.replicate 64 0xFF#8) :: s.outbox ∧ v.count pgCxl 0x060 = min 0xFFFFFFFF (s.count pgCxl 0x060 + 1) ∧
      bitOf (v.reg pgCxl 0x044) 1 = true ∧ v.host = s.host ∧ v.win = s.win) ∧
    (s.ideShut = true → exec (.memRd t dpa r) s = .next (State.settle { s.at t with outbox := .memData (List.replicate 64 0xFF#8) :: s.outbox })) ∧
    (dpa < s.winBytes → exec (.memSpecRd t dpa) s = .next (s.at t).settle ∧
      exec (.memInv t dpa) s = .next (State.settle { s.at t with outbox := .memDone :: s.outbox })) := by
  have hl := memLink_of_open ho
  refine ⟨fun hi hd hb => ⟨_, exec_memRd t ho .clean, ?_⟩, fun hi hd => ⟨_, exec_memRd t ho .failed, ?_⟩, fun hi hd =>
    ⟨_, exec_memRd_oor hl hi hd t r, rfl, s.count_oorAnswer t _, s.oorSeen_oorAnswer t _, rfl, rfl⟩, fun hi => ?_, fun hd => ⟨?_, ?_⟩⟩
  · have hb' : dpa / 64 * 64 / 64 ∉ (s.at t).tier.badBlocks := hb
    rw [memRd_open (s := s.at t) hi (by simpa using hd), State.readBlock_clean _ hb']
    exact ⟨rfl, Table.getD_set_self _ _ _ _, rfl, rfl, rfl⟩
  · rw [memRd_open (s := s.at t) hi (by simpa using hd), State.readBlock_failed]
    exact ⟨rfl, (s.at t).mem_markBlock _, ⟨_, List.mem_append_right _ (.head _), faultMsg_kind ..⟩, rfl, rfl⟩
  · rw [exec_memRd t ho, memRd, State.at_ideShut, hi]
    rfl
  · refine congrArg done ((State.onlyIf_of hl _).trans (if_neg ?_))
    simp [Nat.not_le.mpr hd]
  · refine (congrArg done (State.onlyIf_of hl _)).trans ?_
    rw [if_neg (by simp [Nat.not_le.mpr hd])]
    rfl

end

/-- Writes that store nothing: over a restricted link, beyond the window, or poisoned. -/
theorem memWrites_dropped {s : State} (t : Nat) {dpa : Nat} (ho : s.memOpen dpa = true) (data : List Byte) (en : List Bool) (r : BlockRead)
    {poison : Bool} (h : s.ideShut = true ∨ s.winBytes ≤ dpa ∨ poison = true) : ∃ v w : State,
    exec (.memWr t dpa data poison) s = .next v.settle ∧ exec (.memWrPtl t dpa data en poison r) s = .next w.settle ∧
    v.outbox = .memDone :: s.outbox ∧ w.outbox = .memDone :: s.outbox ∧ v.win = s.win ∧ w.win = s.win ∧ v.host = s.host ∧ w.host = s.host ∧
    (s.ideShut = false → dpa < s.winBytes → ∃ m ∈ v.flt.inbox, m.kind = 0x31) := by
  have hl := memLink_of_open ho
  cases hi : s.ideShut with
  | true =>
    have hw : exec (.memWr t dpa data poison) s = .next ((s.at t).emit .memDone).settle := by
      rw [exec_memWr t ho, memWr, State.at_ideShut, hi, if_pos rfl]
    have hp : exec (.memWrPtl t dpa data en poison r) s = .next ((s.at t).emit .memDone).settle := by
      rw [exec_memWrPtl t ho, memWrPtl, State.at_ideShut, hi, if_pos rfl]
    exact ⟨_, _, hw, hp, rfl, rfl, rfl, rfl, rfl, rfl, fun h => absurd h (by decide)⟩
  | false =>
    by_cases hd : s.winBytes ≤ dpa
    · exact ⟨_, _, exec_memWr_oor hl hi hd t data poison, exec_memWrPtl_oor hl hi hd t data en poison r, rfl, rfl, rfl, rfl, rfl, rfl,
        fun _ h => absurd h (Nat.not_lt.mpr hd)⟩
    · obtain rfl : poison = true := by simpa [hi, hd] using h
      have hd' : dpa < s.winBytes := Nat.not_le.mp hd
      exact ⟨_, _, exec_memWr_poison ho hi hd' t data, exec_memWrPtl_poison ho hi hd' t data en r, rfl, rfl, rfl, rfl, rfl, rfl,
        fun _ _ => ⟨_, List.mem_append_right _ (.head _), faultMsg_kind ..⟩⟩

/-- Settles O22: the reads, the writes that store, and the writes that store nothing. -/
theorem memRequests : Obligations.MemRequests := by
  refine ⟨fun s t dpa r ho => memReads t ho r, fun s t dpa data en r poison ho hn hen => ⟨fun hi hd => ?_, fun hi hd hb => ?_, fun hno => ?_⟩⟩
  · refine ⟨_, exec_memWr t ho data false, ?_⟩
    rw [memWr_open (s := s.at t) hi (by simpa using hd) hn]
    exact ⟨rfl, fun hw => Memory.writeN_wf hw _ _, rfl, (s.at t).writeBlock_win _ hn⟩
  · obtain ⟨n, h⟩ := memWrPtl_open (s := s.at t) hi (by simpa using hd) hn en hb
    refine ⟨_, exec_memWrPtl t ho data en false .clean, ?_⟩
    rw [h]
    refine ⟨rfl, fun hw => Memory.writeN_wf hw _ _, rfl, fun a => ((s.at t).writeBlock_win _ (length_mergeBytes _ _ _) a).trans ?_⟩
    by_cases ha : dpa / 64 * 64 ≤ a ∧ a < dpa / 64 * 64 + 64
    · have hia : a - dpa / 64 * 64 < 64 := by omega
      rw [if_pos ha, getD_mergeBytes _ _ _ hia, getD_readN _ _ hia, Nat.add_sub_cancel' ha.1]
      simp [ha]
    · rw [if_neg ha, if_neg (fun h => ha ⟨h.1, h.2.1⟩)]
      rfl
  · exact memWrites_dropped t ho data en r hno

/-! ### Scrubs and wear (12 R388, R405 to R407) -/

/-- The page of a stack is its HMC's. -/
theorem blockAt_pgHmc {stack : Nat} (h : stack < 8) : blockAt (pgHmc stack) = some (.hmc, stack) := by
  have hall : ∀ i : Fin 8, blockAt (pgHmc i) = some (.hmc, i.val) := by decide
  exact hall ⟨stack, h⟩

/-- Settles O23: a scrub of Top, a patrol pass that meets nothing, and the notice of outer corrections. -/
theorem scrubsAndWear : Obligations.ScrubsAndWear := by
  intro s t hl
  refine ⟨fun corrected ha he hne => ?_, fun stack hs he hr hp => ?_, fun stack hs h0 hlt he => ?_⟩
  · refine ⟨_, congrArg done (State.onlyIf_of (by rw [hl, ha]; rfl) _), ?_⟩
    have hscrub : topScrub corrected [] (s.at t) = ((s.at t).bump pgTop 0x050 corrected.length).sticky pgTop 0x044 1 := by
      rw [topScrub, State.at_reg, he, if_neg (by simp)]
      exact if_neg (by simpa using hne)
    rw [hscrub]
    exact ⟨State.count_bump_self _ _ _ _, State.bitOf_reg_sticky _ _ _ (by decide), rfl, rfl, rfl⟩
  · refine ⟨_, congrArg done (State.onlyIf_of (by rw [hl, decide_eq_true hs, he, hr]; rfl) _), ?_⟩
    rw [patrolScrub, State.at_reg, hp]
    exact ⟨State.count_bump_self _ _ _ _, rfl, rfl⟩
  · have hlive : (s.live && decide (stack < 8)) = true := by rw [hl, decide_eq_true hs]; rfl
    let u := (s.at t).setStack stack { s.stack stack with outerIn := 0 }
    refine ⟨u.sendFault (pgHmc stack) .outerCorrRate, faultMsg u (pgHmc stack) .outerCorrRate 0 0 false, ?_, rfl, faultMsg_kind ..,
      faultMsg_severity .., (faultMsg_sender u (b := .hmc) (i := stack) ?_ _ _ _).2, rfl, rfl⟩
    · refine congrArg done ((State.onlyIf_of hlive _).trans (if_neg ?_))
      have hle : decide (((s.at t).stack stack).outerIn ≤ (s.at t).reg (pgHmc stack) 0x04C) = false := decide_eq_false (Nat.not_le.mpr hlt)
      rw [hle]
      simp [h0, he]
    · exact blockAt_pgHmc hs

end Sys2Proof.Machine
end

section
/-!
Commands that have been submitted, and the commands of domains, quotas, raw extents and watch rules (15 R505; 16 R520 to R532; 12 R392,
R409, R413; 05 R180).
-/

namespace Sys2Proof.Machine

/-! ### A command submitted runs its own step -/

section
variable {s : State} {cid op : Nat} {k : Cmd}

theorem State.Submitted.run (h : s.Submitted cid op k) (t : Nat) {ok : Cmd → Bool} (ho : ok k = true) (f : Cmd → State → State) :
    (s.at t).withCmd cid ok f = f k (s.at t) := State.withCmd_found f h.live h.found h.notWarm ho

theorem State.Submitted.isNew (h : s.Submitted cid op k) : k.isNew op = true := by
  simp [Cmd.isNew, h.opcode, h.admitted]

theorem State.SubmittedAdmin.isAdmin (h : s.SubmittedAdmin cid op k) : k.isAdmin op = true := by
  simp [Cmd.isAdmin, h.toCmd.isNew, h.adminOp]

/-- The step of a command in its first phase. -/
theorem State.Submitted.step (h : s.Submitted cid op k) (t : Nat) (f : Cmd → State → State) :
    done ((s.at t).withCmd cid (·.isNew op) f) = .next (f k (s.at t)).settle := congrArg done (h.run t h.isNew f)

/-- The step of an ADMIN command in its first phase. -/
theorem State.SubmittedAdmin.step (h : s.SubmittedAdmin cid op k) (t : Nat) (f : Cmd → State → State) :
    done ((s.at t).withCmd cid (·.isAdmin op) f) = .next (f k (s.at t)).settle := congrArg done (h.toCmd.run t h.isAdmin f)

end

/-! ### Domains (16 R520 to R532) -/

section
variable {s : State} {k : Cmd} (hd : domOf k < s.dom.fuses.maxDomains) (cid : Nat)
include hd

theorem State.inDomains_of (f : State → State) : s.inDomains cid k f = f s := if_neg (Nat.not_le.mpr hd)

theorem domainDefine_good (hs : (s.domain (domOf k)).state ≠ .retiring) {desc : List Byte} (hc : desc = s.cmdRead k (cmdPtrA k.raw) 32)
    (hr : s.defineRefusal (domOf k) desc = none) : domainDefine cid k s =
    (s.setDomain (domOf k) ((s.domain (domOf k)).defined (domOf k) desc)).finish cid .ok := by
  subst hc
  rw [domainDefine, State.inDomains_of hd, if_neg hs, hr]

theorem domainDefine_refused (hs : (s.domain (domOf k)).state ≠ .retiring) {desc : List Byte} (hc : desc = s.cmdRead k (cmdPtrA k.raw) 32)
    {st : Status} (hr : s.defineRefusal (domOf k) desc = some st) : domainDefine cid k s = s.finish cid st := by
  subst hc
  rw [domainDefine, State.inDomains_of hd, if_neg hs, hr]

theorem State.activate_inactive (hs : (s.domain (domOf k)).state = .inactive) :
    s.activate (domOf k) = (s.setDomain (domOf k) { s.domain (domOf k) with state := .active }, .ok) := by
  rw [State.activate, if_neg (Nat.not_le.mpr hd), hs]

theorem State.activate_retiring (hs : (s.domain (domOf k)).state = .retiring) : s.activate (domOf k) = (s, .busy) := by
  rw [State.activate, if_neg (Nat.not_le.mpr hd), hs]

theorem domainRetire_active (h0 : domOf k ≠ 0) (hs : (s.domain (domOf k)).state = .active) (hcue : s.cue.entries = []) : domainRetire cid k s =
    (s.setDomain (domOf k) { s.domain (domOf k) with state := .retiring, retirers := (s.domain (domOf k)).retirers ++ [cid] }).setCmd cid
      { k with phase := .waiting } := by
  have hdrop (u : State) (hu : u.cue.entries = []) : u.dropScheduled (domOf k) = u := by
    rw [State.dropScheduled, hu]
    rfl
  rw [domainRetire, State.retire, if_neg (Nat.not_le.mpr hd), if_neg h0, hs]
  exact congrArg (State.setCmd · cid { k with phase := .waiting }) (hdrop (s.setDomain (domOf k) _) hcue)

theorem domainRetire_zero (h0 : domOf k = 0) : domainRetire cid k s = s.finish cid .denied := by
  rw [domainRetire, State.retire, if_neg (Nat.not_le.mpr hd), if_pos h0]

theorem domainDelete_free (h0 : domOf k ≠ 0) (hs : (s.domain (domOf k)).state = .inactive) (ho : ∀ n ∈ s.owned (domOf k), n = 0)
    (ht : (s.domain (domOf k)).usedTop = 0) (hh : (s.domain (domOf k)).usedHeart = 0) (hb : (s.domain (domOf k)).usedBase = 0) :
    domainDelete cid k s =
      ({ s with dom := { s.dom with doms := s.dom.doms.erase (domOf k) } }.unbindSources (domOf k)).finish cid .ok := by
  have hany : (s.owned (domOf k)).any (fun n => n != 0) = false := by
    simpa using ho
  rw [domainDelete, State.inDomains_of hd, if_neg h0, hs, if_neg (by decide), if_neg (by rw [hany, ht, hh, hb]; decide)]

theorem privGrant_good (hs : (s.domain (domOf k)).state ≠ .absent) (hm : fieldAt k.raw 49 1 &&& (255 - s.dom.fuses.grantable) = 0) :
    privGrant cid k s =
      (s.setDomain (domOf k) { s.domain (domOf k) with privs := (s.domain (domOf k)).privs ||| fieldAt k.raw 49 1 }).finish cid .ok := by
  rw [privGrant, State.inDomains_of hd, if_neg hs, hm, if_neg (by decide)]

theorem privRevoke_good (hs : (s.domain (domOf k)).state ≠ .absent) (h0 : domOf k ≠ 0) : privRevoke cid k s =
    (s.setDomain (domOf k) { s.domain (domOf k) with
      privs := (s.domain (domOf k)).privs &&& (31 - fieldAt k.raw 49 1 % 32) }).finish cid .ok := by
  rw [privRevoke, State.inDomains_of hd, if_neg hs, if_neg h0]

theorem privRevoke_zero (hs : (s.domain (domOf k)).state ≠ .absent) (h0 : domOf k = 0) : privRevoke cid k s = s.finish cid .ok := by
  rw [privRevoke, State.inDomains_of hd, if_neg hs, if_pos h0]

end

theorem exec_domainRetireComplete {s : State} (hl : s.live = true) (t : Nat) {d cid : Nat} (hs : (s.domain d).state = .retiring)
    (hn : s.qmg.cmds.any (fun e => e.2.domain == d) = false) (hr : (s.domain d).retirers = [cid]) :
    exec (.domainRetireComplete t d) s = .next (State.settle
      (((s.at t).setDomain d { s.domain d with state := .inactive, retirers := [] }).finish cid .ok)) := by
  have hs' : ((s.at t).domain d).state = .retiring := hs
  have hr' : ((s.at t).domain d).retirers = [cid] := hr
  refine (congrArg done (State.onlyIf_of hl _)).trans ?_
  rw [domainRetireComplete, State.at_qmg, hs', hn, if_neg (by decide), hr']
  rfl

/-! ### Quotas (12 R409) -/

/-- What the quotas of a tier come to with a domain's at `n`. -/
def State.quotaTotal (s : State) (d tier n : Nat) : Nat :=
  ((s.dom.doms.filter fun e => e.1 != d).map fun e => e.2.quota tier).sum + n

theorem State.setQuota_fits {s : State} {d tier n : Nat} (hd : d < s.dom.fuses.maxDomains) (ht : tier < 2)
    (hq : s.quotaTotal d tier n ≤ s.allocatable tier) : s.setQuota d tier n = (s.setDomain d ((s.domain d).setQuota tier n), .ok) := by
  have hin : ¬(decide (s.dom.fuses.maxDomains ≤ d) || decide (2 < tier)) = true := by simp; omega
  rw [State.setQuota, if_neg hin]
  exact (if_neg (Nat.not_lt.mpr hq)).trans (congrArg (·, Status.ok) (if_neg (by omega)))

theorem State.setQuota_over {s : State} {d tier n : Nat} (hd : d < s.dom.fuses.maxDomains) (ht : tier < 2)
    (hq : s.allocatable tier < s.quotaTotal d tier n) : s.setQuota d tier n = (s.quotaFail, .quota) := by
  have hin : ¬(decide (s.dom.fuses.maxDomains ≤ d) || decide (2 < tier)) = true := by simp; omega
  rw [State.setQuota, if_neg hin]
  exact if_pos hq

/-- Settles O28: each command is its own step, in the state that the clause asks. -/
theorem domainCommands : Obligations.DomainCommands := by
  intro s t cid k hd
  dsimp only
  refine ⟨fun desc h hc hs => ⟨fun hr => ?_, fun st hr => ?_⟩, fun h hs => ?_, fun h hs => ?_, fun h h0 hs hcue => ?_, fun h h0 => ?_,
    fun hl hs hn hr => exec_domainRetireComplete hl t hs hn hr, fun h h0 hs ho ht hh hb => ?_, fun h => ?_, fun h hs hm => ?_,
    fun h hs h0 => ?_, fun h hs h0 => ?_, fun h ht => ⟨fun hq => ?_, fun hq => ?_⟩⟩
  · exact (h.step t _).trans (congrArg done (domainDefine_good (s := s.at t) hd cid hs hc hr))
  · exact (h.step t _).trans (congrArg done (domainDefine_refused (s := s.at t) hd cid hs hc hr))
  · refine (h.step t _).trans ?_
    rw [State.activate_inactive (s := s.at t) hd hs]
    rfl
  · refine (h.step t _).trans ?_
    rw [State.activate_retiring (s := s.at t) hd hs]
  · exact (h.step t _).trans (congrArg done (domainRetire_active (s := s.at t) hd cid h0 hs hcue))
  · exact (h.step t _).trans (congrArg done (domainRetire_zero (s := s.at t) hd cid h0))
  · exact (h.step t _).trans (congrArg done (domainDelete_free (s := s.at t) hd cid h0 hs ho ht hh hb))
  · exact (h.step t _).trans (congrArg done (State.inDomains_of (s := s.at t) hd cid _))
  · exact (h.step t _).trans (congrArg done (privGrant_good (s := s.at t) hd cid hs hm))
  · exact (h.step t _).trans (congrArg done (privRevoke_good (s := s.at t) hd cid hs h0))
  · exact (h.step t _).trans (congrArg done (privRevoke_zero (s := s.at t) hd cid hs h0))
  · refine (h.step t _).trans ?_
    rw [quotaSet, show fieldAt k.raw 8 2 = domOf k from rfl, State.setQuota_fits (s := s.at t) hd ht hq]
    rfl
  · refine (h.step t _).trans ?_
    rw [quotaSet, show fieldAt k.raw 8 2 = domOf k from rfl, State.setQuota_over (s := s.at t) hd ht hq]
    rfl

/-! ### Raw extents (12 R392, R413) -/

section
variable {s : State} {k : Cmd} (cid : Nat)

section
variable {d : Nat} (hdom : d = fieldAt k.raw 8 2) (hd : d < s.dom.fuses.maxDomains) (hn : fieldAt k.raw 49 1 ≤ 7)
  (ha : (s.domain d).state = .active)
include hdom hd hn ha

/-- RAW_ALLOC of an Active domain, past the checks of its arguments. -/
theorem rawAlloc_active : rawAlloc cid k s =
    if !bitOf (s.privs d) 0 then s.finish cid .denied
    else if (s.domain d).quotaHeart < (s.domain d).usedHeart + 1 then s.quotaFail.finish cid .quota
    else match s.freeRaw (fieldAt k.raw 49 1) with
      | none => (s.tierShort d 1).finish cid .quota
      | some h => ({ s.setDomain d { s.domain d with usedHeart := (s.domain d).usedHeart + 1 } with
          tier := { s.tier with raw := s.tier.raw.set h d } }).finish cid .ok 0 h := by
  subst hdom
  have hin : ¬(decide (s.dom.fuses.maxDomains ≤ fieldAt k.raw 8 2) || decide (7 < fieldAt k.raw 49 1)) = true := by simp; omega
  exact (if_neg hin).trans (if_neg (by rw [ha]; decide))

theorem rawAlloc_good {h : Nat} (hp : bitOf (s.privs d) 0 = true) (hq : (s.domain d).usedHeart < (s.domain d).quotaHeart)
    (hf : s.freeRaw (fieldAt k.raw 49 1) = some h) : rawAlloc cid k s =
    ({ s.setDomain d { s.domain d with usedHeart := (s.domain d).usedHeart + 1 } with
      tier := { s.tier with raw := s.tier.raw.set h d } }).finish cid .ok 0 h := by
  rw [rawAlloc_active cid hdom hd hn ha, hp, if_neg (by decide), if_neg (by omega), hf]

theorem rawAlloc_denied (hp : bitOf (s.privs d) 0 = false) : rawAlloc cid k s = s.finish cid .denied := by
  rw [rawAlloc_active cid hdom hd hn ha, hp, if_pos (by decide)]

theorem rawAlloc_quota (hp : bitOf (s.privs d) 0 = true) (hq : (s.domain d).quotaHeart ≤ (s.domain d).usedHeart) :
    rawAlloc cid k s = s.quotaFail.finish cid .quota := by
  rw [rawAlloc_active cid hdom hd hn ha, hp, if_neg (by decide), if_pos (by omega)]

end

/-- The raw command in its first phase passes RAW_FREE's check of phases. -/
theorem State.SubmittedAdmin.rawFree_ok (h : s.SubmittedAdmin cid 0x1D k) :
    (cmdOpcode k.raw == 0x38 && cmdAdminOp k.raw == 0x1D && (k.phase == .admitted || k.phase == .waiting)) = true := by
  rw [h.toCmd.opcode, h.adminOp, h.toCmd.admitted]
  rfl

/-- RAW_FREE of an extent that a command or a run still uses. -/
theorem rawFree_busy {d : Nat} (hf : s.tier.raw.find? (fieldAt k.raw 8 4) = some d) (hb : s.rawBusy (fieldAt k.raw 8 4) = true) :
    rawFree cid k s = s.setCmd cid { k with phase := .waiting } := by
  rw [rawFree, hf]
  exact if_pos hb

/-- RAW_FREE of an extent that nothing uses. -/
theorem rawFree_free {d : Nat} (hf : s.tier.raw.find? (fieldAt k.raw 8 4) = some d) (hb : s.rawBusy (fieldAt k.raw 8 4) = false) :
    ∃ u : State, rawFree cid k s = u.finish cid .ok ∧ u.tier = { s.tier with raw := s.tier.raw.erase (fieldAt k.raw 8 4) } ∧
      (u.domain d).usedHeart = (s.domain d).usedHeart - 1 ∧ (∀ e, e ≠ d → u.domain e = s.domain e) ∧ u.qmg = s.qmg ∧ u.host = s.host ∧
      u.win = s.win := by
  let h := fieldAt k.raw 8 4
  let v := { s.pnmStack (h / 512) with regions := (s.pnmStack (h / 512)).regions.filter fun e => e.2.1 != h }
  let w := (s.setPnmStack (h / 512) v).setDomain d { s.domain d with usedHeart := (s.domain d).usedHeart - 1 }
  refine ⟨{ w with tier := { w.tier with raw := w.tier.raw.erase h } }, ?_, rfl, ?_, fun e he => ?_, rfl, rfl, rfl⟩
  · rw [rawFree, hf]
    exact if_neg (by rw [hb]; decide)
  · exact congrArg Domain.usedHeart (Table.getD_set_self s.dom.doms d _ {})
  · exact Table.getD_set_ne s.dom.doms _ {} he

end

/-- Settles O29: an extent is taken or refused, freed or waited for; a rule is written and deleted. -/
theorem rawExtentsAndRules : Obligations.RawExtentsAndRules := by
  intro s t cid k
  refine ⟨fun h hd hn ha => ⟨fun e hp hq hf => ?_, fun hp => ?_, fun hp hq => ?_⟩, fun h d hf => ⟨fun hb => ?_, fun hb => ?_⟩,
    fun h r hr hok => ?_, fun h hd => ⟨fun hh => ?_, fun hh => ?_⟩⟩
  · exact (h.step t _).trans (congrArg done (rawAlloc_good (s := s.at t) cid rfl hd hn ha hp hq hf))
  · exact (h.step t _).trans (congrArg done (rawAlloc_denied (s := s.at t) cid rfl hd hn ha hp))
  · exact (h.step t _).trans (congrArg done (rawAlloc_quota (s := s.at t) cid rfl hd hn ha hp hq))
  · exact congrArg done ((h.toCmd.run t (h.rawFree_ok cid) _).trans (rawFree_busy (s := s.at t) cid hf hb))
  · obtain ⟨u, hu, hrest⟩ := rawFree_free (s := s.at t) cid hf hb
    exact ⟨u, congrArg done ((h.toCmd.run t (h.rawFree_ok cid) _).trans hu), hrest⟩
  · subst hr
    refine (h.step t _).trans ?_
    have hok' : (s.at t).ruleRefusal (fieldAt k.raw 8 2) ((s.at t).cmdRead k (cmdPtrA k.raw) 64) = none := hok
    rw [ruleWrite, hok']
    rfl
  · refine (h.step t _).trans ?_
    rw [ruleDelete, State.at_dom, if_neg (Nat.not_le.mpr hd), if_pos hh]
    rfl
  · refine (h.step t _).trans ?_
    rw [ruleDelete, State.at_dom, if_neg (Nat.not_le.mpr hd), if_neg (by rw [hh]; decide)]

end Sys2Proof.Machine
end

section
/-!
Mutations, the Wings, and the commands of collections and sources (03 R67 to R107).
-/

namespace Sys2Proof.Machine

theorem find?_modify {α : Type} (t : Table α) (k : Nat) (f : α → α) (j : Nat) :
    (t.modify k f).find? j = if j = k then (t.find? k).map f else t.find? j := by
  unfold Table.modify
  split
  · next h =>
    split
    · next hj => rw [hj, h]; rfl
    · rfl
  · next a h =>
    split
    · next hj => rw [hj, Table.find?_set_self, h]; rfl
    · next hj => rw [Table.find?_set_ne _ _ hj]

/-! ### A tail that is neither full nor aged takes an item (R73, R95, R96) -/

theorem Coll.tailAged_eq_false {c : Coll} {tt : Nat} :
    c.tailAged tt = false ↔ ∀ n, c.tail.head? = some n → ∀ x, c.slots.find? n = some x → tt < x.enteredAt + c.sealAfter := by
  unfold Coll.tailAged
  cases c.tail with
  | nil => simp
  | cons n l => cases h : c.slots.find? n <;> simp [h]

theorem Coll.sealIfDue_of {c : Coll} {tt : Nat} (hf : c.tail.length < c.sealAt) (ha : c.tailAged tt = false) : c.sealIfDue tt = c := by
  rw [Coll.sealIfDue, ha, Coll.tailFull, decide_eq_false (by omega)]
  rfl

theorem Coll.compactIfDue_of {c : Coll} (h : c.segCount < c.compactAt) : c.compactIfDue = c := by
  rw [Coll.compactIfDue, decide_eq_false (by omega), Bool.and_false]
  rfl

/-- What a decided item leaves of a collection: its limits, its segments, and a tail at most one longer whose oldest item has not
aged. -/
structure Coll.Stamped (c d : Coll) (tt : Nat) : Prop where
  sealAt : d.sealAt = c.sealAt
  segs : d.segs = c.segs
  compactAt : d.compactAt = c.compactAt
  tail : d.tail.length ≤ c.tail.length + 1
  young : d.tailAged tt = false

theorem Coll.met_eq (c : Coll) (src q : Nat) : c.met src q = { c with floors := (c.met src q).floors } := by
  unfold Coll.met
  split
  · rfl
  split <;> rfl

theorem Coll.stampDelete_eq (c : Coll) (key q : Nat) (b : Bool) : c.stampDelete key q b = { c with slots := (c.stampDelete key q b).slots } := by
  unfold Coll.stampDelete
  split <;> rfl

/-- A deletion stamp leaves when each item entered. -/
theorem Coll.enteredAt_stampDelete (c : Coll) (key q : Nat) (b : Bool) {n : Nat} {x : Slot} (h : (c.stampDelete key q b).slots.find? n = some x) :
    ∃ y, c.slots.find? n = some y ∧ x.enteredAt = y.enteredAt := by
  unfold Coll.stampDelete at h
  split at h
  · exact ⟨x, h, rfl⟩
  · next m hm =>
    rw [show Table.find? _ n = _ from find?_modify c.slots m _ n] at h
    split at h
    · next hn =>
      obtain ⟨y, hy, hxy⟩ := Option.map_eq_some_iff.mp h
      exact ⟨y, hn ▸ hy, hxy ▸ rfl⟩
    · exact ⟨x, h, rfl⟩

theorem Coll.addSlot_stamped {c : Coll} {x : Slot} (ha : c.tailAged x.enteredAt = false) (h1 : 1 ≤ c.sealAfter) :
    c.Stamped (c.addSlot x) x.enteredAt := by
  have key (m : Nat) (d : Coll) (ht : d.tail = c.tail ++ [m]) (hs : d.slots = c.slots.set m x) (hd : d.sealAfter = c.sealAfter) :
      d.tailAged x.enteredAt = false := by
    rw [Coll.tailAged_eq_false] at ha ⊢
    intro n hn y hy
    rw [hd]
    rw [hs] at hy
    by_cases hnm : n = m
    · subst hnm
      rw [Table.find?_set_self] at hy
      obtain rfl := Option.some.inj hy
      omega
    · rw [Table.find?_set_ne _ _ hnm] at hy
      refine ha n ?_ y hy
      cases hc : c.tail with
      | nil =>
        rw [ht, hc] at hn
        exact absurd (Option.some.inj hn).symm hnm
      | cons a l =>
        rw [ht, hc] at hn
        exact hn
  unfold Coll.addSlot
  split
  · next m rest hf => exact ⟨rfl, rfl, rfl, by simp, key m _ rfl rfl rfl⟩
  · exact ⟨rfl, rfl, rfl, by simp, key c.nextSlot _ rfl rfl rfl⟩

/-- A change of floors and stamps alone. -/
structure Coll.Kept (c d : Coll) (tt : Nat) : Prop where
  sealAt : d.sealAt = c.sealAt
  sealAfter : d.sealAfter = c.sealAfter
  segs : d.segs = c.segs
  compactAt : d.compactAt = c.compactAt
  tail : d.tail = c.tail
  young : d.tailAged tt = false

theorem Coll.kept_met {c : Coll} {tt : Nat} (ha : c.tailAged tt = false) (src q : Nat) : c.Kept (c.met src q) tt := by
  rw [c.met_eq]
  exact ⟨rfl, rfl, rfl, rfl, rfl, ha⟩

theorem Coll.Kept.stampDelete {c d : Coll} {tt : Nat} (h : c.Kept d tt) (key q : Nat) (b : Bool) : c.Kept (d.stampDelete key q b) tt := by
  have heq := d.stampDelete_eq key q b
  have htail : (d.stampDelete key q b).tail = d.tail := by rw [heq]
  have hafter : (d.stampDelete key q b).sealAfter = d.sealAfter := by rw [heq]
  refine ⟨by rw [heq]; exact h.sealAt, hafter.trans h.sealAfter, by rw [heq]; exact h.segs, by rw [heq]; exact h.compactAt, htail.trans h.tail, ?_⟩
  rw [Coll.tailAged_eq_false, htail, hafter]
  intro n hn x hx
  obtain ⟨y, hy, hxy⟩ := d.enteredAt_stampDelete key q b hx
  rw [hxy]
  exact Coll.tailAged_eq_false.mp h.young n hn y hy

theorem Coll.Kept.stamped {c d : Coll} {tt : Nat} (h : c.Kept d tt) : c.Stamped d tt :=
  ⟨h.sealAt, h.segs, h.compactAt, by rw [h.tail]; omega, h.young⟩

theorem Coll.Kept.addSlot {c d : Coll} {x : Slot} (h : c.Kept d x.enteredAt) (h1 : 1 ≤ c.sealAfter) : c.Stamped (d.addSlot x) x.enteredAt := by
  have ha := Coll.addSlot_stamped h.young (by rw [h.sealAfter]; exact h1)
  exact ⟨ha.sealAt.trans h.sealAt, ha.segs.trans h.segs, ha.compactAt.trans h.compactAt, h.tail ▸ ha.tail, ha.young⟩

theorem Coll.stampItem_stamped {c : Coll} {tt : Nat} (ha : c.tailAged tt = false) (h1 : 1 ≤ c.sealAfter) (op src q : Nat) (it : Item) :
    c.Stamped (c.stampItem op src q tt it).1 tt := by
  have hmet := Coll.kept_met ha src q
  have hdel : c.Kept (if op = 0x08 then c.met src q else (c.met src q).stampDelete it.key q (op == 0x0A)) tt := by
    split
    · exact hmet
    · exact hmet.stampDelete _ _ _
  unfold Coll.stampItem
  dsimp only
  split
  · exact hmet.stamped
  split
  · exact hdel.stamped
  · exact hdel.addSlot (x := { key := it.key, ins := q, attrs := it.attrs, nav := it.nav, full := it.full, source := src, enteredAt := tt }) h1

/-- An item stamped with room left neither seals the tail nor starts a compaction. -/
theorem Coll.Stamped.settled {c d : Coll} {tt : Nat} (h : c.Stamped d tt) (hr : c.tail.length + 1 < c.sealAt) (hc : c.segCount < c.compactAt) :
    (d.sealIfDue tt).compactIfDue = d := by
  have htail := h.tail
  have hseg : d.segCount = c.segCount := by rw [Coll.segCount, h.segs, Coll.segCount]
  rw [Coll.sealIfDue_of (by rw [h.sealAt]; omega) h.young, Coll.compactIfDue_of (by rw [hseg, h.compactAt]; exact hc)]

/-! ### Mutations (R74 to R87) -/

theorem Coll.slotsNeeded_one (c : Coll) (op src q : Nat) (it : Item) : c.slotsNeeded op src q [it] ≤ 1 := by
  unfold Coll.slotsNeeded
  rw [List.foldl_cons, List.foldl_nil]
  dsimp only
  split <;> omega

/-- Writing a command's results leaves the collections, the sources and the fabric's state. -/
theorem State.cmdWrite_keeps (s : State) (cid ptr off : Nat) (bs : List Byte) :
    (s.cmdWrite cid ptr off bs).wlk = s.wlk ∧ (s.cmdWrite cid ptr off bs).fab = s.fab := by
  unfold State.cmdWrite
  split
  · exact ⟨rfl, rfl⟩
  split
  · rw [State.writeBytes_eq]
    exact ⟨rfl, rfl⟩
  · exact ⟨rfl, rfl⟩

theorem State.coll?_setColl_self (s : State) (n : Nat) (c : Coll) : (s.setColl n c).coll? n = some c := Table.find?_set_self _ _ _

theorem State.coll?_setColl_ne (s : State) {n m : Nat} (c : Coll) (h : m ≠ n) : (s.setColl n c).coll? m = s.coll? m := Table.find?_set_ne _ _ h

theorem State.source?_setSource_self (s : State) (n : Nat) (v : Source) : (s.setSource n v).source? n = some v := Table.find?_set_self _ _ _

theorem State.holdForTwin_none {s : State} {coll : Nat} (h : s.fab.repls.find? coll = none) (op q : Nat) (raw : List Byte) :
    s.holdForTwin coll op q raw = s := by
  rw [State.holdForTwin, h]

theorem State.replicate_none {s : State} {coll : Nat} (h : s.fab.repls.find? coll = none) (w : Nat) : s.replicate coll w = s := by
  rw [State.replicate, h]

/-- One item that the collection takes. -/
theorem State.stampGo_one {s : State} {coll src : Nat} {c : Coll} {v : Source} (cid op q ptr : Nat) (raw : List Byte)
    (hc : s.coll? coll = some c) (hv : s.source? src = some v) (ha : c.tailAged s.tapeTime = false) (hr : c.tail.length + 1 < c.sealAt)
    (h1 : 1 ≤ c.sealAfter) (hseg : c.segCount < c.compactAt) (hrep : s.fab.repls.find? coll = none) :
    let r := c.stampItem op src q s.tapeTime (c.itemOf op raw)
    s.stampGo cid coll op src q ptr 0 [raw] =
      (((s.setColl coll r.1).setSource src { v with next := v.next + 1, stamped := true }).cmdWrite cid ptr 0 [BitVec.ofNat 8 r.2], 1) := by
  intro r
  have hseal : c.sealIfDue s.tapeTime = c := Coll.sealIfDue_of (by omega) ha
  have hset := (Coll.stampItem_stamped ha h1 op src q (c.itemOf op raw)).settled hr hseg
  have hfull : c.tailFull = false := decide_eq_false (by omega)
  have hv' : (s.setColl coll r.1).source? src = some v := hv
  have hrep' : ((s.setColl coll r.1).setSource src { v with next := v.next + 1, stamped := true }).fab.repls.find? coll = none := hrep
  unfold State.stampGo
  rw [hc]
  dsimp only
  rw [hseal, hfull, Bool.and_false, if_neg (by decide), hset, hv']
  dsimp only
  rw [State.holdForTwin_none hrep', ite_self]
  rfl

theorem State.finishMut_repls (s : State) (cid src : Nat) (st : Status) (n : Nat) : (s.finishMut cid src st n).fab.repls = s.fab.repls := by
  rw [State.finishMut_eq, (s.postStep_post cid _ _).rest]

section
variable {s : State} {cid : Nat} {k : Cmd} {c : Coll} (hk : s.cmd? cid = some k) (hp : k.phase = .admitted)
  (hc : s.coll? (mutColl k.raw) = some c) (hn : mutCount k.raw ≤ 65536)
include hk hp hc hn

/-- A mutation that fails its checks stamps nothing. -/
theorem mutate_refused {st : Status} (h : s.mutCheck c (mutSource k.raw) (cmdPos k.raw) = some st) :
    mutate cid s = s.finishMut cid (mutSource k.raw) st 0 := by
  unfold mutate
  simp only [hk, hc, hp, h, beq_self_eq_true, Bool.not_true, Bool.false_eq_true, if_false, if_neg (Nat.not_lt.mpr hn)]

/-- A mutation of one item that passes its checks, in a collection with room for it. -/
theorem mutate_one {v : Source} {raw : List Byte} (hv : s.source? (mutSource k.raw) = some v) (h0 : k.progress = 0)
    (hcheck : s.mutCheck c (mutSource k.raw) (cmdPos k.raw) = none) (hitems : s.itemList c k = [raw]) (hslots : c.slots.length + 1 < 2 ^ 32)
    (ha : c.tailAged s.tapeTime = false) (hr : c.tail.length + 1 < c.sealAt)
    (h1 : 1 ≤ c.sealAfter) (hseg : c.segCount < c.compactAt) (hrep : s.fab.repls.find? (mutColl k.raw) = none)
    (hgrow : s.growColl c (c.slots.length + c.slotsNeeded (cmdOpcode k.raw) (mutSource k.raw) (cmdPos k.raw) [c.itemOf (cmdOpcode k.raw) raw]) =
      (s, c, true)) :
    let r := c.stampItem (cmdOpcode k.raw) (mutSource k.raw) (cmdPos k.raw) s.tapeTime (c.itemOf (cmdOpcode k.raw) raw)
    let v1 := v.raise (cmdPos k.raw - 1)
    let v2 : Source := { v1 with next := v1.next + 1, stamped := true }
    let u := (((s.setColl (mutColl k.raw) c).setSource (mutSource k.raw) v1).setColl (mutColl k.raw) r.1).setSource (mutSource k.raw) v2
    let u := u.cmdWrite cid (cmdPtrB k.raw) 0 [BitVec.ofNat 8 r.2]
    mutate cid s = (if bitOf (cmdFlags k.raw) 0 then u.setSource (mutSource k.raw) (v2.raise (cmdPos k.raw)) else u).finishMut cid
      (mutSource k.raw) .ok 1 := by
  intro r v1 v2 u0 u
  have hneed := c.slotsNeeded_one (cmdOpcode k.raw) (mutSource k.raw) (cmdPos k.raw) (c.itemOf (cmdOpcode k.raw) raw)
  have hstamp : ((s.setColl (mutColl k.raw) c).setSource (mutSource k.raw) (v.raise (cmdPos k.raw - 1))).stampGo cid (mutColl k.raw)
      (cmdOpcode k.raw) (mutSource k.raw) (cmdPos k.raw) (cmdPtrB k.raw) 0 [raw] = (u, 1) :=
    State.stampGo_one cid _ _ _ raw (s.coll?_setColl_self _ c) (State.source?_setSource_self _ _ v1) ha hr h1 hseg hrep
  have hsrc : u.source? (mutSource k.raw) = some v2 := by
    rw [State.source?, (u0.cmdWrite_keeps _ _ _ _).1]
    exact State.source?_setSource_self _ _ v2
  have hv0 : (s.setColl (mutColl k.raw) c).source? (mutSource k.raw) = some v := hv
  have hfab : u.fab = s.fab := (u0.cmdWrite_keeps _ _ _ _).2
  have hroom : (if 2 ^ 32 - 1 < c.slots.length + c.slotsNeeded (cmdOpcode k.raw) (mutSource k.raw) (cmdPos k.raw)
      [c.itemOf (cmdOpcode k.raw) raw] then some Status.quota else none) = none := if_neg (by omega)
  have hlast : (if (1 = 0 && !(List.isEmpty [raw])) then u.setSource (mutSource k.raw) v else u) = u := if_neg (by simp)
  have hdone : ¬ 1 < [raw].length := by simp
  unfold mutate
  simp only [hk, hc, hp, hcheck, hitems, hgrow, hv0, h0, hstamp, hlast, hsrc, if_neg hdone, beq_self_eq_true, Bool.not_true,
    Bool.false_eq_true, if_false, if_true, if_neg (Nat.not_lt.mpr hn), List.map_cons, List.map_nil, Option.getD_some, List.drop_zero]
  rw [hroom]
  refine State.replicate_none ?_ _
  rw [State.finishMut_repls]
  split
  · exact hfab ▸ hrep
  · exact hfab ▸ hrep

end

section
variable {s : State} {src q : Nat} {c : Coll} {v : Source} (hv : s.source? src = some v)
include hv

theorem State.mutCheck_stale (h : q < c.horizon) : s.mutCheck c src q = some .stale := by
  rw [State.mutCheck, hv]
  exact if_pos h

theorem State.mutCheck_left (h : c.horizon ≤ q) (hw : q ≤ v.w) : s.mutCheck c src q = some .malformed := by
  rw [State.mutCheck, hv]
  exact (if_neg (Nat.not_lt.mpr h)).trans (if_pos hw)

theorem State.mutCheck_good (h : c.horizon ≤ q) (hw : v.w < q) (ha : v.active = true) : s.mutCheck c src q = none := by
  rw [State.mutCheck, hv]
  refine (if_neg (Nat.not_lt.mpr h)).trans ((if_neg (Nat.not_le.mpr hw)).trans (if_neg ?_))
  rw [ha]
  simp

end

/-- The three mutation steps run `mutate` once nothing must be stamped before. -/
theorem exec_mutation {s : State} {cid op : Nat} {k : Cmd} {i : Instr} (t : Nat)
    (hi : (op = 0x08 ∧ i = .insert t cid) ∨ (op = 0x09 ∧ i = .delete t cid) ∨ (op = 0x0A ∧ i = .upsert t cid))
    (h : s.Submitted cid op k) (he : s.mutEarlier cid k = false) : exec i s = .next (mutate cid (s.at t)).settle := by
  have he' : (s.at t).mutEarlier cid k = false := he
  have hcan : (s.at t).canMutate cid op = true := by
    rw [State.canMutate, State.at_cmd?, h.found]
    simp only [State.at_live, h.live, h.notWarm, h.opcode, he', Option.isNone_none, beq_self_eq_true, Bool.not_false, Bool.and_self]
  rcases hi with ⟨rfl, rfl⟩ | ⟨rfl, rfl⟩ | ⟨rfl, rfl⟩ <;> exact congrArg done (State.onlyIf_of hcan _)

/-- Settles O32: the three steps run `mutate`, whose checks refuse or let one item be stamped. -/
theorem mutations : Obligations.Mutations := by
  intro s t cid op k c v i hi h he hc hv hn h0
  rw [exec_mutation t hi h he]
  refine ⟨fun hlt => ?_, fun hge hle => ?_, fun raw hge hlt hact hleave hitems hslots ha hr h1 hseg hrep => ?_⟩
  · rw [mutate_refused (s := s.at t) h.found h.admitted hc hn (State.mutCheck_stale (s := s.at t) hv hlt)]
  · rw [mutate_refused (s := s.at t) h.found h.admitted hc hn (State.mutCheck_left (s := s.at t) hv hge hle)]
  · obtain rfl := h.opcode
    intro n hgrow r v1 v2 u0 u
    have hone := mutate_one (s := s.at t) (cid := cid) h.found h.admitted hc hn hv h0 (State.mutCheck_good (s := s.at t) hv hge hlt hact) hitems
      hslots ha hr h1 hseg hrep hgrow
    refine ⟨fun hf => ?_, fun hf => ?_⟩
    · rw [hf] at hone
      exact congrArg done hone
    · rw [hf] at hone
      exact congrArg done hone

/-! ### The Wings (R96 to R103) -/

theorem Coll.compactIfDue_merging {c : Coll} (h : c.merging.isSome = true) : c.compactIfDue = c := by
  rw [Coll.compactIfDue, ← Option.not_isSome, h]
  rfl

/-- A seal of the whole tail. -/
theorem Coll.sealIfDue_aged {c : Coll} {tt : Nat} (hne : c.tail ≠ []) (hs : c.segCount < 256) (ha : c.tailAged tt = true) : c.sealIfDue tt =
    { c with segs := c.segs.set c.nextSeg { state := .building, seq := c.nextSeal, slots := c.tail }, nextSeg := c.nextSeg + 1,
             nextSeal := c.nextSeal + 1, tail := [] } := by
  rw [Coll.sealIfDue, ha, Bool.or_true, if_pos rfl, Coll.seal, if_neg]
  simpa using ⟨hne, hs⟩

/-- An empty tail is not sealed. -/
theorem Coll.sealIfDue_nil {c : Coll} (h : c.tail = []) (tt : Nat) : c.sealIfDue tt = c := by
  rw [Coll.sealIfDue, Coll.seal, h]
  exact ite_self c

/-- A compaction that starts marks its inputs; nothing else of them changes. -/
theorem Coll.compactIfDue_keeps (c : Coll) : c.compactIfDue.dead = c.dead ∧ c.compactIfDue.slots = c.slots ∧
    c.compactIfDue.entering = c.entering ∧
    ∀ n, (c.compactIfDue.segs.find? n).map (fun z => (z.seq, z.slots, z.graph)) = (c.segs.find? n).map (fun z => (z.seq, z.slots, z.graph)) := by
  have hmark (t : Table Segment) (a n : Nat) : ((t.modify a fun g => { g with state := .compacting }).find? n).map
      (fun z => (z.seq, z.slots, z.graph)) = (t.find? n).map (fun z => (z.seq, z.slots, z.graph)) := by
    rw [find?_modify]
    split
    · next h => rw [h, Option.map_map]; rfl
    · rfl
  unfold Coll.compactIfDue
  split
  · split
    · split
      · exact ⟨rfl, rfl, rfl, fun n => (hmark _ _ n).trans (hmark _ _ n)⟩
      · exact ⟨rfl, rfl, rfl, fun _ => rfl⟩
    · exact ⟨rfl, rfl, rfl, fun _ => rfl⟩
  · exact ⟨rfl, rfl, rfl, fun _ => rfl⟩

theorem Coll.seal_entering (c : Coll) (tt : Nat) : (c.sealIfDue tt).entering = c.entering := by
  unfold Coll.sealIfDue Coll.seal
  split
  · split <;> rfl
  · rfl

/-- The segment that a compaction leaves. -/
def Coll.compacted (c : Coll) (a b : Nat) (x y : Segment) (g : Graph) (order : Nat) : Coll :=
  { (c.retire order a).retire order b with
    merging := none, nextSeg := c.nextSeg + 1
    segs := ((c.retire order a).retire order b).segs.set c.nextSeg
      { state := .sealed, seq := max x.seq y.seq, slots := x.slots ++ y.slots, graph := g, fromTail := false } }

theorem compactionDone_eq {c : Coll} {a b : Nat} {x y : Segment} (hm : c.merging = some (a, b)) (hab : a ≠ b) (hx : c.segs.find? a = some x)
    (hy : c.segs.find? b = some y) (ht : c.tail = []) (order tt : Nat) (g : Graph) :
    compactionDone order tt g c = (c.compacted a b x y g order).compactIfDue := by
  have hretire (n : Nat) : (((c.retire order a).retire order b).segs.find? n) = if n = b then (c.segs.find? b).map (fun g => { g with state := .retired })
      else if n = a then (c.segs.find? a).map (fun g => { g with state := .retired }) else c.segs.find? n := by
    show ((c.segs.modify a _).modify b _).find? n = _
    rw [find?_modify, find?_modify, find?_modify, if_neg hab.symm]
  have ha : ((c.retire order a).retire order b).segs.find? a = some { x with state := .retired } := by
    rw [hretire, if_neg hab, if_pos rfl, hx]
    rfl
  have hb : ((c.retire order a).retire order b).segs.find? b = some { y with state := .retired } := by
    rw [hretire, if_pos rfl, hy]
    rfl
  unfold compactionDone
  simp only [hm, hx, hy, ha, hb, Option.map_some, Option.getD_some]
  exact congrArg Coll.compactIfDue (Coll.sealIfDue_nil (c := c.compacted a b x y g order) ht tt)

theorem Coll.compacted_fields (c : Coll) (a b : Nat) (x y : Segment) (g : Graph) (order : Nat) : let d := (c.compacted a b x y g order).compactIfDue
    (d.segs.find? c.nextSeg).map (fun z => (z.seq, z.slots, z.graph)) = some (max x.seq y.seq, x.slots ++ y.slots, g) ∧
    (a, order) ∈ d.dead ∧ (b, order) ∈ d.dead ∧ d.slots = c.slots := by
  intro d
  obtain ⟨hdead, hslots, -, hsegs⟩ := (c.compacted a b x y g order).compactIfDue_keeps
  have hseg : (c.compacted a b x y g order).segs.find? c.nextSeg = some _ := Table.find?_set_self _ _ _
  refine ⟨?_, ?_, ?_, hslots⟩
  · rw [hsegs, hseg]
    rfl
  · rw [show d.dead = _ from hdead]
    exact List.mem_append_left _ (List.mem_append_right _ (.head _))
  · rw [show d.dead = _ from hdead]
    exact List.mem_append_right _ (.head _)

theorem State.modColl_found {s : State} {n : Nat} {c : Coll} (h : s.coll? n = some c) (f : Coll → Coll) : s.modColl n f = s.setColl n (f c) := by
  rw [State.modColl, h]

section
variable {s : State} {n : Nat} {c : Coll} (hc : s.coll? n = some c)
include hc

theorem State.reclaim_found : s.reclaim n = (s.giveHeart c.owner (c.extents - (c.reclaim (s.oldestOn n)).extentsFor (c.reclaim (s.oldestOn n)).slots.length)).setColl n
    { c.reclaim (s.oldestOn n) with
      extents := c.extents - (c.extents - (c.reclaim (s.oldestOn n)).extentsFor (c.reclaim (s.oldestOn n)).slots.length) } := by
  rw [State.reclaim, hc]

theorem State.startEntrance_free {u : State} (cid : Option Nat) (he : c.entering = none) (hu : s.takeHeart c.owner c.entranceExtents = (u, true)) :
    s.startEntrance n cid = (u.setColl n { c with
      entering := some (cid, c.horizon, c.entranceExtents)
      segs := c.segs.mapVal fun g => if g.state = .sealed then { g with state := .entering } else g }, .ok) := by
  rw [State.startEntrance, hc]
  simp only [he, Option.isSome_none, Bool.false_eq_true, if_false, hu]

theorem State.startEntrance_busy (cid : Option Nat) (he : c.entering.isSome = true) : s.startEntrance n cid = (s, .busy) := by
  rw [State.startEntrance, hc]
  exact if_pos he

theorem entrancePublish_idle (he : c.entering = none) (g : Graph) : entrancePublish n g s = s := by
  simp only [entrancePublish, hc, he]

end

/-- The collection once its Entrance is published (R94, R102). -/
def Coll.published (c : Coll) (order h tt : Nat) (g : Graph) : Coll := ((c.publish order h g).sealIfDue tt).compactIfDue

theorem Coll.published_entering (c : Coll) (order h tt : Nat) (g : Graph) : (c.published order h tt g).entering = none :=
  ((Coll.compactIfDue_keeps _).2.2.1).trans (Coll.seal_entering _ _)

theorem State.reclaim_keeps {s : State} {n : Nat} {c : Coll} (hc : s.coll? n = some c) : ((s.reclaim n).coll? n).map (·.entering) = some c.entering ∧
    (∀ j, j ≠ n → (s.reclaim n).coll? j = s.coll? j) ∧ (s.reclaim n).qmg = s.qmg ∧ (s.reclaim n).host = s.host ∧ (s.reclaim n).win = s.win := by
  rw [State.reclaim_found hc]
  refine ⟨?_, fun j hj => State.coll?_setColl_ne _ _ hj, rfl, rfl, rfl⟩
  rw [State.coll?_setColl_self]
  rfl

/-- A publish ends the Entrance, frees what it can, and completes the command. -/
theorem entrancePublish_runs {s : State} {n : Nat} {c : Coll} (hc : s.coll? n = some c) {cid h m : Nat}
    (he : c.entering = some (some cid, h, m)) (g : Graph) :
    ∃ u : State, entrancePublish n g s = u.finish cid .ok ∧ (u.coll? n).map (·.entering) = some none ∧ (∀ j, j ≠ n → u.coll? j = s.coll? j) ∧
      u.qmg = s.qmg ∧ u.host = s.host ∧ u.win = s.win := by
  have hw : ((s.setColl n (c.published s.wlk.order h s.tapeTime g)).giveHeart (c.published s.wlk.order h s.tapeTime g).owner m).coll? n =
      some (c.published s.wlk.order h s.tapeTime g) := State.coll?_setColl_self s n _
  obtain ⟨hent, hother, hqmg, hhost, hwin⟩ := State.reclaim_keeps hw
  refine ⟨_, ?_, hent.trans (congrArg some (c.published_entering _ _ _ _)), fun j hj => (hother j hj).trans (State.coll?_setColl_ne s _ hj),
    hqmg, hhost, hwin⟩
  unfold entrancePublish
  rw [hc]
  simp only [he, Coll.published]

/-- The entrance command in its first phase. -/
theorem exec_entrance {s : State} {cid : Nat} {k : Cmd} (h : s.Submitted cid 0x0B k) (ha : s.accepts pgWlk = true) (hp : cmdPos k.raw ≤ s.tapePos)
    (t : Nat) : exec (.entrance t cid) s = .next (State.settle (match (s.at t).startEntrance (fieldAt k.raw 8 4) (some cid) with
      | (s, .ok) => s.setCmd cid { k with phase := .started }
      | (s, st) => s.finish cid st)) := by
  have hok : (k.isNew 0x0B && (s.at t).accepts pgWlk) = true := by
    rw [h.isNew]
    exact ha
  have hnow : ¬ (s.at t).toSchedule k = true := by
    have hle : decide ((s.at t).tapePos < cmdPos k.raw) = false := decide_eq_false (Nat.not_lt.mpr hp)
    rw [State.toSchedule, hle, Bool.and_false]
    decide
  exact congrArg done ((h.run t (ok := fun k => k.isNew 0x0B && (s.at t).accepts pgWlk) hok _).trans (if_neg hnow))

/-- Settles O33: each step changes its one collection, by the laws above. -/
theorem wings : Obligations.Wings := by
  intro s t n c hl hc
  have hmod (f : Coll → Coll) : (s.at t).onlyIf s.live (·.modColl n f) = (s.at t).setColl n (f c) :=
    (State.onlyIf_of hl _).trans (State.modColl_found (s := s.at t) hc f)
  refine ⟨fun hne hs ha hm => ?_, fun hf ha hs => ?_, fun seg x g hx hst hm => ?_, fun a b x y g hm hab hx hy ht => ?_,
    fun cid k h ha hn hp => ⟨fun u he hu => ?_, fun he => ?_⟩, fun cid h m g he => ?_, fun he g => ?_⟩
  · exact congrArg done ((hmod _).trans (congrArg ((s.at t).setColl n)
      ((Coll.compactIfDue_merging (by rw [Coll.sealIfDue_aged hne hs ha]; exact hm)).trans (Coll.sealIfDue_aged hne hs ha))))
  · have hseal : c.sealIfDue (s.at t).tapeTime = c := by
      rw [Coll.sealIfDue, hf, ha]
      rfl
    exact congrArg done ((hmod _).trans (congrArg ((s.at t).setColl n) ((congrArg Coll.compactIfDue hseal).trans (Coll.compactIfDue_of hs))))
  · refine congrArg done ((hmod _).trans (congrArg ((s.at t).setColl n) ?_))
    simp only [segmentBuildDone, hx, hst, if_true]
    exact Coll.compactIfDue_merging hm
  · obtain ⟨hseg, hdead, hdead', hslots⟩ := c.compacted_fields a b x y g s.wlk.order
    refine ⟨_, _, congrArg done (hmod _), State.coll?_setColl_self _ _ _, ?_⟩
    rw [compactionDone_eq hm hab hx hy ht]
    exact ⟨hseg, hdead, hdead', hslots, fun m hm => State.coll?_setColl_ne _ _ hm, rfl, rfl⟩
  · rw [exec_entrance h ha hp, hn, State.startEntrance_free (s := s.at t) hc (some cid) he hu]
  · rw [exec_entrance h ha hp, hn, State.startEntrance_busy (s := s.at t) hc (some cid) he]
  · obtain ⟨u, hu, hrest⟩ := entrancePublish_runs (s := s.at t) hc he g
    exact ⟨u, congrArg done ((State.onlyIf_of hl _).trans hu), hrest⟩
  · exact congrArg done ((State.onlyIf_of hl _).trans (entrancePublish_idle (s := s.at t) hc he g))

end Sys2Proof.Machine
end

section
/-!
The commands of collections and sources (03 R67 to R107; 13 R450; 23 R750).
-/

namespace Sys2Proof.Machine

/-! ### Extents of Heart taken and returned (12 R408, R412) -/

/-- Whether extents can be taken depends on the quota and on what is free. -/
theorem State.takeHeart_snd (s : State) (d n : Nat) : (s.takeHeart d n).2 =
    (decide (n = 0) || (!decide ((s.domain d).quotaHeart < (s.domain d).usedHeart + n) && !decide (s.freeInter < n))) := by
  unfold State.takeHeart
  dsimp only
  by_cases h0 : n = 0
  · simp [h0]
  by_cases hq : (s.domain d).quotaHeart < (s.domain d).usedHeart + n
  · simp [h0, hq]
  by_cases hf : s.freeInter < n
  · simp [h0, hq, hf]
  · simp [h0, hq, hf]

theorem State.at_takeHeart_snd (s : State) (t d n : Nat) : ((s.at t).takeHeart d n).2 = (s.takeHeart d n).2 := by
  rw [State.takeHeart_snd, State.takeHeart_snd]
  rfl

/-- Extents that are taken are charged to their domain. -/
theorem State.takeHeart_took {s : State} {d n : Nat} (h : (s.takeHeart d n).2 = true) : ∃ u : State, s.takeHeart d n = (u, true) ∧
    u = { s with dom := u.dom, tier := u.tier } ∧ (u.domain d).usedHeart = (s.domain d).usedHeart + n := by
  have hparts := (s.takeHeart_snd d n).symm.trans h
  simp only [Bool.or_eq_true, Bool.and_eq_true, Bool.not_eq_true', decide_eq_true_eq, decide_eq_false_iff_not] at hparts
  unfold State.takeHeart
  dsimp only
  by_cases h0 : n = 0
  · rw [if_pos h0]
    exact ⟨s, rfl, rfl, by rw [h0]; rfl⟩
  · obtain ⟨hq, hf⟩ := hparts.resolve_left h0
    rw [if_neg h0, if_neg hq, if_neg hf]
    exact ⟨_, rfl, rfl, congrArg Domain.usedHeart (Table.getD_set_self s.dom.doms d _ {})⟩

theorem State.domain_setDomain_self (s : State) (d : Nat) (v : Domain) : (s.setDomain d v).domain d = v := Table.getD_set_self _ _ _ _

theorem ceilDiv_zero (n : Nat) (h : 0 < n) : ceilDiv 0 n = 0 := by
  rw [ceilDiv, if_neg (by omega), Nat.zero_add]
  exact Nat.div_eq_of_lt (by omega)

theorem Coll.extentsFor_zero (c : Coll) : c.extentsFor 0 = 1 := by
  rw [Coll.extentsFor, Nat.zero_mul, ceilDiv_zero _ (by decide)]

theorem Coll.baseFor_zero (c : Coll) : c.baseFor 0 = 0 := by
  rw [Coll.baseFor, Nat.zero_mul, ceilDiv_zero _ (by decide), ite_self]

theorem Coll.baseFor_of_fullDim {c : Coll} (h : c.fullDim = 0) (n : Nat) : c.baseFor n = 0 := if_pos h

theorem State.growFull_zero (s : State) (c : Coll) : s.growFull c 0 = (s, c.fullVolume, true) := by
  rw [State.growFull]
  exact if_pos (Nat.zero_le _)

/-- A collection that needs no Base takes its extents of Heart alone. The charge and the growth are made opaque first, so that nothing
evaluates the sizes of extents. -/
theorem State.growColl_heart {s u : State} {c : Coll} {n : Nat} (hb : c.baseFor n = 0) (hx : c.extents = 0)
    (hu : s.takeHeart c.owner (c.extentsFor n) = (u, true)) : s.growColl c n = (u, { c with extents := c.extentsFor n }, true) := by
  have hfull := u.growFull_zero c
  have hdef : State.growColl = State.growColl := rfl
  conv at hdef => rhs; delta State.growColl
  rw [hdef]
  generalize State.takeHeart = charge at hu ⊢
  generalize State.growFull = grow at hfull ⊢
  simp only [hx, Nat.sub_zero, hu, hb, hfull, Nat.zero_add]

/-- A collection that needs no Base grows when its Heart can be charged. -/
theorem State.growColl_took {s : State} {c : Coll} {n : Nat} (hb : c.baseFor n = 0) (hx : c.extents = 0)
    (h : (s.takeHeart c.owner (c.extentsFor n)).2 = true) : ∃ u : State, s.growColl c n = (u, { c with extents := c.extentsFor n }, true) ∧
      u = { s with dom := u.dom, tier := u.tier } ∧ (u.domain c.owner).usedHeart = (s.domain c.owner).usedHeart + c.extentsFor n := by
  obtain ⟨u, hu, hrest, hused⟩ := State.takeHeart_took h
  exact ⟨u, State.growColl_heart hb hx hu, hrest, hused⟩

/-! ### Creation and destruction (R67, R68, R750) -/

section
variable {s : State} {k : Cmd} {n : Nat} (cid : Nat) (hn : fieldAt k.raw 8 4 = n)
include hn

/-- A good descriptor of a free number. -/
theorem collectionCreate_good {desc schema : List Byte} {c : Coll} (hd : s.cmdRead k (cmdPtrA k.raw) 64 = desc)
    (hs : s.cmdRead k (cmdPtrB k.raw) 32 = schema) (hc : collOf desc schema s.wlk.watermark = c) (hver : fieldAt desc 0 1 / 16 = 1)
    (hown : c.owner < s.dom.fuses.maxDomains) (hnum : n < 65536) (hfree : s.coll? n = none) (hact : (s.domain c.owner).state = .active)
    (hrange : c.inRange = true) (hschema : schemaOk schema = true) {u : State} {d : Coll} (hgrow : s.growColl c 0 = (u, d, true)) :
    collectionCreate cid k s = (u.setColl n d).finish cid .ok := by
  have hin : (decide (s.dom.fuses.maxDomains ≤ c.owner) || decide (65536 ≤ n)) = false := by simp; omega
  unfold collectionCreate
  simp only [hn, hd, hs, hc, hver, hin, hfree, hact, hrange, hschema, hgrow, bne_self_eq_false, Option.isSome_none, Bool.not_true, Bool.or_self,
    Bool.false_eq_true, if_false]

theorem collectionCreate_busy {desc schema : List Byte} {c : Coll} (hd : s.cmdRead k (cmdPtrA k.raw) 64 = desc)
    (hs : s.cmdRead k (cmdPtrB k.raw) 32 = schema) (hc : collOf desc schema s.wlk.watermark = c) (hver : fieldAt desc 0 1 / 16 = 1)
    (hown : c.owner < s.dom.fuses.maxDomains) (hnum : n < 65536) (hused : (s.coll? n).isSome = true) :
    collectionCreate cid k s = s.finish cid .busy := by
  have hin : (decide (s.dom.fuses.maxDomains ≤ c.owner) || decide (65536 ≤ n)) = false := by simp; omega
  unfold collectionCreate
  simp only [hn, hd, hs, hc, hver, hin, hused, bne_self_eq_false, Bool.false_eq_true, if_false, if_true]

theorem collectionDestroy_open {c : Coll} (hc : s.openColl? n = some c) :
    collectionDestroy cid k s = (s.setColl n { c with isClosed := some cid }).setCmd cid { k with phase := .waiting } := by
  simp only [collectionDestroy, hn, hc]

theorem collectionDestroy_absent (hc : s.openColl? n = none) : collectionDestroy cid k s = s.finish cid .notFound := by
  simp only [collectionDestroy, hn, hc]

theorem horizonSet_open {c : Coll} (hc : s.openColl? n = some c) :
    horizonSet cid k s = (s.setColl n (c.raiseHorizon (cmdPos k.raw) s.wlk.watermark)).finish cid .ok := by
  simp only [horizonSet, hn, hc]

theorem snapshotRelease_held {c : Coll} (hc : s.openColl? n = some c) (hp : cmdPos k.raw ∈ c.snapshots) :
    snapshotRelease cid k s = (s.setColl n { c with snapshots := c.snapshots.erase (cmdPos k.raw) }).finish cid .ok := by
  simp only [snapshotRelease, hn, hc, List.contains_iff_mem.mpr hp, if_true]

/-- A checkpoint records the collection as it stands, and where each source stood. -/
theorem collectionCheckpoint_good {c : Coll} {v : Volume} (hc : s.openColl? n = some c) (hv : s.openVolume? (fieldAt k.raw 12 4) = some v)
    (ho : v.owner = c.owner) (hb : s.writeBarred (fieldAt k.raw 12 4) = false) : collectionCheckpoint cid k false s =
    (s.withBft fun f => { f with
      seq := f.seq + 1
      ckpts := f.ckpts.set (fieldAt k.raw 12 4 * 65536 + n)
        { coll := c, floors := s.wlk.sources.map fun e => (e.1, e.2.w, e.2.next), seq := s.bft.seq + 1 } }).finish cid .ok := by
  simp only [collectionCheckpoint, hn, hc, hv, ho, hb, bne_self_eq_false, Bool.false_eq_true, if_false]

section
variable {ck : Checkpoint} {v : Volume} (hck : s.bft.ckpts.find? (fieldAt k.raw 12 4 * 65536 + n) = some ck)
  (hv : s.openVolume? (fieldAt k.raw 12 4) = some v) (hnum : n < 65536) (hact : (s.domain ck.coll.owner).state = .active)
  (ho : v.owner = ck.coll.owner)
include hck hv hnum hact ho

theorem collectionRestore_found : collectionRestore cid k s = (s.installColl n ck).1.finish cid (s.installColl n ck).2 := by
  have hin : (decide (65536 ≤ n) || ((s.domain ck.coll.owner).state != .active)) = false := by
    rw [decide_eq_false (by omega), hact]
    rfl
  simp only [collectionRestore, hn, hck, hv, hin, ho, bne_self_eq_false, Bool.false_eq_true, if_false]

theorem collectionRestore_busy (hused : (s.coll? n).isSome = true) : collectionRestore cid k s = s.finish cid .busy := by
  rw [collectionRestore_found cid hn hck hv hnum hact ho, State.installColl, hused]
  rfl

end

end

/-- A checkpoint without floors is installed as it was recorded, with no work in progress. -/
theorem State.installColl_free {s u : State} {n : Nat} {ck : Checkpoint} {d : Coll} (hfree : s.coll? n = none) (hmaj : ck.major = 1)
    (hfl : ck.floors = []) (hgrow : s.growColl (ck.coll.restored []) ck.coll.slots.length = (u, d, true)) :
    s.installColl n ck = (u.setColl n d, .ok) := by
  have hslots : (ck.coll.restored []).slots = ck.coll.slots := rfl
  simp only [State.installColl, hfree, hmaj, hfl, hslots, hgrow, Option.isSome_none, bne_self_eq_false, Bool.false_eq_true, if_false,
    List.foldl_nil]

theorem Coll.extentsFor_restored (c : Coll) (fl : List (Nat × Nat × Nat)) (n : Nat) : (c.restored fl).extentsFor n = c.extentsFor n := rfl

/-- The last command on a closed collection has completed: the collection is gone and its extents return. -/
theorem drainColl_free {s : State} {n cid : Nat} {c : Coll} (hc : s.coll? n = some c) (hcl : c.isClosed = some cid)
    (hb : s.collBusy n cid = false) : ∃ u : State, s.drainColl n = u.finish cid .ok ∧ u.coll? n = none ∧
      (∀ j, j ≠ n → u.coll? j = s.coll? j) ∧
      (u.domain c.owner).usedHeart = (s.domain c.owner).usedHeart - (c.extents + (c.entering.map fun e => e.2.2).getD 0) ∧ u.qmg = s.qmg := by
  let w := s.giveHeart c.owner (c.extents + (c.entering.map fun e => e.2.2).getD 0)
  refine ⟨{ w with wlk := { w.wlk with colls := w.wlk.colls.erase n },
                   fab := { w.fab with shardMaps := w.fab.shardMaps.erase n, repls := w.fab.repls.erase n } }, ?_,
    Table.find?_erase_self _ _, fun j hj => Table.find?_erase_ne _ hj, ?_, rfl⟩
  · simp only [State.drainColl, hc, hcl, hb, Bool.false_eq_true, if_false]
    rfl
  · exact congrArg Domain.usedHeart (s.domain_setDomain_self c.owner _)

/-! ### Sources (R81, R84, R85) -/

section
variable {s : State} {k : Cmd} {n : Nat} (cid : Nat) (hn : fieldAt k.raw 12 2 = n)
include hn

theorem sourceSet_malformed (h : 256 ≤ n ∨ 2 < fieldAt k.raw 49 1) : sourceSet cid k s = s.finish cid .malformed := by
  subst hn
  exact if_pos (by simpa using h)

/-- A new Active source begins at the watermark (R84). -/
theorem sourceSet_new {map : List Byte} (h256 : n < 256) (hst : fieldAt k.raw 49 1 = 2) (hsrc : s.source? n = none)
    (hfloor : s.wlk.leastFloor.find? n = none) (hmap : s.cmdRead k (cmdPtrA k.raw) 512 = map)
    (hdom : ∀ d, s.dom.fuses.maxDomains ≤ d → bitmapBit map d = false) : ∃ u : State, sourceSet cid k s = u.finish cid .ok ∧
      u.source? n = some { active := true, domains := map, w := s.wlk.watermark } ∧ (∀ m, m ≠ n → u.source? m = s.source? m) ∧
      u.wlk.wasActive = true ∧ u.wlk.colls = s.wlk.colls ∧ u.host = s.host ∧ u.win = s.win := by
  have hin : (decide (256 ≤ n) || decide (2 < 2)) = false := by simp; omega
  have hany : ((List.range 4096).any fun d => decide (s.dom.fuses.maxDomains ≤ d) && bitmapBit map d) = false := by
    rw [List.any_eq_false]
    intro d _
    by_cases hd : s.dom.fuses.maxDomains ≤ d
    · simp [hdom d hd]
    · simp [hd]
  have hraise : ({ active := true, domains := map, w := s.wlk.watermark } : Source).raise s.wlk.watermark =
      { active := true, domains := map, w := s.wlk.watermark } := if_neg (Nat.lt_irrefl _)
  let w := s.setSource n { active := true, domains := map, w := s.wlk.watermark }
  refine ⟨State.raised { w with wlk := { w.wlk with wasActive := s.wlk.wasActive || true } }, ?_, Table.find?_set_self _ _ _,
    fun m hm => Table.find?_set_ne _ _ hm, Bool.or_true _, rfl, rfl, rfl⟩
  unfold sourceSet
  simp only [hn, hst, hmap, hin, hany, hsrc, hfloor, Bool.and_false, Bool.false_eq_true, if_false, Option.getD_none, Option.isNone_none,
    Bool.true_or, if_neg (show ¬ 2 = 0 by decide), decide_true, beq_self_eq_true, Bool.and_self, if_true, hraise]
  rfl

/-- Unregistering a source with no mutation outstanding removes it (R85). -/
theorem sourceSet_remove {v : Source} (h256 : n < 256) (hst : fieldAt k.raw 49 1 = 0) (hsrc : s.source? n = some v)
    (hbusy : s.qmg.cmds.any (fun e => [0x08, 0x09, 0x0A].contains (cmdOpcode e.2.raw) && mutSource e.2.raw == n) = false) :
    ∃ u : State, sourceSet cid k s = u.finish cid .ok ∧ u.source? n = none ∧
      (∀ m, m ≠ n → u.source? m = s.source? m) ∧ u.wlk.colls = s.wlk.colls ∧ u.host = s.host ∧ u.win = s.win := by
  have hin : (decide (256 ≤ n) || decide (2 < 0)) = false := by simp; omega
  refine ⟨State.raised { s with wlk := { s.wlk with sources := s.wlk.sources.erase n } }, ?_, Table.find?_erase_self _ _,
    fun m hm => Table.find?_erase_ne _ hm, rfl, rfl, rfl⟩
  unfold sourceSet
  simp only [hn, hst, hin, hsrc, hbusy, bne_self_eq_false, Bool.false_and, Bool.false_eq_true, if_false, if_true]

end

/-- Settles O34: each command is its own step, and what grows a collection charges its owner. -/
theorem collectionsAndSources : Obligations.CollectionsAndSources := by
  refine ⟨fun s t cid n k hk hn => ⟨fun desc schema h hd hs hver hown hnum => ?_, fun c hc => ⟨fun h => ?_, fun h => ?_, fun h hp => ?_,
    fun v h ha hv ho hb => ?_⟩, fun hc h => ?_, fun ck v h hck hv hnum hact ho => ⟨fun hused => ?_, fun hfree hmaj hfl hdim htake => ?_⟩,
    fun c m hl hc hcl hb => ?_⟩, fun s t cid k h => ?_⟩
  · intro c
    refine ⟨fun hfree hact hrange hschema htake => ?_, fun hused => ?_⟩
    · have htake' : ((s.at t).takeHeart c.owner (c.extentsFor 0)).2 = true := by
        rw [c.extentsFor_zero, State.at_takeHeart_snd]
        exact htake
      obtain ⟨u, hgrow, hrest, hheart⟩ := State.growColl_took (s := s.at t) c.baseFor_zero rfl htake'
      rw [c.extentsFor_zero] at hgrow hheart
      refine ⟨u.setColl n { c with extents := 1 }, (h.step t _).trans (congrArg done (collectionCreate_good (s := s.at t) cid hn hd.symm hs.symm rfl hver
        hown hnum hfree hact hrange hschema hgrow)), State.coll?_setColl_self _ _ _, hheart, fun j hj => ?_, ?_, ?_, ?_⟩
      · rw [State.coll?_setColl_ne _ _ hj, hrest]
        rfl
      all_goals rw [hrest]
      all_goals rfl
    · exact (h.step t _).trans (congrArg done (collectionCreate_busy (s := s.at t) cid hn hd.symm hs.symm rfl hver hown hnum hused))
  · exact (h.step t _).trans (congrArg done (collectionDestroy_open (s := s.at t) cid hn hc))
  · exact (h.step t _).trans (congrArg done (horizonSet_open (s := s.at t) cid hn hc))
  · exact (h.step t _).trans (congrArg done (snapshotRelease_held (s := s.at t) cid hn hc hp))
  · refine congrArg done ((h.toCmd.run t (ok := fun k => k.isAdmin 0x43 && (s.at t).accepts pgBft) ?_ _).trans
      (collectionCheckpoint_good (s := s.at t) cid hn hc hv ho hb))
    rw [h.isAdmin]
    exact ha
  · exact (h.step t _).trans (congrArg done (collectionDestroy_absent (s := s.at t) cid hn hc))
  · exact (h.step t _).trans (congrArg done (collectionRestore_busy (s := s.at t) cid hn hck hv hnum hact ho hused))
  · have htake' : ((s.at t).takeHeart (ck.coll.restored []).owner ((ck.coll.restored []).extentsFor ck.coll.slots.length)).2 = true := by
      rw [Coll.extentsFor_restored, State.at_takeHeart_snd]
      exact htake
    obtain ⟨u, hgrow, hrest, -⟩ := State.growColl_took (s := s.at t) (Coll.baseFor_of_fullDim (c := ck.coll.restored []) hdim _) rfl htake'
    rw [Coll.extentsFor_restored] at hgrow
    have hinst := State.installColl_free (s := s.at t) hfree hmaj hfl hgrow
    have hrun := collectionRestore_found (s := s.at t) cid hn hck hv hnum hact ho
    rw [hinst] at hrun
    refine ⟨_, (h.step t _).trans (congrArg done hrun), ?_, fun j hj => ?_, ?_, ?_⟩
    · rw [State.coll?_setColl_self]
      rfl
    · rw [State.coll?_setColl_ne _ _ hj, hrest]
      rfl
    all_goals rw [hrest]
    all_goals rfl
  · obtain ⟨u, hu, hrest⟩ := drainColl_free (s := s.at t) hc hcl hb
    exact ⟨u, congrArg done ((State.onlyIf_of hl _).trans hu), hrest⟩
  · refine ⟨fun hbad => (h.step t _).trans (congrArg done (sourceSet_malformed cid rfl hbad)), fun map h256 hst hsrc hfloor hmap hdom => ?_,
      fun v h256 hst hsrc hbusy => ?_⟩
    · obtain ⟨u, hu, hrest⟩ := sourceSet_new (s := s.at t) cid rfl h256 hst hsrc hfloor hmap.symm hdom
      exact ⟨u, (h.step t _).trans (congrArg done hu), hrest⟩
    · obtain ⟨u, hu, hrest⟩ := sourceSet_remove (s := s.at t) cid rfl h256 hst hsrc hbusy
      exact ⟨u, (h.step t _).trans (congrArg done hu), hrest⟩

end Sys2Proof.Machine
end

section
/-!
Searches are admitted or refused, and what ends their wait (03 R88 to R91; 04 R110, R114, R115; 16 R535).
-/

namespace Sys2Proof.Machine

theorem State.search?_setSearch_self (s : State) (n : Nat) (q : Search) : (s.setSearch n q).search? n = some q := Table.find?_set_self _ _ _

theorem State.search?_setSearch_ne (s : State) {n m : Nat} (q : Search) (h : m ≠ n) : (s.setSearch n q).search? m = s.search? m :=
  Table.find?_set_ne _ _ h

theorem State.cmd?_setCmd_self (s : State) (n : Nat) (k : Cmd) : (s.setCmd n k).cmd? n = some k := Table.find?_set_self _ _ _

section
variable {s : State} {cid coll asked : Nat} {c : Coll} {raw predicate : List Byte} {d : Desc} (hc : s.coll? coll = some c)
include hc

theorem State.admitSearch_malformed {st : Status} (hr : descRefusal c raw d = some st) :
    s.admitSearch cid coll asked raw predicate d true none = s.refuseSearch cid st none := by
  simp only [State.admitSearch, hc, hr]

/-- A search under enforced shares whose domain has no share. -/
theorem State.admitSearch_quota (hr : descRefusal c raw d = none) (he : bitOf (s.reg pgDom 0x040) 0 = true)
    (hshare : s.walkerShare (s.searchDomain cid) = 0) :
    s.admitSearch cid coll asked raw predicate d true none = s.refuseSearch cid .quota none := by
  simp only [State.admitSearch, hc, hr, he, hshare, decide_true, Bool.true_or, Bool.and_self, if_true]

section
variable (hr : descRefusal c raw d = none) (he : bitOf (s.reg pgDom 0x040) 0 = false)
include hr he

theorem State.admitSearch_stale (hlt : (if asked = 0 then s.wlk.watermark else asked) < c.horizon) :
    s.admitSearch cid coll asked raw predicate d true none = s.refuseSearch cid .stale none := by
  simp only [State.admitSearch, hc, hr, he, Bool.false_and, Bool.false_eq_true, if_false]
  exact if_pos hlt

/-- Any other search enters the admission queue. -/
theorem State.admitSearch_queued {k : Cmd} (hk : s.cmd? cid = some k) (hge : c.horizon ≤ (if asked = 0 then s.wlk.watermark else asked))
    (hsc : d.scatter = false) : ∃ rules near, s.admitSearch cid coll asked raw predicate d true none =
      (s.enqueueSearch cid coll c asked d rules near none).setCmd cid { k with phase := .started } := by
  have hk' (rules : List (List Byte)) (near : List Word) : (s.enqueueSearch cid coll c asked d rules near none).cmd? cid = some k := hk
  refine ⟨s.rulesFor (s.searchDomain cid) coll,
    ((s.rulesFor (s.searchDomain cid) coll).filter fun r => bitOf (fieldAt r 1 1) 2).map fun r => ruleWord r 40, ?_⟩
  simp only [State.admitSearch, hc, hr, he, hsc, Bool.false_and, Bool.and_false, Bool.false_eq_true, if_false, if_true]
  rw [if_neg (Nat.not_lt.mpr hge), hk']

end

end

/-- SEARCH of a collection that exists. -/
theorem searchCmd_found {s : State} {k : Cmd} {c : Coll} (cid : Nat) (hc : s.coll? (fieldAt k.raw 8 4) = some c) : searchCmd cid k s =
    (let raw := s.cmdRead k (cmdPtrA k.raw) 64
     let predicate := s.readPredicate k (fieldAt raw 32 8)
     let full := if fieldAt raw 8 2 = 0 || fieldAt raw 40 8 = 0 then [] else s.cmdRead k (fieldAt raw 40 8) (2 * c.fullDim)
     s.admitSearch cid (fieldAt k.raw 8 4) (cmdPos k.raw) raw predicate
       (s.descOf c raw (s.cmdRead k (cmdPtrA k.raw + 64) (2 * c.navDim)) full predicate) true none) := by
  rw [searchCmd, hc]

/-! ### The watermark timeout (R89, R90) -/

section
variable {s : State} {n : Nat} {q : Search} (hq : s.search? n = some q)
include hq

/-- A search whose wait has run out. -/
theorem watermarkTimeout_due (hs : q.stage = .queued) (ht : q.timedOut = false) (hw : s.wlk.watermark < q.asOf) (hdue : q.queuedAt + q.desc.waitUs * us ≤ s.tapeTime) : watermarkTimeout n s =
    if q.desc.onTimeout then s.failSearch n .busy
    else if s.wlk.watermark < ((s.coll? q.coll).map fun c => c.horizon).getD 0 then s.failSearch n .stale (some s.wlk.watermark)
    else s.setSearch n { q with timedOut := true, asOf := s.wlk.watermark, readyAt := some s.now } := by
  have hcond : (decide (q.stage = .queued) && !q.timedOut && decide (s.wlk.watermark < q.asOf) &&
      decide (q.queuedAt + q.desc.waitUs * us ≤ s.tapeTime)) = true := by
    rw [decide_eq_true hs, ht, decide_eq_true hw, decide_eq_true hdue]
    rfl
  rw [watermarkTimeout, hq]
  exact if_pos hcond

theorem watermarkTimeout_early (hdue : s.tapeTime < q.queuedAt + q.desc.waitUs * us) : watermarkTimeout n s = s := by
  have hcond : (decide (q.stage = .queued) && !q.timedOut && decide (s.wlk.watermark < q.asOf) &&
      decide (q.queuedAt + q.desc.waitUs * us ≤ s.tapeTime)) = false := by
    rw [decide_eq_false (Nat.not_le.mpr hdue), Bool.and_false]
  rw [watermarkTimeout, hq]
  exact if_neg (by rw [hcond]; decide)

end

/-- Settles O35: SEARCH runs `admitSearch`, whose checks refuse or queue, and the timeout has its three ends. -/
theorem searchesAdmitted : Obligations.SearchesAdmitted := by
  intro s t cid
  refine ⟨fun k h hc => ?_, fun k c h hc => ?_, fun q hl hq hs ht hw => ⟨fun hdue ho => ?_, fun c hdue ho hc => ⟨fun hge => ?_, fun hlt => ?_⟩,
    fun hdue => ?_⟩⟩
  · refine (h.step t _).trans (congrArg done ?_)
    have hc' : (s.at t).coll? (fieldAt k.raw 8 4) = none := hc
    simp only [searchCmd, hc']
  · intro u raw predicate full d asOf
    have hrun : exec (.search t cid) s = done (u.admitSearch cid (fieldAt k.raw 8 4) (cmdPos k.raw) raw predicate d true none) :=
      (h.step t _).trans (congrArg done (searchCmd_found (s := s.at t) cid hc))
    rw [hrun]
    refine ⟨fun st hr => congrArg done (State.admitSearch_malformed (s := u) hc hr), fun hr he => ⟨fun hlt => ?_, fun hge hsc => ?_⟩,
      fun hr he hshare => congrArg done (State.admitSearch_quota (s := u) hc hr he ?_)⟩
    · exact congrArg done (State.admitSearch_stale (s := u) hc hr he hlt)
    · obtain ⟨rules, near, hv⟩ := State.admitSearch_queued (s := u) (predicate := predicate) hc hr he h.found hge hsc
      refine ⟨_, congrArg done hv, ?_, fun n hn => ?_, rfl, State.cmd?_setCmd_self _ _ _, rfl, rfl, rfl⟩
      · exact congrArg (Option.map _) (State.search?_setSearch_self u cid _)
      · exact State.search?_setSearch_ne u _ hn
    · have hdom : u.searchDomain cid = k.domain := by
        rw [State.searchDomain, show u.cmd? cid = some k from h.found]
        rfl
      rw [hdom]
      exact hshare
  · refine congrArg done ((State.onlyIf_of hl _).trans ((watermarkTimeout_due (s := s.at t) hq hs ht hw hdue).trans ?_))
    rw [ho, if_pos rfl]
  · refine congrArg done ((State.onlyIf_of hl _).trans ((watermarkTimeout_due (s := s.at t) hq hs ht hw hdue).trans ?_))
    rw [ho, show (s.at t).coll? q.coll = some c from hc]
    exact if_neg (Nat.not_lt.mpr hge)
  · refine congrArg done ((State.onlyIf_of hl _).trans ((watermarkTimeout_due (s := s.at t) hq hs ht hw hdue).trans ?_))
    rw [ho, show (s.at t).coll? q.coll = some c from hc]
    exact if_pos hlt
  · exact congrArg done ((State.onlyIf_of hl _).trans (watermarkTimeout_early (s := s.at t) hq hdue))

end Sys2Proof.Machine
end

section
/-!
Sillage rings, evidence bindings and the requests of CST (11 R361, R376; 07 R248, R249).
-/

namespace Sys2Proof.Machine

/-! ### Unique values and the index of the maximum (07 R248, R249) -/

theorem find?_of_mem {α : Type} {t : Table α} (hw : t.wf = true) {k : Nat} {a : α} (h : (k, a) ∈ t) : t.find? k = some a := by
  induction t with
  | nil => cases h
  | cons e rest ih =>
    obtain ⟨k', a'⟩ := e
    obtain ⟨habove, hrest⟩ := Table.wf_cons.mp hw
    rcases List.mem_cons.mp h with heq | hmem
    · obtain ⟨rfl, rfl⟩ := Prod.mk.inj heq
      exact if_pos rfl
    · exact (if_neg (Nat.ne_of_lt (habove _ hmem))).trans (ih hrest hmem)

theorem uniqueCounts_wf (vs : List Nat) : Table.wf (uniqueCounts vs) = true :=
  List.foldlRecOn (motive := fun t : Table Nat => t.wf = true) vs _ rfl fun _ hw v _ => Table.set_wf hw v _

/-- Counting values one after another adds each value's occurrences to what the table held. -/
theorem foldl_count_getD (vs : List Nat) (t : Table Nat) (x : Nat) :
    (vs.foldl (fun (t : Table Nat) v => t.set v (t.getD v 0 + 1)) t).getD x 0 = t.getD x 0 + vs.count x := by
  induction vs generalizing t with
  | nil => rfl
  | cons v vs ih =>
    rw [List.foldl_cons, ih]
    by_cases hx : x = v
    · rw [hx, Table.getD_set_self, List.count_cons_self]
      omega
    · rw [Table.getD_set_ne _ _ _ hx, List.count_cons_of_ne (Ne.symm hx)]

theorem uniqueCounts_count {vs : List Nat} {x n : Nat} (h : (x, n) ∈ uniqueCounts vs) : n = vs.count x := by
  calc n = Table.getD (uniqueCounts vs) x 0 := (congrArg (·.getD 0) (find?_of_mem (uniqueCounts_wf vs) h)).symm
    _ = 0 + vs.count x := foldl_count_getD vs [] x
    _ = vs.count x := Nat.zero_add _

/-- Where every value is a NaN there is no index of a maximum. -/
theorem indexOfMax_nan (higher : Bool) {vs : List Word} (h : ∀ w ∈ vs, isNaN32 w = true) :
    indexOfMax higher vs = (0xFFFFFFFF, 0x7FC00000#32) := by
  rw [indexOfMax, List.foldlRecOn (motive := (· = none)) vs.zipIdx _ rfl fun best hbest v hv => ?_]
  · rfl
  · rw [hbest]
    exact if_pos (h _ (List.fst_mem_of_mem_zipIdx hv))

theorem uniqueWithCounts_unserved {s : State} {n : Nat} {u : CstUnique} (hu : s.cst.uniques.find? n = some u) (hs : u.served = false) :
    uniqueWithCounts n s = (({ s with cst := { s.cst with uniques := s.cst.uniques.set n {
      u with counts := uniqueCounts u.values, sums := uniqueSums u.values u.bags, served := true } } }).bump pgCst 0x078).bump64 pgCst 0x058
        u.values.length := by
  simp only [uniqueWithCounts, hu, hs, Bool.false_eq_true, if_false]

theorem State.count_bump64_self (s : State) (page off n : Nat) :
    (s.bump64 page off n).count page off = (s.count page off + n) % 2 ^ 64 := Table.getD_set_self ..

theorem State.count_bump_ne (s : State) {page off page' off' : Nat} (n : Nat) (h : page' * 4096 + off' ≠ page * 4096 + off) :
    (s.bump page off n).count page' off' = s.count page' off' := Table.getD_set_ne _ _ _ h

theorem State.count_bump64_ne (s : State) {page off page' off' : Nat} (n : Nat) (h : page' * 4096 + off' ≠ page * 4096 + off) :
    (s.bump64 page off n).count page' off' = s.count page' off' := Table.getD_set_ne _ _ _ h

/-! ### Rings and evidence bindings (11 R361, R376) -/

section
variable {s : State} {k : Cmd} (cid : Nat)

theorem sillageRing_away (hd : fieldAt k.raw 8 2 < s.dom.fuses.maxDomains) (hb : cmdPtrA k.raw = 0) : sillageRing cid k s =
    ({ s with qmg := { s.qmg with rings := s.qmg.rings.erase (fieldAt k.raw 8 2) } }).finish cid .ok :=
  (if_neg (Nat.not_le.mpr hd)).trans (if_pos hb)

theorem sillageRing_good (hd : fieldAt k.raw 8 2 < s.dom.fuses.maxDomains) (hb : cmdPtrA k.raw ≠ 0) (hal : cmdPtrA k.raw % 4096 = 0)
    (htl : cmdPtrB k.raw % 8 = 0) (hp : isPow2 (cmdPtrC k.raw) = true) (hlo : 65536 ≤ cmdPtrC k.raw) (hhi : cmdPtrC k.raw ≤ 4294967296)
    (hw : fieldAt k.raw 52 4 ≤ 100000) (ha : (s.domain (fieldAt k.raw 8 2)).state = .active) : sillageRing cid k s =
    (s.setRing (fieldAt k.raw 8 2) { base := cmdPtrA k.raw, tail := cmdPtrB k.raw, length := cmdPtrC k.raw, waitUs := fieldAt k.raw 52 4 }).finish
      cid .ok := by
  have hok : (cmdPtrA k.raw % 4096 != 0 || cmdPtrB k.raw % 8 != 0 || !isPow2 (cmdPtrC k.raw) || decide (cmdPtrC k.raw < 65536) ||
      decide (4294967296 < cmdPtrC k.raw) || decide (100000 < fieldAt k.raw 52 4)) = false := by
    simp only [hal, htl, hp, bne_self_eq_false, Bool.not_true, Bool.or_false, Bool.false_or, Bool.or_eq_false_iff, decide_eq_false_iff_not]
    omega
  simp only [sillageRing, if_neg (Nat.not_le.mpr hd), if_neg hb, hok, ha, bne_self_eq_false, Bool.false_eq_true, if_false]

section
variable {c : Coll} (hc : s.openColl? (fieldAt k.raw 8 4) = some c)
include hc

theorem evidenceBind_none (hv : fieldAt k.raw 12 4 = 0xFFFFFFFF) : evidenceBind cid k s =
    (s.setColl (fieldAt k.raw 8 4) { c with binding := none }).finish cid .ok := by
  simp only [evidenceBind, hc]
  exact if_pos hv

section
variable {v : Volume} (hne : fieldAt k.raw 12 4 ≠ 0xFFFFFFFF) (hv : s.openVolume? (fieldAt k.raw 12 4) = some v)
include hne hv

theorem evidenceBind_denied (ho : v.owner ≠ c.owner) : evidenceBind cid k s = s.finish cid .denied := by
  simp only [evidenceBind, hc, hv]
  exact (if_neg hne).trans (if_pos (bne_iff_ne.mpr ho))

theorem evidenceBind_good (ho : v.owner = c.owner) (hf : fieldAt k.raw 49 1 < 8) (hty : (schemaField c.schema (fieldAt k.raw 49 1)).1 = 1)
    (hwd : (schemaField c.schema (fieldAt k.raw 49 1)).2.2 = 8) (hlo : 64 ≤ fieldAt k.raw 52 4) (hhi : fieldAt k.raw 52 4 ≤ 4096)
    (hal : fieldAt k.raw 52 4 % 64 = 0) : evidenceBind cid k s = (s.setColl (fieldAt k.raw 8 4) { c with
      binding := some { volume := fieldAt k.raw 12 4, locator := fieldAt k.raw 49 1, bytes := fieldAt k.raw 52 4 } }).finish cid .ok := by
  have hok : (decide (8 ≤ fieldAt k.raw 49 1) || (schemaField c.schema (fieldAt k.raw 49 1)).1 != 1 ||
      (schemaField c.schema (fieldAt k.raw 49 1)).2.2 != 8 || decide (fieldAt k.raw 52 4 < 64) || decide (4096 < fieldAt k.raw 52 4) ||
      fieldAt k.raw 52 4 % 64 != 0) = false := by
    simp only [hal, hty, hwd, bne_self_eq_false, Bool.or_false, Bool.or_eq_false_iff, decide_eq_false_iff_not]
    omega
  simp only [evidenceBind, hc, hv, if_neg hne, ho, hok, bne_self_eq_false, Bool.false_eq_true, if_false]

end

end

end

/-- Settles O38: the two commands are steps of their own, and CST answers and counts each request. -/
theorem ringsAndCasting : Obligations.RingsAndCasting := by
  refine fun s t cid k => ⟨fun h hd => ⟨fun hb => ?_, fun hb hal htl hp hlo hhi hw ha => ?_⟩, fun c v h hc => ⟨fun hv => ?_, fun hne hv => ⟨fun ho => ?_,
    fun ho hf hty hwd hlo hhi hal => ?_⟩⟩, fun hl hacc => ⟨fun u hu hs => ?_, fun values higher hlen => ?_⟩⟩
  · exact (h.step t _).trans (congrArg done (sillageRing_away (s := s.at t) cid hd hb))
  · exact (h.step t _).trans (congrArg done (sillageRing_good (s := s.at t) cid hd hb hal htl hp hlo hhi hw ha))
  · exact (h.step t _).trans (congrArg done (evidenceBind_none (s := s.at t) cid hc hv))
  · exact (h.step t _).trans (congrArg done (evidenceBind_denied (s := s.at t) cid hc hne hv ho))
  · exact (h.step t _).trans (congrArg done (evidenceBind_good (s := s.at t) cid hc hne hv ho hf hty hwd hlo hhi hal))
  · have hrun := (State.onlyIf_of (c := s.live && s.accepts pgCst) (by rw [hl, hacc]; rfl) _).trans (uniqueWithCounts_unserved (s := s.at t) hu hs)
    exact ⟨_, congrArg done hrun, Table.find?_set_self _ _ _, fun x n => uniqueCounts_count,
      (State.count_bump64_ne _ _ (by decide)).trans (State.count_bump_self _ _ _ _),
      (State.count_bump64_self _ _ _ _).trans (congrArg (fun n => (n + u.values.length) % 2 ^ 64) (State.count_bump_ne _ _ (by decide))), rfl, rfl, rfl⟩
  · have hrun := State.onlyIf_of (s := s.at t) (c := s.live && s.accepts pgCst && decide (values.length ≤ 16777216))
      (by rw [hl, hacc, decide_eq_true hlen]; rfl) fun s =>
        (({ s with cst := { s.cst with index := some (indexOfMax higher values) } }).bump pgCst 0x07C).bump64 pgCst 0x058 values.length
    exact ⟨_, congrArg done hrun, rfl, fun hnan => congrArg some (indexOfMax_nan higher hnan),
      (State.count_bump64_ne _ _ (by decide)).trans (State.count_bump_self _ _ _ _), rfl, rfl, rfl⟩

end Sys2Proof.Machine
end

section
/-!
Volumes and the health page (13 R422, R446, R455).
-/

namespace Sys2Proof.Machine

/-! ### The health page -/

theorem length_tempByte (x : Option Int) : (tempByte x).length = 1 := length_natLE _ _

theorem length_tempBytes (xs : List (Option Int)) (n : Nat) : (tempBytes xs n).length = n := by
  rw [tempBytes, List.length_flatMap, List.map_congr_left (g := fun _ => 1) fun i _ => length_tempByte _]
  rw [List.map_const', List.sum_replicate_nat, List.length_range, Nat.mul_one]

theorem BftBlock.length_health (f : BftBlock) : f.health.length = 256 := by
  unfold BftBlock.health
  simp only [List.length_append, length_natLE, length_tempByte, length_tempBytes, zeroBytes, List.length_replicate]

/-! ### Pages that hold nothing more -/

/-- A page that is unmapped changes the block map alone. -/
theorem State.unmapPage_keeps (s : State) (page : Nat) : ∃ bl, s.unmapPage page = { s with bft := { s.bft with blocks := bl } } := by
  unfold State.unmapPage
  split
  · exact ⟨_, rfl⟩
  · exact ⟨_, rfl⟩

theorem State.foldl_unmapPage_keeps {α : Type} (l : List α) (f : α → Nat) (s : State) :
    ∃ bl, l.foldl (fun s e => s.unmapPage (f e)) s = { s with bft := { s.bft with blocks := bl } } := by
  induction l generalizing s with
  | nil => exact ⟨_, rfl⟩
  | cons e l ih =>
    obtain ⟨_, h⟩ := s.unmapPage_keeps (f e)
    obtain ⟨bl, hl⟩ := ih (s.unmapPage (f e))
    exact ⟨bl, by rw [List.foldl_cons, hl, h]⟩

/-! ### Volume commands -/

section
variable {s : State} {k : Cmd} (cid : Nat)

theorem volumeCreate_malformed (h : 16384 ≤ fieldAt k.raw 12 4 ∨ s.dom.fuses.maxDomains ≤ fieldAt k.raw 8 2 ∨ fieldAt k.raw 52 4 = 0) :
    volumeCreate cid k s = s.finish cid .malformed := if_pos (by simpa [or_assoc] using h)

section
variable (hn : fieldAt k.raw 12 4 < 16384) (hd : fieldAt k.raw 8 2 < s.dom.fuses.maxDomains) (hg : fieldAt k.raw 52 4 ≠ 0)
include hn hd hg

theorem volumeCreate_inRange : (decide (16384 ≤ fieldAt k.raw 12 4) || decide (s.dom.fuses.maxDomains ≤ fieldAt k.raw 8 2) ||
    decide (fieldAt k.raw 52 4 = 0)) = false := by
  simp only [Bool.or_eq_false_iff, decide_eq_false_iff_not]
  omega

theorem volumeCreate_busy (hu : s.bft.volumes.has (fieldAt k.raw 12 4) = true) : volumeCreate cid k s = s.finish cid .busy := by
  simp only [volumeCreate, volumeCreate_inRange hn hd hg, hu, Bool.false_eq_true, if_false, if_true]

theorem volumeCreate_good (hu : s.bft.volumes.has (fieldAt k.raw 12 4) = false) (ha : (s.domain (fieldAt k.raw 8 2)).state = .active)
    (hq : (s.domain (fieldAt k.raw 8 2)).usedBase + fieldAt k.raw 52 4 ≤ (s.domain (fieldAt k.raw 8 2)).quotaBase)
    (hf : (s.bft.volumes.map fun e => e.2.gib).sum + fieldAt k.raw 52 4 ≤ s.bft.allocatable) : volumeCreate cid k s =
    (({ s with bft := { s.bft with volumes := s.bft.volumes.set (fieldAt k.raw 12 4) { owner := fieldAt k.raw 8 2, gib := fieldAt k.raw 52 4 } } }).setDomain
      (fieldAt k.raw 8 2) { s.domain (fieldAt k.raw 8 2) with usedBase := (s.domain (fieldAt k.raw 8 2)).usedBase + fieldAt k.raw 52 4 }).finish cid .ok := by
  simp only [volumeCreate, volumeCreate_inRange hn hd hg, hu, ha, State.takeBase, if_neg (Nat.not_lt.mpr hq), if_neg (Nat.not_lt.mpr hf),
    bne_self_eq_false, Bool.false_eq_true, if_false]
  rfl

end

theorem volumeDestroy_open {v : Volume} (hv : s.openVolume? (fieldAt k.raw 12 4) = some v) : volumeDestroy cid k s =
    ({ s with bft := { s.bft with volumes := s.bft.volumes.set (fieldAt k.raw 12 4) { v with isClosed := some cid } } }).setCmd cid
      { k with phase := .waiting } := by
  simp only [volumeDestroy, hv, State.withBft]

theorem volumeDestroy_absent (hv : s.openVolume? (fieldAt k.raw 12 4) = none) : volumeDestroy cid k s = s.finish cid .notFound := by
  simp only [volumeDestroy, hv]

section
variable {v : Volume} (hv : s.openVolume? (fieldAt k.raw 12 4) = some v)
include hv

theorem volumeRw_spare (h : s.bft.spareBlocks ≠ 0) : volumeRw cid k s =
    ({ s with bft := { s.bft with volumes := s.bft.volumes.set (fieldAt k.raw 12 4) { v with readOnly := false } } }).finish cid .ok := by
  simp only [volumeRw, hv, if_neg h, State.withBft]

theorem volumeRw_noSpare (h : s.bft.spareBlocks = 0) : volumeRw cid k s = (s.finish cid .mediaExhausted).bump pgBft 0x090 := by
  simp only [volumeRw, hv, h, if_true, State.exhaustCmd]

end

end

/-- The last command that names a closed volume has completed: the volume is gone with its units. -/
theorem State.drainVolume_free {s : State} {m cid : Nat} {v : Volume} (hv : s.bft.volumes.find? m = some v) (hcl : v.isClosed = some cid)
    (hb : (s.qmg.cmds.any fun e => e.2.namesVolume m) = false) : ∃ u : State, s.drainVolume m = u.finish cid .ok ∧ u.bft.volumes.find? m = none ∧
      (∀ j, j ≠ m → u.bft.volumes.find? j = s.bft.volumes.find? j) ∧
      (∀ key, u.bft.units.find? key = if key / 2 ^ 32 = m then none else s.bft.units.find? key) ∧
      (v.charged = true → (u.domain v.owner).usedBase = (s.domain v.owner).usedBase - v.gib) ∧ u.qmg = s.qmg ∧ u.host = s.host ∧ u.win = s.win := by
  let w := if v.charged then s.setDomain v.owner { s.domain v.owner with usedBase := (s.domain v.owner).usedBase - v.gib } else s
  have hw : w.bft = s.bft ∧ w.qmg = s.qmg ∧ w.host = s.host ∧ w.win = s.win := by
    unfold w
    split
    · exact ⟨rfl, rfl, rfl, rfl⟩
    · exact ⟨rfl, rfl, rfl, rfl⟩
  obtain ⟨hbft, hqmg, hhost, hwin⟩ := hw
  obtain ⟨bl, hfold⟩ := State.foldl_unmapPage_keeps (w.bft.units.filter fun e => e.1 / 2 ^ 32 == m) (fun e => e.2.page) w
  refine ⟨{ w with bft := { w.bft with
      blocks := bl
      volumes := w.bft.volumes.erase m
      units := w.bft.units.filter fun e => e.1 / 2 ^ 32 != m
      ckpts := w.bft.ckpts.filter fun e => e.1 / 65536 != m } }, ?_, Table.find?_erase_self _ _, fun j hj => ?_, fun key => ?_, fun hch => ?_, hqmg, hhost, hwin⟩
  · simp only [State.drainVolume, hv, hcl, hb, Bool.false_eq_true, if_false]
    change State.finish (State.withBft (List.foldl (fun s (e : Nat × FlashUnit) => s.unmapPage e.2.page) w _) _) cid .ok = _
    rw [hfold]
    rfl
  · exact (Table.find?_erase_ne _ hj).trans (by rw [hbft])
  · refine (find?_filterKey w.bft.units (fun i => i / 2 ^ 32 != m) key).trans ?_
    rw [hbft]
    by_cases hk : key / 2 ^ 32 = m
    · rw [if_pos hk, if_neg (by rw [hk, bne_self_eq_false]; decide)]
    · rw [if_neg hk, if_pos (bne_iff_ne.mpr hk)]
  · have hset : w = s.setDomain v.owner { s.domain v.owner with usedBase := (s.domain v.owner).usedBase - v.gib } := if_pos hch
    change (w.domain v.owner).usedBase = _
    rw [hset, State.domain_setDomain_self]

/-- Settles O48: each command is its own step, and a volume that nothing names any more is gone. -/
theorem volumesAndHealth : Obligations.VolumesAndHealth := by
  intro s t cid k
  dsimp only
  refine ⟨fun h => ⟨fun hbad => ?_, fun hn hd hg hu => ?_, fun hn hd hg hu ha hq hf => ?_⟩, fun v h hv => ?_, fun h hv => ?_,
    fun v h hv => ⟨fun hs => ?_, fun hs => ?_⟩, fun h => ⟨s.bft.length_health, h.step t _⟩, fun m v hl hv hcl hb => ?_⟩
  · exact (h.step t _).trans (congrArg done (volumeCreate_malformed (s := s.at t) cid hbad))
  · exact (h.step t _).trans (congrArg done (volumeCreate_busy (s := s.at t) cid hn hd hg hu))
  · exact (h.step t _).trans (congrArg done (volumeCreate_good (s := s.at t) cid hn hd hg hu ha hq hf))
  · exact (h.step t _).trans (congrArg done (volumeDestroy_open (s := s.at t) cid hv))
  · exact (h.step t _).trans (congrArg done (volumeDestroy_absent (s := s.at t) cid hv))
  · exact (h.step t _).trans (congrArg done (volumeRw_spare (s := s.at t) cid hv hs))
  · exact (h.step t _).trans (congrArg done (volumeRw_noSpare (s := s.at t) cid hv hs))
  · obtain ⟨u, hu, hrest⟩ := State.drainVolume_free (s := s.at t) hv hcl hb
    exact ⟨u, congrArg done ((State.onlyIf_of hl _).trans hu), hrest⟩

end Sys2Proof.Machine
end

section
/-!
SPDM requests and sessions (21 R671 to R673, R676).
-/

namespace Sys2Proof.Machine

/-! ### What SEC does with a request that reaches it, and with one that does not -/

section
variable {s : State} {r : SpdmRequest}

/-- A request on a path that does not answer changes nothing. -/
theorem State.spdm_shut (h : s.spdmOpen r = false) (ok : Bool) (f : State → State) : s.spdm r ok f = s :=
  if_neg (by rw [h, Bool.and_false]; decide)

section
variable (hl : s.live = true) (ho : s.spdmOpen r = true)
include hl ho

theorem State.spdm_ok {ok : Bool} (hok : ok = true) (f : State → State) : s.spdm r ok f = f s :=
  (State.onlyIf_of (by rw [hl, ho]; rfl) _).trans (if_pos hok)

theorem State.spdm_error {ok : Bool} (hok : ok = false) (f : State → State) : s.spdm r ok f = s.answer r .error :=
  (State.onlyIf_of (by rw [hl, ho]; rfl) _).trans (if_neg (by rw [hok]; decide))

end

theorem State.sessionOk_of {n : Nat} {x : SpdmSess} (hs : r.session = some n) (hx : s.sec.sessions.find? n = some x) (hp : x.path = r.path)
    {finished : Bool} (hf : x.finished = finished) : (r.session.isSome && s.sessionOk r finished) = true := by
  simp only [State.sessionOk, hs, hx, hp, hf, Option.isSome_some, beq_self_eq_true, Bool.and_self]

end

theorem State.answer_sec (s : State) (r : SpdmRequest) (a : SpdmReply) : (s.answer r a).sec = s.sec := by
  unfold State.answer
  split
  · rfl
  · rfl

/-- What an END_SESSION ends is the session that the request names, and no other. -/
theorem State.endSessions_one {s : State} {n : Nat} {x : SpdmSess} (hx : s.sec.sessions.find? n = some x) :
    let v := s.endSessions fun m _ => some m == some n
    v.sec.sessions.find? n = none ∧ ∀ m, m ≠ n → v.sec.sessions.find? m = s.sec.sessions.find? m := by
  let gone := (s.sec.sessions.filter fun e => some e.1 == some n).map fun e => e.1
  have hgone : ∀ m, m ∈ gone ↔ m = n := by
    intro m
    constructor
    · intro hm
      obtain ⟨e, he, rfl⟩ := List.mem_map.mp hm
      exact Option.some.inj (eq_of_beq (List.mem_filter.mp he).2)
    · rintro rfl
      exact List.mem_map.mpr ⟨_, List.mem_filter.mpr ⟨mem_of_find? hx, beq_self_eq_true _⟩, rfl⟩
  have hfind (m : Nat) := find?_filterKey s.sec.sessions (fun i => !gone.contains i) m
  refine ⟨(hfind n).trans (if_neg ?_), fun m hm => (hfind m).trans (if_pos ?_)⟩
  · rw [List.contains_iff_mem.mpr ((hgone n).mpr rfl)]
    decide
  · rw [Bool.not_eq_true', Bool.eq_false_iff]
    exact fun h => hm ((hgone m).mp (List.contains_iff_mem.mp h))

/-- Settles O49: each request is answered by its own step, in the state of its connection and session. -/
theorem spdmRequests : Obligations.SpdmRequests := by
  intro s t r hl
  refine ⟨fun h i hi => ?_, fun ho => ?_⟩
  · have hshut (ok : Bool) (f : State → State) : done ((s.at t).spdm r ok f) = .next (s.at t).settle :=
      congrArg done (State.spdm_shut (s := s.at t) h ok f)
    simp only [List.mem_cons, List.not_mem_nil, or_false] at hi
    rcases hi with rfl | rfl | rfl | rfl | rfl | rfl | rfl | rfl | rfl | rfl | rfl | rfl | rfl | rfl
    all_goals exact hshut _ _
  have herr {ok : Bool} (hok : ok = false) (f : State → State) : done ((s.at t).spdm r ok f) = .next ((s.at t).answer r .error).settle :=
    congrArg done (State.spdm_error (s := s.at t) hl ho hok f)
  have hrun {ok : Bool} (hok : ok = true) (f : State → State) : done ((s.at t).spdm r ok f) = .next (f (s.at t)).settle :=
    congrArg done (State.spdm_ok (s := s.at t) hl ho hok f)
  refine ⟨fun hs => hrun (by rw [hs]; rfl) _, fun hs hv => hrun ?_ _, fun hs hc => hrun ?_ _, fun hn i hi => ?_, fun hn => ⟨hrun hn _, fun h0 => ⟨?_, ?_⟩,
    fun hb => ?_, fun hb => ?_, fun hs hlen => ?_, fun hlen => ?_, fun hlen => ?_⟩, fun n x hs hx hp => ⟨fun hf => ?_, fun hf => ⟨?_, ?_, ?_⟩⟩⟩
  · rw [hs]
    exact hv
  · rw [hs]
    exact hc
  · simp only [List.mem_cons, List.not_mem_nil, or_false] at hi
    rcases hi with rfl | rfl | rfl | rfl | rfl | rfl | rfl
    all_goals exact herr (by simp only [hn, Bool.false_and]) _
  · exact hrun (by rw [h0, Bool.and_true]; exact hn) _
  · exact hrun (by rw [h0, Bool.and_true]; exact hn) _
  · exact (hrun hn _).trans (congrArg done (if_pos hb))
  · exact (hrun hn _).trans (congrArg done (if_neg (by rw [hb]; decide)))
  · refine hrun ?_ _
    rw [hs, hn]
    exact decide_eq_true hlen
  · refine herr ?_ _
    rw [show decide (s.sec.sessions.length < 4) = false from decide_eq_false (Nat.not_lt.mpr hlen), Bool.and_false]
  · exact hrun (by rw [decide_eq_true hlen, Bool.and_true]; exact hn) _
  · refine (hrun (State.sessionOk_of (s := s.at t) hs hx hp hf) _).trans ?_
    simp only [State.withSec, hs, Option.getD_some, Table.modify, show (s.at t).sec.sessions.find? n = some x from hx]
    rfl
  · exact hrun (State.sessionOk_of (s := s.at t) hs hx hp hf) _
  · exact hrun (State.sessionOk_of (s := s.at t) hs hx hp hf) _
  · let u := (s.at t).answer r .endSessionAck
    have hsec : u.sec = s.sec := State.answer_sec _ _ _
    have hx' : u.sec.sessions.find? n = some x := by rw [hsec, hx]
    obtain ⟨hnone, hother⟩ := State.endSessions_one hx'
    refine ⟨_, (hrun (State.sessionOk_of (s := s.at t) hs hx hp hf) _).trans (by rw [hs]), rfl, hnone, fun m hm => (hother m hm).trans (by rw [hsec]),
      show u.sec.keys = s.sec.keys by rw [hsec], show u.sec.images = s.sec.images by rw [hsec]⟩

end Sys2Proof.Machine
end

section
/-!
Images, measurements and countersignatures (21 R662, R666, R667, R671, R672; 22 R687, R692).
-/

namespace Sys2Proof.Machine

/-! ### Images -/

section
variable {s : State} {k : Cmd} (cid : Nat)

section
variable {im : List Byte} (him : im = s.cmdRead k (cmdPtrA k.raw) (fieldAt k.raw 52 4))
include him

theorem imageWrite_malformed (h : s.imageReason im (imageKind im) ≠ 0 ∨ s.sec.regions.getD (imageKind im) 0 < im.length) :
    imageWrite cid k s = s.finish cid .malformed := by
  subst him
  exact if_pos (by simpa using h)

theorem imageWrite_good (hr : s.imageReason im (imageKind im) = 0) (hfit : im.length ≤ s.sec.regions.getD (imageKind im) 0)
    (hrec : ¬ (imageKind im = 4 ∧ s.sec.recovery = true)) : imageWrite cid k s =
    ({ s with sec := { s.sec with images := s.sec.images.set (imageKind im) im }, cal := { s.cal with failedStarts := 0 } }).finish cid .ok := by
  subst him
  refine (if_neg ?_).trans (if_neg ?_)
  · rw [hr, decide_eq_false (Nat.not_lt.mpr hfit)]
    decide
  · simpa using hrec

end

end

/-! ### Measurements: seven entries of 64 bytes -/

theorem State.length_measureEntries (s : State) : s.measureEntries.flatten.length = 448 := by
  have hentry : ∀ n (e : (Nat × Nat × List Byte) × Nat), (natLE 1 n ++ natLE 1 e.1.1 ++ zeroBytes 2 ++ natLE 4 e.1.2.1 ++ zeroBytes 8 ++
      (e.1.2.2 ++ zeroBytes 48).take 48).length = 64 := by
    intro n e
    simp only [List.length_append, length_natLE, zeroBytes, List.length_replicate, List.length_take]
    omega
  have hmap : s.measureEntries.map List.length = s.measurements.zipIdx.map fun _ => 64 :=
    (List.map_map ..).trans (List.map_congr_left fun e _ => hentry _ e)
  rw [List.length_flatten, hmap, List.map_const', List.length_zipIdx]
  rfl

/-! ### Countersignatures -/

section
variable {s : State} {r : SpdmRequest}

theorem vendorRequest_unsigned (h : s.sec.lastSigned.find? (signKey r) = none) :
    vendorRequest r s = s.answer r (.vendor (vendorPayload 2 0 [])) := if_pos (by rw [Table.has, h]; rfl)

section
variable {input : Nat} (hin : s.sec.lastSigned.find? (signKey r) = some input)
include hin

theorem vendorRequest_unavailable (h : s.lmsAvailable = false) :
    vendorRequest r s = s.answer r (.vendor (vendorPayload 1 0 [])) := by
  simp only [vendorRequest, Table.has, hin, h, Option.isSome_some, Bool.not_true, Bool.not_false, Bool.false_eq_true, if_false, if_true]

theorem State.takeLeaf_signed : s.takeLeaf r =
    ((s.withSec fun b => { b with lmsNext := s.sec.lmsNext + 1 }).bump pgSec 0x06C).answer r
      (.vendor (vendorPayload 0 s.sec.lmsNext (Config.hssSignature s.sec.lmsNext input))) := by
  simp only [State.takeLeaf, hin]

section
variable (ha : s.lmsAvailable = true)
include ha

theorem vendorRequest_leaf (hw : s.sec.lmsWait = []) (hc : s.sec.lmsCommitting = false) (h : s.sec.lmsNext < s.sec.lmsEnd) :
    vendorRequest r s = s.takeLeaf r := by
  simp only [vendorRequest, Table.has, hin, ha, hw, hc, h, Option.isSome_some, List.isEmpty_nil, Bool.not_true, Bool.not_false,
    decide_true, Bool.and_self, Bool.false_eq_true, if_false, if_true]

theorem vendorRequest_waits (h : s.sec.lmsEnd ≤ s.sec.lmsNext) : vendorRequest r s = s.lmsQueue r := by
  have hlt : decide (s.sec.lmsNext < s.sec.lmsEnd) = false := decide_eq_false (Nat.not_lt.mpr h)
  simp only [vendorRequest, Table.has, hin, ha, hlt, Option.isSome_some, Bool.not_true, Bool.and_false, Bool.false_eq_true, if_false]

end

end

end

/-- What an answer changes: the outbox, and the alert of the management port. -/
theorem State.answer_keeps (s : State) (r : SpdmRequest) (a : SpdmReply) :
    ∃ pwr, s.answer r a = { s with outbox := .spdm r.path r.session a :: s.outbox, pwr := pwr } := by
  unfold State.answer
  split
  · exact ⟨_, rfl⟩
  · exact ⟨_, rfl⟩

/-- A request that waits is held by SEC, and its mailbox by CXL. -/
theorem State.lmsQueue_keeps (s : State) (r : SpdmRequest) :
    ∃ cxl, s.lmsQueue r = { s with sec := { s.sec with lmsWait := s.sec.lmsWait ++ [r], lmsCommitting := true }, cxl := cxl } := by
  unfold State.lmsQueue State.when
  split
  · exact ⟨_, rfl⟩
  · exact ⟨_, rfl⟩

/-- What the requests of a failed commit change: the outbox, the alert and the mailboxes. -/
theorem State.foldl_notAvailable (wait : List SpdmRequest) (s : State) :
    ∃ pwr cxl out, wait.foldl (fun s r => (s.when (r.path == SpdmPath.doe) (·.setDoeBusy 1 false)).answer r (.vendor (vendorPayload 1 0 []))) s =
      { s with pwr := pwr, cxl := cxl, outbox := out } ∧ (∀ x ∈ s.outbox, x ∈ out) ∧
      ∀ r ∈ wait, .spdm r.path r.session (.vendor (vendorPayload 1 0 [])) ∈ out := by
  induction wait generalizing s with
  | nil => exact ⟨_, _, _, rfl, fun _ => id, fun _ h => nomatch h⟩
  | cons r wait ih =>
    let u := s.when (r.path == SpdmPath.doe) (·.setDoeBusy 1 false)
    have hu : ∃ cxl, u = { s with cxl := cxl } := by
      unfold u State.when
      split
      · exact ⟨_, rfl⟩
      · exact ⟨_, rfl⟩
    obtain ⟨cxl₁, hu⟩ := hu
    obtain ⟨pwr₁, hans⟩ := u.answer_keeps r (.vendor (vendorPayload 1 0 []))
    obtain ⟨pwr, cxl, out, hfold, hold, hnew⟩ := ih (u.answer r (.vendor (vendorPayload 1 0 [])))
    refine ⟨pwr, cxl, out, hfold.trans ?_, fun x hx => hold x ?_, fun x hx => ?_⟩
    · rw [hans, hu]
    · rw [hans, hu]
      exact List.mem_cons_of_mem _ hx
    · rcases List.mem_cons.mp hx with rfl | hx
      · refine hold _ ?_
        rw [hans]
        exact List.mem_cons_self
      · exact hnew x hx

/-- The state whose reservation has been committed: E has moved on by 1,024, and no request waits. -/
def State.reserved (s : State) : State :=
  { s with
    sec := { s.sec with lmsCommitting := false, lmsWait := [], lmsEnd := s.sec.lmsEnd + 1024 }
    bft := { s.bft with lmsRec := some (natLE 8 (s.sec.lmsEnd + 1024)) } }

section
variable {s : State} (hc : s.sec.lmsCommitting = true)
include hc

theorem lmsCommit_fails : lmsCommit false s =
    s.sec.lmsWait.foldl (fun s r => (s.when (r.path == SpdmPath.doe) (·.setDoeBusy 1 false)).answer r (.vendor (vendorPayload 1 0 [])))
      (((s.withSec fun b => { b with lmsCommitting := false, lmsWait := [] }).sticky pgSec 0x044 4).bump pgSec 0x068) := by
  simp only [lmsCommit, hc, Bool.not_true, Bool.false_eq_true, if_false]

/-- The requests that waited are served from the new reservation. -/
theorem lmsCommit_commits : lmsCommit true s = s.reserved.serveLms s.sec.lmsWait := by
  simp only [lmsCommit, hc, Bool.not_true, Bool.false_eq_true, if_false, if_true, State.withSec, State.reserved]

end

theorem lmsCommit_idle {s : State} (hc : s.sec.lmsCommitting = false) (ok : Bool) : lmsCommit ok s = s := if_pos (by rw [hc]; rfl)

/-- One request served takes the first leaf of the new reservation. -/
theorem State.serveLms_one {s : State} {r : SpdmRequest} {input : Nat} (hin : s.sec.lastSigned.find? (signKey r) = some input)
    (ha : s.lmsAvailable = true) (h : s.sec.lmsNext < s.sec.lmsEnd) : ∃ u : State, s.serveLms [r] = u ∧
      u.sec = { s.sec with lmsNext := s.sec.lmsNext + 1 } ∧ u.bft = s.bft ∧
      u.outbox = .spdm r.path r.session (.vendor (vendorPayload 0 s.sec.lmsNext (Config.hssSignature s.sec.lmsNext input))) :: s.outbox := by
  let w := s.when (r.path == SpdmPath.doe) (·.setDoeBusy 1 false)
  have hw : ∃ cxl, w = { s with cxl := cxl } := by
    unfold w State.when
    split
    · exact ⟨_, rfl⟩
    · exact ⟨_, rfl⟩
  obtain ⟨cxl, hw⟩ := hw
  have hrun : s.serveLms [r] = w.takeLeaf r := by
    have hwa : w.lmsAvailable = true := by rw [hw]; exact ha
    have hlt : w.sec.lmsNext < w.sec.lmsEnd := by rw [hw]; exact h
    exact (if_neg (by rw [hwa]; decide)).trans (if_pos hlt)
  have hleaf := State.takeLeaf_signed (s := w) (r := r) (by rw [hw]; exact hin)
  obtain ⟨pwr, hans⟩ := State.answer_keeps ((w.withSec fun b => { b with lmsNext := w.sec.lmsNext + 1 }).bump pgSec 0x06C) r
    (.vendor (vendorPayload 0 w.sec.lmsNext (Config.hssSignature w.sec.lmsNext input)))
  refine ⟨_, hrun.trans (hleaf.trans hans), ?_, ?_, ?_⟩
  all_goals rw [hw]
  all_goals rfl

/-- Settles O50: images and measurements are commands of their own; a countersignature takes a leaf, waits for a commit, or is refused. -/
theorem imagesAndCountersignatures : Obligations.ImagesAndCountersignatures := by
  intro s t cid k
  dsimp only
  refine ⟨fun h => ⟨fun hbad => ?_, fun hr hfit hrec => ?_⟩, fun h => ⟨s.length_measureEntries, h.step t _⟩, fun hl => congrArg done (State.onlyIf_of hl _),
    fun r hl ho hn hcs => ?_, fun hl => ⟨fun hc ok => ?_, fun hc => ⟨?_, fun hw => ?_, fun r input hw hin ha hend => ?_⟩⟩⟩
  · exact (h.step t _).trans (congrArg done (imageWrite_malformed (s := s.at t) cid rfl hbad))
  · exact (h.step t _).trans (congrArg done (imageWrite_good (s := s.at t) cid rfl hr hfit hrec))
  · have hrun : exec (.vendorDefinedRequest t r) s = .next (vendorRequest r (s.at t)).settle :=
      congrArg done (State.spdm_ok (s := s.at t) hl ho (by rw [hcs, Bool.and_true]; exact hn) _)
    refine ⟨fun hin => ?_, fun input hin => ⟨fun ha => ?_, fun ha hw hc => ⟨fun hlt => ?_, fun hge => ?_⟩⟩⟩
    · exact hrun.trans (congrArg done (vendorRequest_unsigned (s := s.at t) hin))
    · exact hrun.trans (congrArg done (vendorRequest_unavailable (s := s.at t) hin ha))
    · obtain ⟨pwr, hans⟩ := State.answer_keeps (((s.at t).withSec fun b => { b with lmsNext := s.sec.lmsNext + 1 }).bump pgSec 0x06C) r
        (.vendor (vendorPayload 0 s.sec.lmsNext (Config.hssSignature s.sec.lmsNext input)))
      refine ⟨_, hrun.trans (congrArg done ((vendorRequest_leaf (s := s.at t) hin ha hw hc hlt).trans
        ((State.takeLeaf_signed (s := s.at t) hin).trans hans))), rfl, State.count_bump_self .., rfl, rfl, rfl, rfl, rfl⟩
    · obtain ⟨cxl, hq⟩ := (s.at t).lmsQueue_keeps r
      refine ⟨_, hrun.trans (congrArg done ((vendorRequest_waits (s := s.at t) hin ha hge).trans hq)), ?_, rfl, rfl, rfl, rfl⟩
      change { s.sec with lmsWait := s.sec.lmsWait ++ [r], lmsCommitting := true } = _
      rw [hw]
      rfl
  · exact congrArg done ((State.onlyIf_of hl _).trans (lmsCommit_idle (s := s.at t) hc ok))
  · obtain ⟨pwr, cxl, out, hfold, hold, hnew⟩ := State.foldl_notAvailable s.sec.lmsWait
      ((((s.at t).withSec fun b => { b with lmsCommitting := false, lmsWait := [] }).sticky pgSec 0x044 4).bump pgSec 0x068)
    exact ⟨_, congrArg done ((State.onlyIf_of hl _).trans ((lmsCommit_fails (s := s.at t) hc).trans hfold)), rfl, State.count_bump_self ..,
      State.bitOf_reg_sticky _ _ _ (by decide), rfl, hnew⟩
  · refine congrArg done ((State.onlyIf_of hl _).trans ((lmsCommit_commits (s := s.at t) hc).trans ?_))
    rw [show (s.at t).sec.lmsWait = [] from hw]
    simp only [State.serveLms, State.reserved, State.at_sec, hw]
    rfl
  · obtain ⟨u, hu, hsec, hbft, hout⟩ := State.serveLms_one (s := (s.at t).reserved) (r := r) (input := input) hin ha (by
      change s.sec.lmsNext < s.sec.lmsEnd + 1024
      omega)
    have hrun := (State.onlyIf_of (s := s.at t) hl _).trans (lmsCommit_commits (s := s.at t) hc)
    rw [show (s.at t).sec.lmsWait = [r] from hw, hu] at hrun
    refine ⟨u, congrArg done hrun, by rw [hsec]; rfl, ?_, by rw [hbft]; rfl, ?_⟩
    · rw [hsec, ← hend]
      rfl
    · rw [hout, ← hend]
      rfl

end Sys2Proof.Machine
end

section
/-!
What messages and completions leave alone: the counters and registers of the blocks from FLT to the flash channels, and every command but
the one that completes (15 R491, R506).
-/

namespace Sys2Proof.Machine

/-- `u` shows the counters and the registers of `s` on every page from FLT's to the flash channels', and its outstanding commands. -/
structure State.PagesStand (s u : State) : Prop where
  count : ∀ {page off : Nat}, 4 < page → page < 67 → off < 4096 → u.count page off = s.count page off
  regAt : ∀ {page off : Nat} (idx : Nat), 4 < page → page < 67 → off < 4096 → u.regAt page off idx = s.regAt page off idx
  cmds : u.qmg.cmds = s.qmg.cmds

namespace State.PagesStand

theorem refl (s : State) : s.PagesStand s := ⟨fun _ _ _ => rfl, fun _ _ _ _ => rfl, rfl⟩

theorem trans {s u v : State} (h : s.PagesStand u) (h' : u.PagesStand v) : s.PagesStand v where
  count hlo hhi ho := (h'.count hlo hhi ho).trans (h.count hlo hhi ho)
  regAt idx hlo hhi ho := (h'.regAt idx hlo hhi ho).trans (h.regAt idx hlo hhi ho)
  cmds := h'.cmds.trans h.cmds

/-- `trans` read from its second step. -/
theorem after {s u v : State} (h' : u.PagesStand v) (h : s.PagesStand u) : s.PagesStand v := h.trans h'

theorem of_eq {s u : State} (hc : u.counts = s.counts) (hr : u.regs = s.regs) (hq : u.qmg.cmds = s.qmg.cmds) : s.PagesStand u where
  count _ _ _ := by rw [State.count, State.count, hc]
  regAt _ _ _ _ := by rw [State.regAt, State.regAt, hr]
  cmds := hq

theorem reg {s u : State} (h : s.PagesStand u) {page off : Nat} (hlo : 4 < page) (hhi : page < 67) (ho : off < 4096) :
    u.reg page off = s.reg page off := h.regAt 0 hlo hhi ho

end State.PagesStand

/-! ### The operations that completions and messages are made of -/

section
variable (s : State) {page : Nat} (hp : page ≤ 4 ∨ 67 ≤ page) {off : Nat} (ho : off < 4096)
include hp ho

theorem State.pagesStand_bump (n : Nat) : s.PagesStand (s.bump page off n) where
  count hlo hhi _ := State.count_bump_ne _ _ (by omega)
  regAt _ _ _ _ := rfl
  cmds := rfl

theorem State.pagesStand_bump64 (n : Nat) : s.PagesStand (s.bump64 page off n) where
  count hlo hhi _ := State.count_bump64_ne _ _ (by omega)
  regAt _ _ _ _ := rfl
  cmds := rfl

end

theorem State.pagesStand_sticky (s : State) {page off : Nat} (hp : page ≤ 4 ∨ 67 ≤ page) (hq : page < 128) (ho : off < 4096) (bits : Nat) :
    s.PagesStand (s.sticky page off bits) where
  count _ _ _ := rfl
  regAt {page' off'} idx hlo hhi _ := Table.getD_set_ne _ _ _ (by unfold regKey; omega)
  cmds := rfl

theorem State.pagesStand_writeBytes (s : State) (v : View) (a : Nat) (bs : List Byte) : s.PagesStand (s.writeBytes v a bs) := by
  unfold State.writeBytes
  dsimp only
  have hgo : s.PagesStand (s.writeBytesGo v a bs) := by
    rw [s.writeBytesGo_eq v a bs]
    exact .of_eq rfl rfl rfl
  split
  · exact hgo.trans (State.pagesStand_bump _ (by decide) (by decide) _)
  · exact hgo

theorem State.pagesStand_sendVec (s : State) (key : Nat) : s.PagesStand (s.sendVec key) := by
  unfold State.sendVec
  dsimp only
  split
  · split
    · exact .refl s
    · exact (State.pagesStand_sticky _ (by decide) (by decide) (by decide) _).after
        ((State.pagesStand_bump _ (by decide) (by decide) _).after (.of_eq rfl rfl rfl))
  · exact (State.pagesStand_bump64 _ (by decide) (by decide) _).after (.of_eq rfl rfl rfl)

theorem State.pagesStand_vecEvent (s : State) (fn vector : Nat) : s.PagesStand (s.vecEvent fn vector) := by
  have hset (v : Vec) : s.PagesStand (s.setVec (vecKey fn vector) v) := .of_eq rfl rfl rfl
  unfold State.vecEvent
  dsimp only
  split
  · exact hset _
  split
  · exact hset _
  split
  · exact (State.pagesStand_sendVec _ _).after ((hset _).trans (State.pagesStand_bump _ (by decide) (by decide) _))
  split
  · exact (State.pagesStand_sendVec _ _).after (hset _)
  split
  · exact (State.pagesStand_sendVec _ _).after (hset _)
  split
  · exact .of_eq rfl rfl rfl
  · exact hset _

theorem State.pagesStand_shpOffer (s : State) (p : Nat) (m : Msg) : s.PagesStand (s.shpOffer p m).1 := by
  unfold State.shpOffer
  split
  · unfold State.shpQueue
    dsimp only
    split
    · split
      · exact (State.pagesStand_bump _ (by decide) (by decide) _).after (.of_eq rfl rfl rfl)
      · exact .of_eq rfl rfl rfl
    · split
      · exact .of_eq rfl rfl rfl
      · exact .of_eq rfl rfl rfl
  · exact State.pagesStand_sticky _ (by decide) (by decide) (by decide) _

theorem State.pagesStand_of_shpOffer {s u : State} {p : Nat} {m : Msg} {b : Bool} (h : s.shpOffer p m = (u, b)) : s.PagesStand u := by
  have := s.pagesStand_shpOffer p m
  rwa [h] at this

theorem State.pagesStand_pumpGo (s : State) (node n : Nat) : s.PagesStand (s.pumpGo node n) := by
  induction n generalizing s with
  | zero => exact .refl s
  | succ n ih =>
    unfold State.pumpGo
    dsimp only
    split
    · split
      · split
        · exact (ih _).after ((State.pagesStand_bump _ (by decide) (by decide) _).after (.of_eq rfl rfl rfl))
        · split
          · next s' hs => exact State.pagesStand_of_shpOffer hs
          · next s' hs => exact (ih _).after ((State.pagesStand_of_shpOffer hs).trans (.of_eq rfl rfl rfl))
      · exact .refl s
    · exact .refl s

theorem State.pagesStand_sendData (s : State) (p : Nat) (m : Msg) : s.PagesStand (s.sendData p m) :=
  PagesStand.trans ((State.pagesStand_bump64 _ (.inr (Nat.le_add_right _ _)) (by decide) _).after (.of_eq rfl rfl rfl))
    (u := State.bump64 _ (pgFab p) 0x0B0 m.flits) (.of_eq rfl rfl rfl)

theorem State.pagesStand_flushSegsGo (s : State) (p : Nat) (l : List Msg) : s.PagesStand (s.flushSegsGo p l) := by
  induction l generalizing s with
  | nil => exact .of_eq rfl rfl rfl
  | cons m l ih =>
    unfold State.flushSegsGo
    split
    · exact (ih _).after (State.pagesStand_sendData _ _ _)
    · exact .of_eq rfl rfl rfl

theorem State.pagesStand_sendSegment (s : State) (m : Msg) : s.PagesStand (s.sendSegment m) := by
  unfold State.sendSegment
  split
  · exact State.pagesStand_bump _ (by decide) (by decide) _
  · exact (State.pagesStand_flushSegsGo _ _ _).after (.of_eq rfl rfl rfl)

theorem State.pagesStand_sendMsg (s : State) (m : Msg) : s.PagesStand (s.sendMsg m) := by
  unfold State.sendMsg
  dsimp only
  split
  · exact (State.pagesStand_pumpGo _ _ _).after (.of_eq rfl rfl rfl)
  · exact .of_eq rfl rfl rfl
  · exact (State.pagesStand_sendSegment _ _).after (.of_eq rfl rfl rfl)

theorem State.pagesStand_postQueue (s : State) (q : Nat) (k : Queue) (c : Comp) (tag wm : Nat) (late event : Bool) :
    s.PagesStand (s.postQueue q k c tag wm late event) := by
  unfold State.postQueue
  dsimp only
  have hwrite := s.pagesStand_writeBytes s.view (k.cqBase + 32 * k.cqTail) (c.bytes tag k.sqHead wm late k.phase)
  split
  · exact (State.pagesStand_sticky _ (by decide) (by decide) (by decide) _).after (State.pagesStand_bump _ (by decide) (by decide) _)
  split
  · exact hwrite.trans (.of_eq rfl rfl rfl)
  · exact (State.pagesStand_vecEvent _ _ _).after (hwrite.trans (.of_eq rfl rfl rfl))

/-! ### Completions -/

/-- The state in which a command is outstanding no longer. -/
def State.withoutCmd (s : State) (cid : Nat) : State := { s with qmg := { s.qmg with cmds := s.qmg.cmds.erase cid } }

/-- A command that completes is outstanding no longer; its status and its message touch no other command, and no block from FLT to the flash
channels. -/
theorem State.post_stands {s : State} {cid : Nat} {k : Cmd} (hk : s.cmd? cid = some k) (c : Comp) (rest : List Byte) :
    (s.withoutCmd cid).PagesStand (s.post cid c rest) := by
  unfold State.post
  rw [hk]
  dsimp only
  generalize hu : (if c.status = .fenced then State.bump _ (pgFab 0) 0x0CC else _) = u
  have hcount : (s.withoutCmd cid).PagesStand u := by
    have hab : (s.withoutCmd cid).PagesStand (if c.status = .aborted then (s.withoutCmd cid).bump pgQmg 0x07C else s.withoutCmd cid) := by
      split
      · exact State.pagesStand_bump _ (by decide) (by decide) _
      · exact .refl _
    rw [← hu]
    split
    · exact (State.pagesStand_bump _ (by decide) (by decide) _).after hab
    · exact hab
  split
  · split
    · exact hcount
    · exact hcount.trans (State.pagesStand_postQueue _ _ _ _ _ _ _ _)
  · exact hcount.trans (State.pagesStand_sendMsg _ _)
  · exact hcount.trans (State.pagesStand_sendMsg _ _)
  · exact hcount.trans (State.pagesStand_sendMsg _ _)

section
variable {s : State} {cid : Nat} {k : Cmd} (hk : s.cmd? cid = some k) (st : Status) (n d : Nat)
include hk

theorem State.finish_stands : (s.withoutCmd cid).PagesStand (s.finish cid st n d) := State.post_stands hk _ _

theorem State.finish_cmd?_self : (s.finish cid st n d).cmd? cid = none := by
  rw [State.cmd?, (State.finish_stands hk st n d).cmds]
  exact Table.find?_erase_self _ _

theorem State.finish_count {page off : Nat} (hlo : 4 < page) (hhi : page < 67) (ho : off < 4096) :
    (s.finish cid st n d).count page off = s.count page off := (State.finish_stands hk st n d).count hlo hhi ho

theorem State.finish_reg {page off : Nat} (hlo : 4 < page) (hhi : page < 67) (ho : off < 4096) :
    (s.finish cid st n d).reg page off = s.reg page off := (State.finish_stands hk st n d).reg hlo hhi ho

end

/-- A result that a command writes goes to memory, or to the command's own area. -/
theorem State.cmdWrite_found {s : State} {cid : Nat} {k : Cmd} (hk : s.cmd? cid = some k) (ptr off : Nat) (bs : List Byte) :
    ∃ k', (s.cmdWrite cid ptr off bs).cmd? cid = some k' ∧ (∀ j, j ≠ cid → (s.cmdWrite cid ptr off bs).cmd? j = s.cmd? j) ∧
      (∀ {page o : Nat}, 4 < page → page < 67 → o < 4096 → (s.cmdWrite cid ptr off bs).count page o = s.count page o ∧
        (s.cmdWrite cid ptr off bs).reg page o = s.reg page o) := by
  simp only [State.cmdWrite, hk]
  split
  · have h := s.pagesStand_writeBytes k.view (ptr + off) bs
    exact ⟨k, by rw [State.cmd?, h.cmds]; exact hk, fun j _ => by rw [State.cmd?, h.cmds]; rfl, fun hlo hhi ho => ⟨h.count hlo hhi ho, h.reg hlo hhi ho⟩⟩
  · exact ⟨_, State.cmd?_setCmd_self _ _ _, fun j hj => Table.find?_set_ne _ _ hj, fun _ _ _ => ⟨rfl, rfl⟩⟩

theorem State.postStep_cmdWrite (s : State) (cid ptr off : Nat) (bs : List Byte) : s.PostStep (s.cmdWrite cid ptr off bs) := by
  unfold State.cmdWrite
  split
  · exact .refl s
  split
  · exact State.postStep_writeBytes _ _ _ _
  · exact ⟨rfl⟩

end Sys2Proof.Machine
end

section
/-!
The calibration set, maintenance, rehearsal windows and tests (22 R690 to R699).
-/

namespace Sys2Proof.Machine

/-! ### The calibration set and maintenance -/

section
variable {s : State} {k : Cmd} (cid : Nat)

section
variable {set : List Byte} (hset : set = s.cmdRead k (cmdPtrA k.raw) (min (fieldAt (s.cmdRead k (cmdPtrA k.raw) 64) 4 4) 1048576))
include hset

theorem calLoad_malformed (h : setWhole set = false) : calLoad cid k s = s.finish cid .malformed := by
  subst hset
  exact if_pos (by rw [h]; rfl)

theorem calLoad_denied (h : setWhole set = true) (htag : setTag set ≠ Config.deviceTag.toNat) : calLoad cid k s = s.finish cid .denied := by
  subst hset
  exact (if_neg (by rw [h]; decide)).trans (if_pos (bne_iff_ne.mpr htag))

theorem calLoad_good (h : setWhole set = true) (htag : setTag set = Config.deviceTag.toNat) :
    calLoad cid k s = ({ s with cal := { s.cal with inForce := set, defaults := false } }).finish cid .ok := by
  subst hset
  exact (if_neg (by rw [h]; decide)).trans (if_neg (by rw [htag, bne_self_eq_false]; decide))

end

section
variable {seeds : List (List Byte)} (hseeds : seeds = seedList s.readSet (min 64 (fieldAt s.readSet 20 4)) (fieldAt s.readSet 36 4))
include hseeds

/-- CAL_SAVE of the set alone. -/
theorem calSave_set (h : bitOf (fieldAt k.raw 49 1) 0 = false) (commits : Bool) : calSave cid k commits s =
    if commits then (s.withBft fun f => { f with calRec := some (relaid s.readSet seeds), seq := f.seq + 1 }).finish cid .ok
    else s.finish cid .mediaError := by
  subst hseeds
  exact if_neg (by rw [h]; decide)

theorem calSave_seed {v : Score} {more : List (List Byte)} (h : bitOf (fieldAt k.raw 49 1) 0 = true) (hv : s.score? (fieldAt k.raw 50 2) = some v)
    (hm : withSeed seeds (scoreSeed v) = some more) : calSave cid k true s =
    (s.withBft fun f => { f with calRec := some (relaid s.readSet more), seq := f.seq + 1 }).finish cid .ok := by
  subst hseeds
  simp only [calSave, h, hv, hm, if_true]

end

theorem calSave_notFound (h : bitOf (fieldAt k.raw 49 1) 0 = true) (hv : s.score? (fieldAt k.raw 50 2) = none) (commits : Bool) :
    calSave cid k commits s = s.finish cid .notFound := by
  simp only [calSave, h, hv, if_true]

end

theorem State.SubmittedAdmin.maint_ok {s : State} {cid : Nat} {k : Cmd} (h : s.SubmittedAdmin cid 0x91 k) :
    (cmdOpcode k.raw == 0x38 && cmdAdminOp k.raw == 0x91) = true := by
  rw [h.toCmd.opcode, h.adminOp]
  rfl

/-- Settles O51: each command is its own step, and saves, loads or turns maintenance on and off. -/
theorem calibrationSet : Obligations.CalibrationSet := by
  intro s t cid k
  dsimp only
  refine ⟨fun h => h.step t _, fun h => ⟨fun hw => ?_, fun hw htag => ?_, fun hw htag => ?_⟩, fun h => ⟨fun hb => ?_, fun hb => ?_, fun c hb hv => ?_,
    fun v more hb hv hm => ?_⟩, fun h => ⟨fun ho => ?_, fun ho => ?_⟩, fun h => h.step t _⟩
  · exact (h.step t _).trans (congrArg done (calLoad_malformed (s := s.at t) cid rfl hw))
  · exact (h.step t _).trans (congrArg done (calLoad_denied (s := s.at t) cid rfl hw htag))
  · exact (h.step t _).trans (congrArg done (calLoad_good (s := s.at t) cid rfl hw htag))
  · exact (h.step t _).trans (congrArg done (calSave_set (s := s.at t) cid rfl hb true))
  · exact (h.step t _).trans (congrArg done (calSave_set (s := s.at t) cid rfl hb false))
  · exact (h.step t _).trans (congrArg done (calSave_notFound (s := s.at t) cid hb hv c))
  · exact (h.step t _).trans (congrArg done (calSave_seed (s := s.at t) cid rfl hb hv hm))
  · exact congrArg done ((h.toCmd.run t h.maint_ok _).trans (if_neg fun hany => Bool.false_ne_true (ho.symm.trans hany)))
  · exact congrArg done ((h.toCmd.run t h.maint_ok _).trans (if_pos ho))

/-! ### Tests and the opening of a window (R694 to R697) -/

section
variable {s : State} {k : Cmd} (cid : Nat) {fits : Target → Bool} {sweep : Bool}

/-- The length of a window is within its bounds. -/
theorem lengthOk {n : Nat} (hlo : 1 ≤ n) (hhi : n ≤ 50) : (decide (n = 0) || decide (50 < n)) = false := by
  simp only [Bool.or_eq_false_iff, decide_eq_false_iff_not]
  omega

theorem testCmd_noTarget (h : targetOf (fieldAt k.raw 8 2) = none) (destructive : Bool) (errors : Nat) :
    testCmd cid k fits destructive sweep errors s = s.finish cid .malformed := by
  simp only [testCmd, h, Option.filter_none]

section
variable {x : Target} (hx : targetOf (fieldAt k.raw 8 2) = some x) (hf : fits x = true)
include hx hf

theorem testCmd_badLength (h : fieldAt k.raw 52 2 = 0 ∨ 50 < fieldAt k.raw 52 2) (errors : Nat) :
    testCmd cid k fits false sweep errors s = s.finish cid .malformed := by
  have hbad : (!false && (decide (fieldAt k.raw 52 2 = 0) || decide (50 < fieldAt k.raw 52 2))) = true := by simpa using h
  simp only [testCmd, hx, Option.filter_some, hf, if_true, hbad]

section
variable (hlo : 1 ≤ fieldAt k.raw 52 2) (hhi : fieldAt k.raw 52 2 ≤ 50)
include hlo hhi

theorem testCmd_waits (h : bitOf (cmdFlags k.raw) 0 = false) (errors : Nat) :
    testCmd cid k fits false sweep errors s = s.setCmd cid { k with phase := .waiting, detail := errors } := by
  simp only [testCmd, hx, Option.filter_some, hf, if_true, lengthOk hlo hhi, Bool.and_false, h, Bool.false_and, Bool.not_false, Bool.false_eq_true, if_false]

theorem testCmd_busy (h : bitOf (cmdFlags k.raw) 0 = true) (hb : s.targetBusy x = true) (errors : Nat) :
    testCmd cid k fits false sweep errors s = s.finishTest cid k .busy 0 0 := by
  simp only [testCmd, hx, Option.filter_some, hf, if_true, lengthOk hlo hhi, Bool.and_false, h, hb, Bool.false_and, Bool.not_true, Bool.false_eq_true, if_false]

theorem testCmd_opens (h : bitOf (cmdFlags k.raw) 0 = true) (hb : s.targetBusy x = false) (errors : Nat) :
    testCmd cid k fits false sweep errors s = s.openWindow (fieldAt k.raw 8 2) x (fieldAt k.raw 52 2) sweep [cid] := by
  simp only [testCmd, hx, Option.filter_some, hf, if_true, lengthOk hlo hhi, Bool.and_false, h, hb, Bool.false_and, Bool.not_true, Bool.false_eq_true, if_false]

end

theorem testCmd_outsideMaintenance (h : s.cal.maintenance = false) (errors : Nat) :
    testCmd cid k fits true sweep errors s = s.finishTest cid k .busy 0 0 := by
  simp only [testCmd, hx, Option.filter_some, hf, if_true, h, Bool.not_true, Bool.not_false, Bool.and_self, Bool.false_and, Bool.false_eq_true, if_false]

end

section
variable (hm : s.cal.maintenance = true) (h : bitOf (cmdFlags k.raw) 0 = true) (hw : s.cal.windows.has (fieldAt k.raw 8 2) = false)
include hm h hw

theorem testCmd_march {i c : Nat} (hx : targetOf (fieldAt k.raw 8 2) = some (.pseudo i c)) (hf : fits (.pseudo i c) = true)
    (hin : s.windowIn (0x1000 + 64 * i) (0x1040 + 64 * i) = false) (errors : Nat) :
    testCmd cid k fits true sweep errors s = (s.march i c).finishTest cid k .ok errors 0 := by
  simp only [testCmd, hx, Option.filter_some, hf, if_true, hm, h, hw, hin, Bool.not_true, Bool.and_false, Bool.false_and, Bool.or_self, Bool.false_eq_true,
    if_false, State.destroy]

theorem testCmd_loopback {p l : Nat} (hx : targetOf (fieldAt k.raw 8 2) = some (.lane p l)) (hf : fits (.lane p l) = true)
    (hup : (s.port p).up = true) (errors : Nat) : testCmd cid k fits true sweep errors s = (s.portFall p).finishTest cid k .ok errors 0 := by
  simp only [testCmd, hx, Option.filter_some, hf, if_true, hm, h, hw, hup, Bool.not_true, Bool.and_false, Bool.false_and, Bool.or_self, Bool.false_eq_true,
    if_false, State.destroy]

end

end

/-- A window opened for one command, where nothing is swapped. -/
theorem State.openWindow_plain {s : State} {n cid : Nat} {k : Cmd} {x : Target} (hk : s.cmd? cid = some k)
    (hx : x.isLane = false ∨ ∃ p l, x = .lane p l ∧ (s.port p).understudy = some l) (len : Nat) (sweep : Bool) :
    s.openWindow n x len sweep [cid] = { s with cal := { s.cal with windows := s.cal.windows.set n { ends := s.now + len * us, sweep := sweep, swapped := false, serves := [cid] } } }.setCmd cid { k with phase := .started } := by
  rcases hx with hlane | ⟨p, l, rfl, hu⟩
  · cases x with
    | lane p l => cases hlane
    | pseudo i c =>
      simp only [State.openWindow, List.foldl_cons, List.foldl_nil, hk]
      rfl
    | flash f =>
      simp only [State.openWindow, List.foldl_cons, List.foldl_nil, hk]
      rfl
  · simp only [State.openWindow, hu, if_true, List.foldl_cons, List.foldl_nil, hk]
    rfl

theorem Cmd.isTest_of {s : State} {cid kind : Nat} {k : Cmd} (h : s.Submitted cid 0x31 k) (hk : fieldAt k.raw 48 1 = kind) : k.isTest kind = true := by
  rw [Cmd.isTest, h.isNew, hk, beq_self_eq_true]
  rfl

/-! ### The end of a window (R695, R696, R698) -/

/-- A margin measured in Heart is kept, and a notice of it counted. -/
theorem State.heartMargin_keeps (s : State) (stack pseudo ps : Nat) : ∃ pwr counts flt, s.heartMargin stack pseudo ps =
    { s with pwr := pwr, counts := counts, flt := flt } ∧ ∀ off < 4096, counts.getD (pgCal * 4096 + off) 0 = s.count pgCal off := by
  unfold State.heartMargin State.measure
  split
  · exact ⟨_, _, _, rfl, fun _ _ => rfl⟩
  simp only [Bool.false_eq_true, if_false]
  unfold State.when
  split
  · exact ⟨_, _, _, rfl, fun off ho => Table.getD_set_ne _ _ _ (by unfold pgCal pgPwr; omega)⟩
  · exact ⟨_, _, _, rfl, fun _ _ => rfl⟩

theorem State.serveEnd_calibrate {s : State} {cid : Nat} {k : Cmd} (hk : s.cmd? cid = some k) (ho : cmdOpcode k.raw = 0x30) (x : Target) (st : Status)
    (r : WindowResult) : s.serveEnd cid x st r = s.finishTest cid k st r.errorCount r.margin := by
  simp only [State.serveEnd, hk]
  exact if_neg (by rw [ho]; exact Bool.false_ne_true)

/-- A test that completes is outstanding no longer; the counters and registers of CAL stand. -/
theorem State.finishTest_stands {s : State} {cid : Nat} {k : Cmd} (hk : s.cmd? cid = some k) (k' : Cmd) (st : Status) (errors margin : Nat) :
    let v := s.finishTest cid k' st errors margin
    v.cmd? cid = none ∧ v.cal = s.cal ∧ ∀ off < 4096, v.count pgCal off = s.count pgCal off ∧ v.reg pgCal off = s.reg pgCal off := by
  obtain ⟨k₂, hk₂, -, hpage⟩ := State.cmdWrite_found hk (cmdPtrB k'.raw) 0 (s.testRecord k' st errors margin)
  refine ⟨State.finish_cmd?_self hk₂ _ _ _, ?_, fun off ho => ⟨?_, ?_⟩⟩
  · exact (State.postStep_finish _ _ _ _ _).cal.trans (State.postStep_cmdWrite _ _ _ _ _).cal
  · exact (State.finish_count hk₂ _ _ _ (by decide) (by decide) ho).trans (hpage (by decide) (by decide) ho).1
  · exact (State.finish_reg hk₂ _ _ _ (by decide) (by decide) ho).trans (hpage (by decide) (by decide) ho).2

/-- The end of a window on a pseudo-channel that trained for one CALIBRATE. -/
theorem rehearsalWindowEnd_pseudo {s : State} {m i c cid : Nat} {x : Window} {k : Cmd} (r : WindowResult) (hx : s.cal.windows.find? m = some x)
    (ht : targetOf m = some (.pseudo i c)) (hsw : x.sweep = false) (hserves : x.serves = [cid]) (hk : s.cmd? cid = some k) (ho : cmdOpcode k.raw = 0x30) :
    ∃ v : State, rehearsalWindowEnd m r s = v ∧ v.cal.windows.find? m = none ∧
      (∀ j, j ≠ m → v.cal.windows.find? j = s.cal.windows.find? j) ∧ v.cmd? cid = none ∧
      v.cal.current.find? m = (if r.trained then some r.newValue else s.cal.current.find? m) ∧
      v.count pgCal 0x064 = min 0xFFFFFFFF (s.count pgCal 0x064 + 1) ∧
      (r.trained = false → v.count pgCal 0x068 = min 0xFFFFFFFF (s.count pgCal 0x068 + 1) ∧ bitOf (v.reg pgCal 0x044) 5 = true) := by
  let u := s.withCal fun b => { b with windows := b.windows.erase m, current := if r.trained then b.current.set m r.newValue else b.current }
  obtain ⟨pwr, counts, flt, hmargin, hcal⟩ := u.heartMargin_keeps i c r.margin
  let w : State := { u with pwr := pwr, counts := counts, flt := flt }.bump pgCal 0x064
  let z := w.when (!r.trained) fun s => (s.bump pgCal 0x068).sticky pgCal 0x044 0x20
  have hz : z.cal = u.cal ∧ z.cmd? cid = some k ∧ z.count pgCal 0x064 = min 0xFFFFFFFF (s.count pgCal 0x064 + 1) := by
    have hw : w.count pgCal 0x064 = min 0xFFFFFFFF (s.count pgCal 0x064 + 1) :=
      (State.count_bump_self _ _ _ _).trans (congrArg (fun n => min 0xFFFFFFFF (n + 1)) (hcal 0x064 (by decide)))
    unfold z State.when
    split
    · exact ⟨rfl, hk, (State.count_bump_ne _ _ (by decide)).trans hw⟩
    · exact ⟨rfl, hk, hw⟩
  obtain ⟨hzcal, hzk, hzcount⟩ := hz
  obtain ⟨hgone, hvcal, hpage⟩ := State.finishTest_stands hzk k (if r.trained then .ok else .mediaError) r.errorCount r.margin
  refine ⟨_, ?_, ?_, fun j hj => ?_, hgone, ?_, (hpage _ (by decide)).1.trans hzcount, fun htr => ?_⟩
  · have hrun : rehearsalWindowEnd m r s = z.serveEnd cid (.pseudo i c) (if r.trained then .ok else .mediaError) r := by
      simp only [rehearsalWindowEnd, hx, ht, hsw, hserves, Bool.or_false, Bool.not_false, Bool.and_true, List.foldl_cons, List.foldl_nil]
      exact congrArg (fun y : State => ((y.bump pgCal 0x064).when (!r.trained) fun s => (s.bump pgCal 0x068).sticky pgCal 0x044 0x20).serveEnd cid
        (.pseudo i c) (if r.trained then .ok else .mediaError) r) hmargin
    exact hrun.trans (State.serveEnd_calibrate hzk ho _ _ _)
  · rw [hvcal, hzcal]
    exact Table.find?_erase_self _ _
  · rw [hvcal, hzcal]
    exact Table.find?_erase_ne _ hj
  · rw [hvcal, hzcal]
    change Table.find? (if r.trained then _ else _) m = _
    split
    · exact Table.find?_set_self _ _ _
    · rfl
  · have hz : z = (w.bump pgCal 0x068).sticky pgCal 0x044 0x20 := if_pos (by rw [htr]; rfl)
    refine ⟨(hpage _ (by decide)).1.trans ?_, ?_⟩
    · rw [hz]
      refine (State.count_bump_self w _ _ 1).trans (congrArg (fun n => min 0xFFFFFFFF (n + 1)) ?_)
      exact (State.count_bump_ne _ _ (by decide)).trans (hcal 0x068 (by decide))
    · rw [(hpage _ (by decide)).2, hz]
      exact State.bitOf_reg_sticky _ _ _ (by decide)

/-- Settles O52: a test is refused, waits, opens a window or runs whole; a window's end completes what it served. -/
theorem rehearsalWindows : Obligations.RehearsalWindows := by
  intro s t cid k
  dsimp only
  refine ⟨fun e h => ⟨fun hn => ⟨fun hk => ?_, fun hk => ?_, fun hk => ?_, fun hk => ?_⟩, fun p l hx hk hlo hhi => ⟨fun hi => ?_, fun hi hb => ?_,
    fun hi hb hu => ?_⟩, fun i c hx hk hlo hhi hi hb => ?_, fun i c hx hk => ⟨fun hm => ?_, fun hm hi hw hin => ?_⟩, fun p hx hk => ⟨fun hm => ?_,
    fun hm hi hw hup => ?_⟩⟩, fun h => ⟨fun hn => ?_, fun x hx hbad => ?_, fun x hx hlo hhi => ⟨fun hi => ?_, fun hi hb => ?_, fun hi hb hlane => ?_⟩⟩,
    fun m r hl hw => ?_, fun m i c r x hl hx ht hsw hserves hk ho => ?_⟩
  · exact congrArg done ((h.run t (Cmd.isTest_of h hk) _).trans (testCmd_noTarget (s := s.at t) cid hn _ _))
  · exact congrArg done ((h.run t (Cmd.isTest_of h hk) _).trans (testCmd_noTarget (s := s.at t) cid hn _ _))
  · exact congrArg done ((h.run t (Cmd.isTest_of h hk) _).trans (testCmd_noTarget (s := s.at t) cid hn _ _))
  · exact congrArg done ((h.run t (Cmd.isTest_of h hk) _).trans (testCmd_noTarget (s := s.at t) cid hn _ _))
  · exact congrArg done ((h.run t (Cmd.isTest_of h hk) _).trans (testCmd_waits (s := s.at t) cid hx rfl hlo hhi hi _))
  · exact congrArg done ((h.run t (Cmd.isTest_of h hk) _).trans (testCmd_busy (s := s.at t) cid hx rfl hlo hhi hi hb _))
  · exact congrArg done ((h.run t (Cmd.isTest_of h hk) _).trans ((testCmd_opens (s := s.at t) cid hx rfl hlo hhi hi hb _).trans
      (State.openWindow_plain (s := s.at t) h.found (.inr ⟨p, l, rfl, hu⟩) _ _)))
  · exact congrArg done ((h.run t (Cmd.isTest_of h hk) _).trans ((testCmd_opens (s := s.at t) cid hx rfl hlo hhi hi hb _).trans
      (State.openWindow_plain (s := s.at t) h.found (.inl rfl) _ _)))
  · exact congrArg done ((h.run t (Cmd.isTest_of h hk) _).trans (testCmd_outsideMaintenance (s := s.at t) cid hx rfl hm _))
  · exact congrArg done ((h.run t (Cmd.isTest_of h hk) _).trans (testCmd_march (s := s.at t) cid hm hi hw hx rfl hin _))
  · exact congrArg done ((h.run t (Cmd.isTest_of h hk) _).trans (testCmd_outsideMaintenance (s := s.at t) cid hx rfl hm _))
  · exact congrArg done ((h.run t (Cmd.isTest_of h hk) _).trans (testCmd_loopback (s := s.at t) cid hm hi hw hx rfl hup _))
  · exact (h.step t _).trans (congrArg done (testCmd_noTarget (s := s.at t) cid hn _ _))
  · exact (h.step t _).trans (congrArg done (testCmd_badLength (s := s.at t) cid hx rfl hbad _))
  · exact (h.step t _).trans (congrArg done (testCmd_waits (s := s.at t) cid hx rfl hlo hhi hi _))
  · exact (h.step t _).trans (congrArg done (testCmd_busy (s := s.at t) cid hx rfl hlo hhi hi hb _))
  · exact (h.step t _).trans (congrArg done ((testCmd_opens (s := s.at t) cid hx rfl hlo hhi hi hb _).trans
      (State.openWindow_plain (s := s.at t) h.found (.inl hlane) _ _)))
  · refine congrArg done ((State.onlyIf_of hl _).trans ?_)
    simp only [rehearsalWindowEnd, State.at_cal, hw]
  · obtain ⟨v, hv, hrest⟩ := rehearsalWindowEnd_pseudo (s := s.at t) r hx ht hsw hserves hk ho
    exact ⟨v, congrArg done ((State.onlyIf_of hl _).trans hv), hrest⟩

end Sys2Proof.Machine
end

section
/-!
Embedding tables and their versions (10 R326, R328, R330, R333 to R336, R356).
-/

namespace Sys2Proof.Machine

theorem State.tab?_setTab_self (s : State) (n : Nat) (x : Tab) : (s.setTab n x).tab? n = some x := Table.find?_set_self _ _ _

theorem State.tab?_setTab_ne (s : State) {n m : Nat} (x : Tab) (h : m ≠ n) : (s.setTab n x).tab? m = s.tab? m := Table.find?_set_ne _ _ h

/-! ### Creation and destruction -/

section
variable {s : State} {k : Cmd} (cid : Nat)

section
variable {d : List Byte} {x : Tab} (hd : s.cmdRead k (cmdPtrA k.raw) 64 = d) (hx : tabOf d = x) (hver : fieldAt d 0 1 / 16 = 1)
include hd hx hver

theorem tableCreate_malformed (h : s.tabOk d x = false) : tableCreate cid k s = s.finish cid .malformed := by
  unfold tableCreate
  simp only [hd, hx, hver, h, bne_self_eq_false, Bool.not_false, Bool.false_eq_true, if_false, if_true]

theorem tableCreate_busy (h : s.tabOk d x = true) (hused : (s.tab? (fieldAt d 36 4)).isSome = true) :
    tableCreate cid k s = s.finish cid .busy := by
  unfold tableCreate
  simp only [hd, hx, hver, h, hused, bne_self_eq_false, Bool.not_true, Bool.false_eq_true, if_false, if_true]

theorem tableCreate_good {u v : State} {fs : List Nat} {ext : Nat} (hext : (if x.kind = 2 then 0 else x.slots * ceilDiv x.rowCount (268435456 / x.stride)) = ext)
    (h : s.tabOk d x = true) (hfree : s.tab? (fieldAt d 36 4) = none) (ha : (s.domain x.owner).state = .active)
    (hheart : s.takeHeart x.owner ext = (u, true)) (htop : u.takeTop x.owner (fieldAt d 34 1) = (v, some fs)) :
    tableCreate cid k s = (v.setTab (fieldAt d 36 4) { x with extents := ext, frames := fs, autoAt := v.tapeTime }).finish cid .ok := by
  unfold tableCreate
  simp only [hd, hx, hver, h, hfree, ha, hext, hheart, htop, bne_self_eq_false, Bool.not_true, Option.isSome_none, Bool.false_eq_true, if_false]

end

theorem tableDestroy_absent (h : s.openTab? (fieldAt k.raw 8 4) = none) : tableDestroy cid k s = s.finish cid .notFound := by
  simp only [tableDestroy, h]

section
variable {x : Tab} (h : s.openTab? (fieldAt k.raw 8 4) = some x)
include h

/-- A table that an Accord table is made of stays. -/
theorem tableDestroy_busy (hacc : (s.gth.tables.any fun e => e.2.kind == 2 && (e.2.accA == fieldAt k.raw 8 4 || e.2.accB == fieldAt k.raw 8 4)) = true) :
    tableDestroy cid k s = s.finish cid .busy := by
  simp only [tableDestroy, h]
  exact if_pos hacc

theorem tableDestroy_open (hacc : (s.gth.tables.any fun e => e.2.kind == 2 && (e.2.accA == fieldAt k.raw 8 4 || e.2.accB == fieldAt k.raw 8 4)) = false) :
    tableDestroy cid k s = (s.setTab (fieldAt k.raw 8 4) { x with isClosed := some cid }).setCmd cid { k with phase := .waiting } := by
  simp only [tableDestroy, h]
  exact if_neg fun ht => Bool.false_ne_true (hacc.symm.trans ht)

end

end

/-- The last command that names a closed table has completed: the table is gone, and its extents and frames return. -/
theorem State.drainTab_free {s : State} {n cid : Nat} {x : Tab} (hx : s.tab? n = some x) (hcl : x.isClosed = some cid)
    (hb : (s.qmg.cmds.any fun e => e.2.namesTab n) = false) : ∃ u : State, s.drainTab n = u.finish cid .ok ∧ u.tab? n = none ∧
      (∀ m, m ≠ n → u.tab? m = s.tab? m) ∧ (u.domain x.owner).usedHeart = (s.domain x.owner).usedHeart - x.extents ∧
      (u.domain x.owner).usedTop = (s.domain x.owner).usedTop - x.frames.length ∧ u.qmg = s.qmg ∧ u.host = s.host ∧ u.win = s.win := by
  let w := s.giveHeart x.owner x.extents
  have hw : w.domain x.owner = { s.domain x.owner with usedHeart := (s.domain x.owner).usedHeart - x.extents } := s.domain_setDomain_self _ _
  have hg : (w.giveTop x.owner x.frames).domain x.owner = { w.domain x.owner with usedTop := (w.domain x.owner).usedTop - x.frames.length } :=
    w.domain_setDomain_self _ _
  let u : State := { w.giveTop x.owner x.frames with gth := { s.gth with tables := s.gth.tables.erase n } }
  have hu : u.domain x.owner = (w.giveTop x.owner x.frames).domain x.owner := rfl
  refine ⟨u, ?_, Table.find?_erase_self _ _, fun m hm => Table.find?_erase_ne _ hm, ?_, ?_, rfl, rfl, rfl⟩
  · simp only [State.drainTab, hx, hcl, hb, Bool.false_eq_true, if_false]
    rfl
  · rw [hu, hg, hw]
  · rw [hu, hg, hw]

/-! ### Versions -/

/-- A TABLE_UPDATE that no earlier one holds back takes its step (10 R349). -/
theorem State.Submitted.isUpdate {s : State} {cid sub : Nat} {k : Cmd} (h : s.Submitted cid 0x11 k) (hg : s.accepts pgGth = true)
    (hb : s.updBehind cid k = false) (hs : fieldAt k.raw 48 1 = sub) (t : Nat) :
    (k.isUpdate sub && (s.at t).accepts pgGth && !(s.at t).updBehind cid k) = true := by
  rw [show (s.at t).accepts pgGth = true from hg, show (s.at t).updBehind cid k = false from hb, Cmd.isUpdate, h.isNew, hs, beq_self_eq_true]
  rfl

section
variable {s : State} {k : Cmd} (cid : Nat) {x : Tab} (hx : s.tab? (updTable k.raw) = some x) (hc : updCount k.raw = 0)
include hx hc

section
variable (hnum : fieldAt k.raw 12 4 ≠ currentVersion) (hnew : (x.vers.any fun v => v.2.num == fieldAt k.raw 12 4 && !v.2.dropped) = false)
  (hfree : s.freeDropped (updTable k.raw) x = x)
include hnum hnew hfree

theorem versionOpen_quota (h : x.slots ≤ x.vers.length) : versionOpen cid k s = s.finish cid .quota := by
  simp only [versionOpen, hx, hfree, hc, hnum, hnew, h, bne_self_eq_false, decide_false, Bool.or_self, Bool.false_eq_true, if_false, if_true]

theorem versionOpen_good (h : x.vers.length < x.slots) : versionOpen cid k s = (s.setTab (updTable k.raw) { x with
    nextVer := x.nextVer + 1
    vers := x.vers.set x.nextVer { num := fieldAt k.raw 12 4, rows := if bitOf (fieldAt k.raw 50 1) 1 then
      ((x.vers.find? x.current).map fun v => v.rows).getD [] else [] } }).finish cid .ok := by
  simp only [versionOpen, hx, hfree, hc, hnum, hnew, Nat.not_le.mpr h, bne_self_eq_false, decide_false, Bool.or_self, Bool.false_eq_true, if_false]

end

section
variable {e : Nat × TabVer} (he : List.find? (fun v => v.2.num == fieldAt k.raw 12 4 && !v.2.dropped) x.vers = some e)
include he

theorem versionDrop_busy (h : e.1 = x.current) : versionDrop cid k s = s.finish cid .busy := by
  simp only [versionDrop, hx, hc, he, h, bne_self_eq_false, Bool.false_eq_true, if_false, if_true]

/-- The table with a version dropped. -/
def Tab.dropVer (x : Tab) (e : Nat × TabVer) : Tab :=
  { x with vers := x.vers.set e.1 { e.2 with dropped := true }, hot := x.hot.filter (fun h => h.1 != e.1), dir := x.dir.filter fun r => r.1 / 2 ^ 32 != e.1 }

/-- A version that is not the current one is dropped, and its slot is freed once no command holds it. -/
theorem versionDrop_good (hk : s.cmd? cid = some k) (h : e.1 ≠ x.current) : ∃ u : State, versionDrop cid k s =
    u.setTab (updTable k.raw) (u.freeDropped (updTable k.raw) (x.dropVer e)) ∧ u.cmd? cid = none ∧ ∀ m, m ≠ updTable k.raw → u.tab? m = s.tab? m := by
  let w := s.setTab (updTable k.raw) (x.dropVer e)
  have hgth : (w.finish cid .ok).gth = w.gth := (w.postStep_finish cid .ok 0 0).gth
  have htab (m : Nat) : (w.finish cid .ok).tab? m = w.tab? m := by rw [State.tab?, hgth]; rfl
  refine ⟨w.finish cid .ok, ?_, State.finish_cmd?_self (s := w) hk _ _ _, fun m hm => (htab m).trans (State.tab?_setTab_ne _ _ hm)⟩
  simp only [versionDrop, hx, hc, he, h, bne_self_eq_false, Bool.false_eq_true, if_false]
  change (match (w.finish cid .ok).tab? (updTable k.raw) with
    | none => w.finish cid .ok
    | some t => (w.finish cid .ok).setTab (updTable k.raw) ((w.finish cid .ok).freeDropped (updTable k.raw) t)) = _
  rw [(htab _).trans (State.tab?_setTab_self _ _ _)]

end

end

/-- Freeing what dropped slots held shows no slot that is not dropped anew. -/
theorem State.freeDropped_dropVer {s : State} {n : Nat} {x : Tab} {e : Nat × TabVer} (hw : x.vers.wf = true) {z : TabVer}
    (h : Table.find? (s.freeDropped n (x.dropVer e)).vers e.1 = some z) : z.dropped = true := by
  have hmem : (e.1, z) ∈ (x.dropVer e).vers := (List.mem_filter.mp (mem_of_find? h)).1
  have hfind := find?_of_mem (Table.set_wf hw e.1 { e.2 with dropped := true }) hmem
  rw [Table.find?_set_self] at hfind
  rw [← Option.some.inj hfind]

/-! ### Switches (R334, R335) -/

section
variable {s : State} {k : Cmd} (cid : Nat) (hsch : s.toSchedule k = false)
include hsch

theorem tableSwitch_absent (h : s.openTab? (updTable k.raw) = none) : tableSwitch cid k s = s.finish cid .notFound := by
  simp only [tableSwitch, hsch, Bool.false_eq_true, if_false, State.startSwitch, h]

section
variable {x : Tab} (h : s.openTab? (updTable k.raw) = some x) (hkind : x.kind ≠ 2) {e : Nat × TabVer}
  (he : List.find? (fun v => v.2.num == fieldAt k.raw 12 4 && !v.2.dropped) x.vers = some e)
include h hkind he

theorem tableSwitch_same (hcur : e.1 = x.current) (hw : x.switchers = []) : tableSwitch cid k s = s.finish cid .ok := by
  simp only [tableSwitch, hsch, Bool.false_eq_true, if_false, State.startSwitch, h, hkind, he, hcur, hw, List.isEmpty_nil, decide_true, Bool.and_self, if_true]

theorem tableSwitch_waits (hcur : e.1 ≠ x.current) : tableSwitch cid k s =
    (s.setTab (updTable k.raw) { x with switchers := x.switchers ++ [cid] }).setCmd cid { k with phase := .waiting } := by
  simp only [tableSwitch, hsch, Bool.false_eq_true, if_false, State.startSwitch, h, hkind, he, hcur, decide_false, Bool.false_and]

end

end

section
variable {s : State} {n num ticket : Nat} {x : Tab} {e : Nat × TabVer} (hx : s.tab? n = some x)
  (he : List.find? (fun v => v.2.num == num && !v.2.dropped) x.vers = some e)
include hx he

/-- The switch at the head of the line takes effect. -/
theorem State.switchNow_head (hh : x.switchers.head? = some ticket) {limit : Nat} (hb : s.switchBlocked n e.1 limit = false) (hcur : e.1 ≠ x.current) :
    s.switchNow n num ticket limit = ((s.setTab n { x with
      switchers := x.switchers.drop 1
      cueTarget := x.cueTarget.erase ticket
      current := e.1 }).bump pgGth 0x080, some .ok) := by
  simp only [State.switchNow, hx, hh, he, hb, hcur, bne_self_eq_false, Bool.false_eq_true, if_false]

/-- A switch whose turn has not come, or that an update holds back, waits. -/
theorem State.switchNow_waits {limit : Nat} (h : x.switchers.head? ≠ some ticket ∨ s.switchBlocked n e.1 limit = true) :
    s.switchNow n num ticket limit = (s, none) := by
  simp only [State.switchNow, hx]
  by_cases hh : x.switchers.head? = some ticket
  · simp only [hh, he, h.resolve_left (not_not_intro hh), bne_self_eq_false, Bool.false_eq_true, if_false, if_true]
  · exact if_pos (bne_iff_ne.mpr hh)

end

/-- A switch that a command asked for, at its turn. -/
theorem tableSwitchTakeEffect_cmd {s : State} {cid : Nat} {k : Cmd} (hc : cid < 2 ^ 40) (hk : s.cmd? cid = some k) (ho : cmdOpcode k.raw = 0x12)
    (hp : k.phase = .waiting) : tableSwitchTakeEffect cid s = match s.switchNow (updTable k.raw) (fieldAt k.raw 12 4) cid cid with
      | (s, some st) => s.finish cid st
      | (s, none) => s := by
  unfold tableSwitchTakeEffect
  rw [if_neg (Nat.not_le.mpr hc), hk]
  exact if_neg (by rw [ho, hp]; decide)

/-- Settles O45: each command is its own step, and a table's switches take effect in turn. -/
theorem tablesAndVersions : Obligations.TablesAndVersions := by
  intro s t cid k
  dsimp only
  refine ⟨fun h hver => ⟨fun hok => ?_, fun hok hused => ?_, fun u v fs ext hext hok hfree ha hheart htop => ?_⟩,
    fun h => ⟨fun hx => ?_, fun x hx hacc => ?_, fun x hx hacc => ?_⟩, fun n x hl hx hcl hb => ?_,
    fun h hg hbeh x hx hc => ⟨fun hs hnum hnew hfree => ⟨fun hlen => ?_, fun hlen => ?_⟩, fun e hs hw he => ⟨fun hcur => ?_, fun hcur => ?_⟩⟩,
    fun h hg hsch => ⟨fun hx => ?_, fun x e hx hkind he => ⟨fun hcur hw => ?_, fun hcur => ?_⟩⟩,
    fun hl hk ho hp hlt x e hx he => ⟨fun hh hb hcur => ?_, fun hwait => ?_⟩⟩
  · exact (h.step t _).trans (congrArg done (tableCreate_malformed (s := s.at t) cid rfl rfl hver hok))
  · exact (h.step t _).trans (congrArg done (tableCreate_busy (s := s.at t) cid rfl rfl hver hok hused))
  · exact (h.step t _).trans (congrArg done (tableCreate_good (s := s.at t) cid rfl rfl hver hext.symm hok hfree ha hheart htop))
  · exact (h.step t _).trans (congrArg done (tableDestroy_absent (s := s.at t) cid hx))
  · exact (h.step t _).trans (congrArg done (tableDestroy_busy (s := s.at t) cid hx hacc))
  · exact (h.step t _).trans (congrArg done (tableDestroy_open (s := s.at t) cid hx hacc))
  · obtain ⟨u, hu, hrest⟩ := State.drainTab_free (s := s.at t) hx hcl hb
    exact ⟨u, congrArg done ((State.onlyIf_of hl _).trans hu), hrest⟩
  · exact congrArg done ((h.run t (h.isUpdate hg hbeh hs t) _).trans (versionOpen_quota (s := s.at t) cid hx hc hnum hnew hfree hlen))
  · exact congrArg done ((h.run t (h.isUpdate hg hbeh hs t) _).trans (versionOpen_good (s := s.at t) cid hx hc hnum hnew hfree hlen))
  · exact congrArg done ((h.run t (h.isUpdate hg hbeh hs t) _).trans (versionDrop_busy (s := s.at t) cid hx hc he hcur))
  · obtain ⟨u, hu, hgone, hother⟩ := versionDrop_good (s := s.at t) cid hx hc he h.found hcur
    refine ⟨_, _, congrArg done ((h.run t (h.isUpdate hg hbeh hs t) _).trans hu), hgone, State.tab?_setTab_self _ _ _, rfl,
      fun z hz => State.freeDropped_dropVer hw hz, fun r hr => ?_, fun m hm => (State.tab?_setTab_ne _ _ hm).trans (hother m hm)⟩
    exact bne_iff_ne.mp (List.mem_filter.mp hr).2
  · exact congrArg done ((h.run t (by rw [h.isNew, show (s.at t).accepts pgGth = true from hg]; rfl) _).trans
      (tableSwitch_absent (s := s.at t) cid hsch hx))
  · exact congrArg done ((h.run t (by rw [h.isNew, show (s.at t).accepts pgGth = true from hg]; rfl) _).trans
      (tableSwitch_same (s := s.at t) cid hsch hx hkind he hcur hw))
  · exact congrArg done ((h.run t (by rw [h.isNew, show (s.at t).accepts pgGth = true from hg]; rfl) _).trans
      (tableSwitch_waits (s := s.at t) cid hsch hx hkind he hcur))
  · refine congrArg done ((State.onlyIf_of hl _).trans ((tableSwitchTakeEffect_cmd (s := s.at t) hlt hk ho hp).trans ?_))
    rw [State.switchNow_head (s := s.at t) (n := updTable k.raw) hx he hh hb hcur]
    rfl
  · refine congrArg done ((State.onlyIf_of hl _).trans ((tableSwitchTakeEffect_cmd (s := s.at t) hlt hk ho hp).trans ?_))
    rw [State.switchNow_waits (s := s.at t) (n := updTable k.raw) hx he hwait]

end Sys2Proof.Machine
end

section
/-!
Base reads, writes, discards and stalls (13 R424, R426 to R431, R446, R447).
-/

namespace Sys2Proof.Machine

theorem State.length_cmdRead (s : State) (k : Cmd) (ptr n : Nat) : (s.cmdRead k ptr n).length = n := by
  unfold State.cmdRead
  split
  · simp [State.readBytes]
  · simp only [bytesAt, zeroBytes, List.length_append, List.length_take, List.length_drop, List.length_replicate]
    omega

/-- A command of a queue writes its results through its domain's view. -/
theorem State.cmdWrite_queue {s : State} {cid q : Nat} {k : Cmd} (hk : s.cmd? cid = some k) (hq : k.origin = .queue q) (ptr off : Nat) (bs : List Byte) :
    s.cmdWrite cid ptr off bs = s.writeBytes k.view (ptr + off) bs := by
  simp only [State.cmdWrite, hk, hq]

/-! ### Ranges (13 R426) -/

theorem State.baseRefusal_none {s : State} {k : Cmd} {align : Nat} (h : s.baseRefusal k align = none) :
    baseLen k.raw ≠ 0 ∧ baseLen k.raw % align = 0 ∧ baseOff k.raw % align = 0 := by
  unfold State.baseRefusal at h
  split at h
  · cases h
  · dsimp only at h
    split at h
    · cases h
    · next hok =>
      simp only [Bool.or_eq_true, decide_eq_true_eq, bne_iff_ne, not_or, Decidable.not_not] at hok
      obtain ⟨⟨⟨⟨hne, -⟩, hlen⟩, hoff⟩, -⟩ := hok
      exact ⟨hne, hlen, hoff⟩

section
variable {s : State} {k : Cmd} (cid : Nat)

theorem baseRead_refused {st : Status} (h : s.baseRefusal k 64 = some st) : baseRead cid k s = s.finish cid st := by
  simp only [baseRead, h]

theorem baseWrite_refused {st : Status} (h : s.baseRefusal k 4096 = some st) : baseWrite cid k s = s.finish cid st := by
  simp only [baseWrite, h]

theorem baseDiscard_refused {st : Status} (h : s.baseRefusal k 16384 = some st) : baseDiscard cid k s = s.finish cid st := by
  simp only [baseDiscard, h]

end

/-! ### Reads within one part (13 R424) -/

/-- A range that is not empty and stays within one part. -/
theorem parts_one {off len : Nat} (hlen : len ≠ 0) (hin : off % 4096 + len ≤ 4096) :
    List.range' (off / 4096) (ceilDiv (off + len) 4096 - off / 4096) = [off / 4096] := by
  have : ceilDiv (off + len) 4096 - off / 4096 = 1 := by
    unfold ceilDiv
    rw [if_neg (by decide)]
    omega
  rw [this]
  rfl

/-- A Base command whose operations are still under way goes on. -/
theorem State.baseFinish_busy {s : State} {cid : Nat} (h : s.bft.ops.any (fun e => e.2.task.cid? == some cid) = true) : s.baseFinish cid = s := by
  unfold State.baseFinish
  split
  · rfl
  · rw [h, Bool.or_true]
    exact if_pos rfl

/-- A Base command with nothing left to do, no failure and no result area completes with the parts it has done. -/
theorem State.baseFinish_done {s : State} {cid : Nat} {k : Cmd} (hk : s.cmd? cid = some k) (hp : k.phase = .started)
    (hops : s.bft.ops.any (fun e => e.2.task.cid? == some cid) = false) (hb : cmdPtrB k.raw = 0) (ha : k.aborting = false) (hf : k.failed = 0) :
    s.baseFinish cid = s.finish cid .ok k.done := by
  have hgo : (decide (k.phase = .admitted) || s.bft.ops.any (fun e => e.2.task.cid? == some cid)) = false := by rw [hp, hops]; rfl
  simp only [State.baseFinish, hk, hgo, hb, ha, hf, Bool.false_eq_true, if_false, if_true]

section
variable {s : State} {k : Cmd} (cid : Nat) (href : s.baseRefusal k 64 = none) (hin : baseOff k.raw % 4096 + baseLen k.raw ≤ 4096)
include href hin

/-- A part that is written is read from its page. -/
theorem baseRead_written {x : FlashUnit} (hx : s.bft.units.find? (unitKey (baseVol k.raw) (baseOff k.raw / 16384)) = some x) :
    baseRead cid k s = (s.setCmd cid { k with phase := .started }).startOp (.read cid (baseOff k.raw / 4096)) x.page := by
  have hdiv : baseOff k.raw / 4096 / 4 = baseOff k.raw / 16384 := Nat.div_div_eq_div_mul _ _ _
  have hx' : (s.setCmd cid { k with phase := .started }).bft.units.find? (unitKey (baseVol k.raw) (baseOff k.raw / 16384)) = some x := hx
  simp only [baseRead, href, parts_one (State.baseRefusal_none href).1 hin, List.foldl_cons, List.foldl_nil, hdiv, hx']
  refine State.baseFinish_busy (List.any_eq_true.mpr ⟨_, mem_of_find? (Table.find?_set_self _ _ _), ?_⟩)
  exact beq_self_eq_true (some cid)

/-- A part that was never written reads zeros at once. -/
theorem baseRead_zeros {q : Nat} (hq : k.origin = .queue q) (hf : k.failed = 0) (ha : k.aborting = false)
    (hops : s.bft.ops.any (fun e => e.2.task.cid? == some cid) = false) (hb : cmdPtrB k.raw = 0)
    (hx : s.bft.units.find? (unitKey (baseVol k.raw) (baseOff k.raw / 16384)) = none) (hu : linkUp s = true) :
    ∃ u : State, baseRead cid k s = u.finish cid .ok (k.done + 1) ∧
      u.readBytes k.view (cmdPtrA k.raw) (baseLen k.raw) = zeroBytes (baseLen k.raw) ∧ u.bft = s.bft := by
  have hdiv : baseOff k.raw / 4096 / 4 = baseOff k.raw / 16384 := Nat.div_div_eq_div_mul _ _ _
  have hx' : (s.setCmd cid { k with phase := .started }).bft.units.find? (unitKey (baseVol k.raw) (baseOff k.raw / 16384)) = none := hx
  have hk' : (s.setCmd cid { k with phase := .started }).cmd? cid = some { k with phase := .started } := State.cmd?_setCmd_self _ _ _
  have hview : Cmd.view { k with phase := .started } = k.view := rfl
  have hat : max (baseOff k.raw) (baseOff k.raw / 4096 * 4096) - baseOff k.raw = 0 := by omega
  have hn : min (baseOff k.raw + baseLen k.raw) (baseOff k.raw / 4096 * 4096 + 4096) - max (baseOff k.raw) (baseOff k.raw / 4096 * 4096) = baseLen k.raw := by
    omega
  have hpost := (s.setCmd cid { k with phase := .started }).postStep_writeBytes k.view (cmdPtrA k.raw + 0) (zeroBytes (baseLen k.raw))
  have hzero := State.readBytes_writeBytes (s := s.setCmd cid { k with phase := .started }) (v := k.view) hu (cmdPtrA k.raw + 0) (zeroBytes (baseLen k.raw))
  simp only [baseRead, href, parts_one (State.baseRefusal_none href).1 hin, List.foldl_cons, List.foldl_nil, hdiv, hx', hk', hat, hn,
    State.cmdWrite_queue hk' hq, hview]
  generalize State.writeBytes _ _ _ _ = z at hpost hzero ⊢
  let k₂ : Cmd := { k with phase := .started, done := k.done + 1 }
  have hops' : (z.setCmd cid k₂).bft.ops.any (fun e => e.2.task.cid? == some cid) = false := by
    rw [show (z.setCmd cid k₂).bft = s.bft from hpost.bft]
    exact hops
  refine ⟨z.setCmd cid k₂, State.baseFinish_done (k := k₂) (State.cmd?_setCmd_self _ _ _) rfl hops' hb ha hf, ?_, hpost.bft⟩
  rw [show (zeroBytes (baseLen k.raw)).length = baseLen k.raw from List.length_replicate] at hzero
  exact (State.readBytes_congr (s := z) fun a => State.readByte_congr rfl rfl rfl rfl _ _).trans hzero

end

/-! ### Writes (13 R427, R446, R447) -/

section
variable {s : State} {k : Cmd} (cid : Nat) (href : s.baseRefusal k 4096 = none) (htemp : fieldAt k.raw 56 1 ≤ 1 ∨ fieldAt k.raw 56 1 = 0xFF)
include href htemp

omit href in
theorem tempOk : (decide (1 < fieldAt k.raw 56 1) && fieldAt k.raw 56 1 != 0xFF) = false := by
  rcases htemp with h | h
  · rw [decide_eq_false (Nat.not_lt.mpr h)]
    rfl
  · rw [h]
    decide

/-- A write that meets the Exhausted state turns its volume ReadOnly. -/
theorem baseWrite_exhausted (h : s.bft.exhausted = true) : baseWrite cid k s = ((s.withBft fun f => { f with
    volumes := f.volumes.modify (baseVol k.raw) (fun v => { v with readOnly := true })
    readOnlySeen := true }).finish cid .mediaExhausted).bump pgBft 0x090 := by
  simp only [baseWrite, href, tempOk htemp, State.writeBarred, State.barWrite, State.exhaustCmd, h, Bool.true_or, Bool.false_eq_true, if_false, if_true]

/-- A write of one whole unit is programmed to the page that its stream gives. -/
theorem baseWrite_unit {u : State} {page : Nat} (hb : s.writeBarred (baseVol k.raw) = false) (hoff : baseOff k.raw % 16384 = 0)
    (hlen : baseLen k.raw = 16384) (hallot : s.allotMany (streamOf (fieldAt k.raw 56 1)) 1 = some (u, [page])) : baseWrite cid k s =
    ((u.withBft fun f => { f with waits := f.waits.erase cid, hostWr := f.hostWr + baseLen k.raw }).setCmd cid { k with phase := .started }).startOp
      (.prog cid (unitKey (baseVol k.raw) (baseOff k.raw / 16384)) (Memory.writeN [] 0 (u.cmdRead k (cmdPtrA k.raw) 16384))) page := by
  have hunits : ceilDiv (baseOff k.raw + 16384) 16384 - baseOff k.raw / 16384 = 1 := by
    unfold ceilDiv
    rw [if_neg (by decide)]
    omega
  have hlo : max (baseOff k.raw) (baseOff k.raw / 16384 * 16384) = baseOff k.raw := by omega
  have hbytes : bytesAt (u.cmdRead k (cmdPtrA k.raw) 16384) (baseOff k.raw - baseOff k.raw)
      (min (baseOff k.raw + 16384) (baseOff k.raw / 16384 * 16384 + 16384) - baseOff k.raw) = u.cmdRead k (cmdPtrA k.raw) 16384 := by
    rw [Nat.sub_self, bytesAt, List.drop_zero]
    exact List.take_of_length_le (by rw [State.length_cmdRead]; omega)
  simp only [baseWrite, href, tempOk htemp, hb, hlen, hunits, List.range'_one, List.length_singleton, hallot, List.zip_cons_cons, List.zip_nil_right,
    List.foldl_cons, List.foldl_nil, Bool.false_eq_true, if_false]
  unfold State.writeUnit
  simp only [hlo, hbytes, hoff, State.length_cmdRead, if_true]
  split
  · rfl
  · rfl

/-- A write that finds no page waits. -/
theorem baseWrite_stalls (hb : s.writeBarred (baseVol k.raw) = false) (hst : s.bft.stalled = false)
    (hallot : s.allotMany (streamOf (fieldAt k.raw 56 1)) (ceilDiv (baseOff k.raw + baseLen k.raw) 16384 - baseOff k.raw / 16384) = none) :
    baseWrite cid k s = ((s.bump pgBft 0x08C).withBft fun f => { f with
      stalled := true
      waits := f.waits.set cid (f.waits.getD cid s.now) }).setCmd cid { k with phase := .waiting } := by
  simp only [baseWrite, href, tempOk htemp, hb, List.length_range', hallot, hst, Bool.false_eq_true, if_false]
  rfl

end

section
variable {s : State} {cid since : Nat} (hw : s.bft.waits.find? cid = some since)
include hw

theorem writeStallExpiry_due (h : since + s.reg pgBft 0x050 * ms < s.now) : writeStallExpiry cid s =
    ((s.withBft fun f => { f with waits := f.waits.erase cid }).finish cid .mediaExhausted).bump pgBft 0x090 := by
  simp only [writeStallExpiry, hw]
  exact if_pos h

theorem writeStallExpiry_early (h : s.now ≤ since + s.reg pgBft 0x050 * ms) : writeStallExpiry cid s = s := by
  simp only [writeStallExpiry, hw]
  exact if_neg (Nat.not_lt.mpr h)

end

/-! ### Discards (13 R430) -/

/-- The unit map with the parts of the listed units discarded. -/
def discardUnits (vol : Nat) (us : Table FlashUnit) (units : List Nat) : Table FlashUnit :=
  units.foldl (fun us u => us.modify (unitKey vol u) fun x => { x with loose := [0, 1, 2, 3] }) us

/-- A discard keeps what every unit holds. -/
theorem discardUnits_data (vol : Nat) (us : Table FlashUnit) (units : List Nat) (key : Nat) :
    ((discardUnits vol us units).find? key).map FlashUnit.data = (us.find? key).map FlashUnit.data := by
  refine foldl_keeps (fun us : Table FlashUnit => (us.find? key).map FlashUnit.data) (fun us u => ?_) units us
  rw [find?_modify]
  split
  · next h => rw [h, Option.map_map]; rfl
  · rfl

theorem discardUnits_other {vol key : Nat} {units : List Nat} (h : ∀ u ∈ units, key ≠ unitKey vol u) (us : Table FlashUnit) :
    (discardUnits vol us units).find? key = us.find? key := by
  induction units generalizing us with
  | nil => rfl
  | cons u units ih =>
    refine (ih (fun v hv => h v (List.mem_cons_of_mem _ hv)) _).trans ?_
    rw [find?_modify, if_neg (h u List.mem_cons_self)]

theorem baseDiscard_good {s : State} {k : Cmd} (cid : Nat) (href : s.baseRefusal k 16384 = none) (hb : s.writeBarred (baseVol k.raw) = false)
    (hp : cmdPtrB k.raw = 0) : baseDiscard cid k s = (s.withBft fun f => { f with
      units := discardUnits (baseVol k.raw) f.units (List.range' (baseOff k.raw / 16384) (baseLen k.raw / 16384)) }).finish cid .ok (baseLen k.raw / 4096) := by
  simp only [baseDiscard, href, hb, hp, Bool.false_eq_true, if_false, if_true]
  rfl

/-- A byte of a unit whose parts may be discarded reads zero, or what the unit held. -/
theorem State.volByte_of_data {s u : State} {vol a : Nat}
    (h : (u.bft.units.find? (unitKey vol (a / 16384))).map FlashUnit.data = (s.bft.units.find? (unitKey vol (a / 16384))).map FlashUnit.data) :
    u.volByte vol a = 0 ∨ ∃ x, s.bft.units.find? (unitKey vol (a / 16384)) = some x ∧ u.volByte vol a = Memory.read x.data (a % 16384) := by
  unfold State.volByte
  cases hu : u.bft.units.find? (unitKey vol (a / 16384)) with
  | none => exact .inl rfl
  | some y =>
    cases hs : s.bft.units.find? (unitKey vol (a / 16384)) with
    | none => rw [hu, hs] at h; cases h
    | some x =>
      rw [hu, hs] at h
      dsimp only
      split
      · exact .inl rfl
      · exact .inr ⟨x, rfl, by rw [Option.some.inj h]⟩

/-- Settles O46: each command is refused, runs at once, starts its operation, or waits. -/
theorem baseCommands : Obligations.BaseCommands := by
  intro s t cid k hacc hbeh
  dsimp only
  have hread (h : s.Submitted cid 0x18 k) : exec (.baseRead t cid) s = .next (baseRead cid k (s.at t)).settle :=
    congrArg done (h.run t (by rw [h.isNew, show (s.at t).accepts pgBft = true from hacc]; rfl) _)
  have hwrite (h : s.Submitted cid 0x19 k) : exec (.baseWrite t cid) s = .next (baseWrite cid k (s.at t)).settle :=
    congrArg done (h.run t (by
      rw [State.canBaseWrite, h.opcode, h.admitted, show (s.at t).accepts pgBft = true from hacc, show (s.at t).baseBehind cid k = false from hbeh]; rfl) _)
  have hdiscard (h : s.Submitted cid 0x1A k) : exec (.baseDiscard t cid) s = .next (baseDiscard cid k (s.at t)).settle :=
    congrArg done (h.run t (by
      rw [h.isNew, show (s.at t).accepts pgBft = true from hacc, show (s.at t).baseBehind cid k = false from hbeh]; rfl) _)
  refine ⟨fun st h hr => ?_, fun st h hr => ?_, fun st h hr => ?_, fun q h href hin hq hf ha hops hb => ⟨fun hx hu => ?_, fun x hx => ?_⟩,
    fun h href htemp => ⟨fun hex => ?_, fun u page hb hoff hlen hallot => ?_, fun hb hst hallot => ?_⟩, fun since hl hw => ⟨fun hdue => ?_, fun hearly => ?_⟩,
    fun h href hb hp => ?_⟩
  · exact (hread h).trans (congrArg done (baseRead_refused (s := s.at t) cid hr))
  · exact (hwrite h).trans (congrArg done (baseWrite_refused (s := s.at t) cid hr))
  · exact (hdiscard h).trans (congrArg done (baseDiscard_refused (s := s.at t) cid hr))
  · obtain ⟨u, hrun, hzero, hbft⟩ := baseRead_zeros (s := s.at t) cid href hin hq hf ha hops hb hx hu
    exact ⟨u, (hread h).trans (congrArg done hrun), hzero, hbft⟩
  · exact (hread h).trans (congrArg done (baseRead_written (s := s.at t) cid href hin hx))
  · exact (hwrite h).trans (congrArg done (baseWrite_exhausted (s := s.at t) cid href htemp hex))
  · exact (hwrite h).trans (congrArg done (baseWrite_unit (s := s.at t) cid href htemp hb hoff hlen hallot))
  · exact (hwrite h).trans (congrArg done (baseWrite_stalls (s := s.at t) cid href htemp hb hst hallot))
  · exact congrArg done ((State.onlyIf_of hl _).trans (writeStallExpiry_due (s := s.at t) hw hdue))
  · exact congrArg done ((State.onlyIf_of hl _).trans (writeStallExpiry_early (s := s.at t) hw hearly))
  · refine ⟨_, (hdiscard h).trans (congrArg done (baseDiscard_good (s := s.at t) cid href hb hp)), fun a _ _ => State.volByte_of_data (discardUnits_data ..),
      fun key hkey => discardUnits_other (fun i hi => ?_) _, rfl, rfl, rfl⟩
    obtain ⟨hlo, hhi⟩ := List.mem_range'_1.mp hi
    exact hkey i hlo (by omega)

end Sys2Proof.Machine
end

section
/-!
Near-Bank Units: scratch rows, refreshes, the raw share and unit faults (06 R202, R211 to R214, R219, R228, R229).
-/

namespace Sys2Proof.Machine

theorem filter_const_true {α : Type} (l : List α) : l.filter (fun _ => true) = l := List.filter_eq_self.mpr fun _ _ => rfl

theorem filter_const_false {α : Type} (l : List α) : l.filter (fun _ => false) = [] := List.filter_eq_nil_iff.mpr fun _ _ => Bool.false_ne_true

/-! ### Scratch rows -/

theorem Cmd.isSub_of {s : State} {cid sub : Nat} {k : Cmd} (h : s.Submitted cid 0x28 k) (hs : fieldAt k.raw 48 1 = sub) : k.isSub sub = true := by
  rw [Cmd.isSub, h.isNew, hs, beq_self_eq_true]
  rfl

section
variable {s : State} {k : Cmd} (cid : Nat)

theorem scratchOpen_malformed (h : scratchRange k = none) : scratchOpen cid k s = s.finish cid .malformed := by
  simp only [scratchOpen, h]

section
variable {first rows : Nat} (h : scratchRange k = some (first, rows))
include h

theorem scratchOpen_denied (hend : 262144 < first + rows) : scratchOpen cid k s = s.finish cid .denied := by
  simp only [scratchOpen, h]
  exact if_pos hend

/-- A range of an extent that has none yet takes an entry of its own. -/
theorem scratchOpen_new (hend : first + rows ≤ 262144) (hnone : ∀ e ∈ (s.pnmStack (fieldAt k.raw 8 4 / 512)).regions, e.2.1 ≠ fieldAt k.raw 8 4)
    (hroom : (s.pnmStack (fieldAt k.raw 8 4 / 512)).regions.length < 256) : scratchOpen cid k s =
    ((s.setPnmStack (fieldAt k.raw 8 4 / 512) { s.pnmStack (fieldAt k.raw 8 4 / 512) with
      regions := Table.set (s.pnmStack (fieldAt k.raw 8 4 / 512)).regions (((s.pnmStack (fieldAt k.raw 8 4 / 512)).regions.lowestFree 0 256).getD 0)
        (fieldAt k.raw 8 4, first, rows) }).cmdWrite cid (cmdPtrC k.raw) 0 (bareHeader 0 0)).finish cid .ok := by
  have hhit : (s.pnmStack (fieldAt k.raw 8 4 / 512)).regions.filter
      (fun e => e.2.1 == fieldAt k.raw 8 4 && decide (e.2.2.1 < first + rows) && decide (first < e.2.2.1 + e.2.2.2)) = [] := by
    refine List.filter_eq_nil_iff.mpr fun e he => ?_
    rw [beq_false_of_ne (hnone e he)]
    exact Bool.false_ne_true
  have hkept : (s.pnmStack (fieldAt k.raw 8 4 / 512)).regions.filter (fun _ => true) = (s.pnmStack (fieldAt k.raw 8 4 / 512)).regions :=
    filter_const_true _
  simp only [scratchOpen, h, hhit, if_neg (Nat.not_lt.mpr hend), List.isEmpty_nil, Bool.true_and, decide_eq_true_eq, if_neg (Nat.not_le.mpr hroom),
    List.map_nil, List.foldl_nil, List.contains_nil, Bool.not_false, hkept, Nat.add_sub_cancel_left]

end

/-- A close whose rows no run names takes effect and completes at once. -/
theorem scratchClose_done {first rows : Nat} (h : scratchRange k = some (first, rows)) (hend : first + rows ≤ 262144) (hruns : s.pnm.runs = [])
    (hcl : s.pnm.closing = []) : scratchClose cid k s =
    (((s.setPnmStack (fieldAt k.raw 8 4 / 512) { s.pnmStack (fieldAt k.raw 8 4 / 512) with
      regions := closeRange (s.pnmStack (fieldAt k.raw 8 4 / 512)).regions (fieldAt k.raw 8 4) first rows }).setCmd cid { k with phase := .started }).cmdWrite
        cid (cmdPtrC k.raw) 0 (bareHeader 0 0)).finish cid .ok := by
  let w := (s.setPnmStack (fieldAt k.raw 8 4 / 512) { s.pnmStack (fieldAt k.raw 8 4 / 512) with
    regions := closeRange (s.pnmStack (fieldAt k.raw 8 4 / 512)).regions (fieldAt k.raw 8 4) first rows }).setCmd cid { k with phase := .started }
  let z := w.withPnm fun b => { b with closing := b.closing ++ [cid] }
  have hz : z.pnm.closing = [cid] := by
    change s.pnm.closing ++ [cid] = [cid]
    rw [hcl]
    rfl
  have hzruns : z.pnm.runs = [] := hruns
  have hk : z.cmd? cid = some { k with phase := .started } := State.cmd?_setCmd_self _ _ _
  have hback : (z.withPnm fun b => { b with closing := b.closing.erase cid }) = w := by
    have hclosing : z.pnm.closing.erase cid = w.pnm.closing := by
      rw [hz, List.erase_cons_head]
      exact hcl.symm
    change { w with pnm := { w.pnm with closing := z.pnm.closing.erase cid } } = w
    rw [hclosing]
  have hrun : scratchClose cid k s = z.closeDone := by
    simp only [scratchClose, h]
    exact if_neg (Nat.not_lt.mpr hend)
  rw [hrun, State.closeDone, hz]
  simp only [List.foldl_cons, List.foldl_nil, hk, hzruns, List.any_nil, Bool.false_eq_true, if_false, hback]
  rfl

end

/-! ### Refreshes (R202) -/

theorem PnmStack.refreshed_due {p : PnmStack} {pseudo now : Nat} (h : p.due pseudo ≤ now) : ∃ due, now < due ∧ due ≤ now + 3900 ∧
    (∃ m, due = p.due pseudo + 3900 * m) ∧ p.refreshed pseudo now = { p with dueAt := p.dueAt.set pseudo due } :=
  ⟨p.due pseudo + 3900 * ((now - p.due pseudo) / 3900 + 1), by omega, by omega, ⟨_, rfl⟩, rfl⟩

section
variable {s : State} {stack pseudo : Nat}

theorem refresh_due (hd : (s.pnmStack stack).due pseudo ≤ s.now)
    (hr : s.pnm.runs.any (fun e => e.2.phase == .running && e.2.stack == stack && e.2.pseudo == pseudo) = false) :
    refresh stack pseudo s = s.setPnmStack stack ((s.pnmStack stack).refreshed pseudo s.now) :=
  if_neg (by rw [hr, decide_eq_false (Nat.not_lt.mpr hd)]; decide)

theorem refresh_early (hd : s.now < (s.pnmStack stack).due pseudo) : refresh stack pseudo s = s :=
  if_pos (by rw [decide_eq_true hd]; rfl)

end

/-! ### The raw share (R219, R230) -/

/-- A write of a register's fields changes the registers alone. -/
theorem State.writeFields_keeps (s : State) (page off val : Nat) : ∃ regs, s.writeFields page off val = { s with regs := regs } := by
  unfold State.writeFields
  split
  · exact ⟨_, rfl⟩
  split
  · exact ⟨_, rfl⟩
  dsimp only
  split
  · exact ⟨_, rfl⟩
  · exact ⟨_, rfl⟩

section
variable {s : State} {stack val : Nat}

theorem rawShareWrite_keeps (h : (s.writeFields (pgPnm stack) 0x04C val).reg (pgPnm stack) 0x04C ≠ 0 ∨ s.pnm.runs = []) :
    rawShareWrite stack val s = s.writeFields (pgPnm stack) 0x04C val := by
  obtain ⟨regs, hw⟩ := s.writeFields_keeps (pgPnm stack) 0x04C val
  unfold rawShareWrite
  dsimp only
  split
  · rfl
  · next hz =>
    have hruns : (s.writeFields (pgPnm stack) 0x04C val).pnm.runs = [] := by
      rw [hw]
      exact h.resolve_left fun hne => hz (bne_iff_ne.mpr hne)
    rw [hruns]
    rfl

/-- A share of 0 completes the one run that waits. -/
theorem rawShareWrite_busy {n : Nat} {r : RawRun} (h : (s.writeFields (pgPnm stack) 0x04C val).reg (pgPnm stack) 0x04C = 0) (hruns : s.pnm.runs = [(n, r)])
    (hs : r.stack = stack) (hp : r.phase = .waiting) :
    rawShareWrite stack val s = ((s.writeFields (pgPnm stack) 0x04C val).runBusy r).dropRun n := by
  obtain ⟨regs, hw⟩ := s.writeFields_keeps (pgPnm stack) 0x04C val
  have hruns' : (s.writeFields (pgPnm stack) 0x04C val).pnm.runs = [(n, r)] := by rw [hw]; exact hruns
  have hone : (r.stack == stack && r.phase == .waiting) = true := by rw [hs, hp, beq_self_eq_true]; rfl
  simp only [rawShareWrite, h, hruns', bne_self_eq_false, Bool.false_eq_true, if_false, List.filter_cons, hone, if_true, List.filter_nil, List.foldl_cons,
    List.foldl_nil]

end

/-! ### Unit faults (R228, R229) -/

section
variable {s : State} {stack unit : Nat}

theorem State.disableUnit_new (h : unit ∉ (s.pnmStack stack).disabled) : s.disableUnit stack unit =
    (s.setPnmStack stack { s.pnmStack stack with disabled := (s.pnmStack stack).disabled ++ [unit] }).sendFault (pgPnm stack) .unitFailed unit :=
  if_neg (by rwa [List.contains_iff_mem])

theorem State.disableUnit_again (h : unit ∈ (s.pnmStack stack).disabled) : s.disableUnit stack unit = s :=
  if_pos (List.contains_iff_mem.mpr h)

theorem innerCorrRate_over (h0 : s.reg (pgPnm stack) 0x054 ≠ 0) (h : s.reg (pgPnm stack) 0x054 < (s.pnmStack stack).corrIn.getD unit 0) :
    innerCorrRate stack unit s = (s.setPnmStack stack { s.pnmStack stack with corrIn := (s.pnmStack stack).corrIn.set unit 0 }).sendFault (pgPnm stack)
      .innerCorrRate unit :=
  if_neg (by simp only [Bool.or_eq_true, decide_eq_true_eq, not_or]; exact ⟨h0, Nat.not_le.mpr h⟩)

theorem innerCorrRate_within (h : (s.pnmStack stack).corrIn.getD unit 0 ≤ s.reg (pgPnm stack) 0x054) : innerCorrRate stack unit s = s :=
  if_pos (by rw [decide_eq_true h, Bool.or_true])

end

/-- Settles O40: each step of a Near-Bank stack, by its own rule. -/
theorem nearBankBlocks : Obligations.NearBankBlocks := by
  intro s t cid stack k
  dsimp only
  refine ⟨fun h hs hst => ⟨fun hr => ?_, fun first rows hr => ⟨fun hend => ?_, fun hend hnone hroom => ?_⟩⟩, fun first rows h hs hst hr hend hruns hcl => ?_,
    fun pseudo hst hps hr => ⟨fun hd => ?_, fun hd => ?_⟩, fun val hl hst => ⟨fun h => ?_, fun n r h hruns hs hp => ?_⟩,
    fun unit hl hst hu => ⟨fun h => ?_, fun h => ?_, fun h0 h => ?_, fun h => ?_⟩⟩
  · exact congrArg done ((h.run t (Cmd.isSub_of h hs) _).trans (scratchOpen_malformed (s := s.at t) cid hr))
  · exact congrArg done ((h.run t (Cmd.isSub_of h hs) _).trans (scratchOpen_denied (s := s.at t) cid hr hend))
  · subst hst
    exact congrArg done ((h.run t (Cmd.isSub_of h hs) _).trans (scratchOpen_new (s := s.at t) cid hr hend hnone hroom))
  · subst hst
    exact congrArg done ((h.run t (Cmd.isSub_of h hs) _).trans (scratchClose_done (s := s.at t) cid hr hend hruns hcl))
  · obtain ⟨due, hlt, hle, hgrid, heq⟩ := PnmStack.refreshed_due hd
    refine ⟨due, hlt, hle, hgrid, congrArg done ((State.onlyIf_of (by rw [decide_eq_true hst, decide_eq_true hps]; rfl) _).trans ?_)⟩
    exact (refresh_due (s := s.at t) hd hr).trans (congrArg ((s.at t).setPnmStack stack) heq)
  · exact congrArg done ((State.onlyIf_of (by rw [decide_eq_true hst, decide_eq_true hps]; rfl) _).trans (refresh_early (s := s.at t) hd))
  · exact congrArg done ((State.onlyIf_of (by rw [hl, decide_eq_true hst]; rfl) _).trans (rawShareWrite_keeps (s := s.at t) h))
  · exact congrArg done ((State.onlyIf_of (by rw [hl, decide_eq_true hst]; rfl) _).trans (rawShareWrite_busy (s := s.at t) h hruns hs hp))
  · exact congrArg done ((State.onlyIf_of (by rw [hl, decide_eq_true hst, decide_eq_true hu]; rfl) _).trans (State.disableUnit_new (s := s.at t) h))
  · exact congrArg done ((State.onlyIf_of (by rw [hl, decide_eq_true hst, decide_eq_true hu]; rfl) _).trans (State.disableUnit_again (s := s.at t) h))
  · exact congrArg done ((State.onlyIf_of (by rw [hl, decide_eq_true hst]; rfl) _).trans (innerCorrRate_over (s := s.at t) h0 h))
  · exact congrArg done ((State.onlyIf_of (by rw [hl, decide_eq_true hst]; rfl) _).trans (innerCorrRate_within (s := s.at t) h))

end Sys2Proof.Machine
end

section
/-!
The operators of a Score keep the events of their batch, in order (08 R282 to R285, R290).
-/

namespace Sys2Proof.Machine

/-- The events of a batch as its operators run. -/
def EncRun.events (r : EncRun) : List EncEvent := r.evs.map EncEv.ev

theorem EncRun.length_evs {r r' : EncRun} (h : r'.events = r.events) : r'.evs.length = r.evs.length := by
  have := congrArg List.length h
  simpa [EncRun.events] using this

/-- Events changed one by one, each beside a value of its own, stay the same events. -/
theorem map_ev_zip {β : Type} {evs : List EncEv} {outs : List β} {f : EncEv × β → EncEv} (hf : ∀ x, (f x).ev = x.1.ev)
    (hlen : evs.length ≤ outs.length) : ((evs.zip outs).map f).map EncEv.ev = evs.map EncEv.ev := by
  calc ((evs.zip outs).map f).map EncEv.ev = (evs.zip outs).map (EncEv.ev ∘ Prod.fst) := (List.map_map ..).trans (List.map_congr_left fun x _ => hf x)
    _ = ((evs.zip outs).map Prod.fst).map EncEv.ev := (List.map_map ..).symm
    _ = evs.map EncEv.ev := by rw [List.map_fst_zip hlen]

theorem EncRun.events_put (r : EncRun) (b : Nat) {outs : List (List Fl × Counts)} (hlen : outs.length = r.evs.length) : (r.put b outs).events = r.events :=
  map_ev_zip (fun _ => rfl) (Nat.le_of_eq hlen.symm)

/-- An array layer keeps the events and answers one output for each input. -/
theorem EncRun.layer_keeps (r : EncRun) (im : List Byte) (i : Nat) (wide : Bool) {inp : List (List Fl)} (hlen : inp.length = r.evs.length) :
    (r.layer im i wide inp).1.events = r.events ∧ (r.layer im i wide inp).2.length = r.evs.length := by
  constructor
  · refine map_ev_zip (fun _ => rfl) ?_
    simp only [List.length_zip, List.length_map, hlen, Nat.min_self, Nat.le_refl]
  · simp only [EncRun.layer, List.length_map, hlen]

/-- One step of the scan of GLR keeps its event. -/
theorem foldl_append_ev {β σ : Type} {f : σ × List EncEv → EncEv × β → σ × List EncEv}
    (hf : ∀ a x, ∃ e, (f a x).2 = a.2 ++ [e] ∧ e.ev = x.1.ev) (rows : List (EncEv × β)) (a : σ × List EncEv) :
    (rows.foldl f a).2.map EncEv.ev = a.2.map EncEv.ev ++ rows.map fun x => x.1.ev := by
  induction rows generalizing a with
  | nil => simp
  | cons x rows ih =>
    obtain ⟨e, he, hev⟩ := hf a x
    rw [List.foldl_cons, ih, he]
    simp [hev]

/-- One step that appends one value. -/
theorem foldl_append_length {α β σ : Type} {f : σ × List β → α → σ × List β} (hf : ∀ a x, ∃ e, (f a x).2 = a.2 ++ [e]) (rows : List α)
    (a : σ × List β) : (rows.foldl f a).2.length = a.2.length + rows.length := by
  induction rows generalizing a with
  | nil => rfl
  | cons x rows ih =>
    obtain ⟨e, he⟩ := hf a x
    rw [List.foldl_cons, ih, he]
    simp
    omega

theorem EncRun.events_glr (r : EncRun) (im : List Byte) (o : OpRec) (g : Nat) {xs us zs bs cs : List (List Fl)} (hx : xs.length = r.evs.length)
    (hu : us.length = r.evs.length) (hz : zs.length = r.evs.length) (hb : bs.length = r.evs.length) (hc : cs.length = r.evs.length) :
    (r.glr im o g xs us zs bs cs).events = r.events := by
  have hrest : r.evs.length ≤ (xs.zip (us.zip (zs.zip (bs.zip cs)))).length := by
    simp only [List.length_zip, hx, hu, hz, hb, hc, Nat.min_self, Nat.le_refl]
  unfold EncRun.events EncRun.glr
  dsimp only
  rw [foldl_append_ev fun a x => ?_]
  · exact (List.map_map ..).symm.trans (congrArg (List.map EncEv.ev) (List.map_fst_zip hrest))
  · obtain ⟨e, x, u, z, b, c⟩ := x
    exact ⟨_, rfl, rfl⟩

theorem EncRun.attn_keeps (r : EncRun) (o : OpRec) (w : Nat) {qs ks vs : List (List Fl)} (hq : qs.length = r.evs.length) (hk : ks.length = r.evs.length)
    (hv : vs.length = r.evs.length) : (r.attn o w qs ks vs).1.events = r.events ∧ (r.attn o w qs ks vs).2.length = r.evs.length := by
  refine ⟨rfl, ?_⟩
  unfold EncRun.attn
  dsimp only
  rw [foldl_append_length fun a x => ?_]
  · simp only [List.length_nil, List.length_zip, hq, hk, hv, Nat.min_self, Nat.zero_add]
  · obtain ⟨e, q, k, v⟩ := x
    exact ⟨_, rfl⟩

/-- `layer_keeps` within a run that holds the events of `r`. -/
theorem EncRun.layer_step {r r₁ : EncRun} (im : List Byte) (i : Nat) (wide : Bool) {inp : List (List Fl)} (he : r₁.events = r.events)
    (hlen : inp.length = r.evs.length) :
    (r₁.layer im i wide inp).1.events = r.events ∧ (r₁.layer im i wide inp).2.length = r.evs.length := by
  obtain ⟨hev, hout⟩ := r₁.layer_keeps im i wide (hlen.trans (EncRun.length_evs he).symm)
  exact ⟨hev.trans he, hout.trans (EncRun.length_evs he)⟩

theorem EncRun.put_step {r r₁ : EncRun} (he : r₁.events = r.events) (b : Nat) {outs : List (List Fl × Counts)} (hlen : outs.length = r.evs.length) :
    (r₁.put b outs).events = r.events :=
  (r₁.events_put b (hlen.trans (EncRun.length_evs he).symm)).trans he

/-- Counts added to the events, one for each. -/
theorem EncRun.addCounts_step {r r₁ : EncRun} (he : r₁.events = r.events) {mids : List (List Fl × Counts)} (hlen : mids.length = r.evs.length) :
    EncRun.events { r₁ with evs := (r₁.evs.zip mids).map fun (e : EncEv × (List Fl × Counts)) => { e.1 with cnt := e.1.cnt.add e.2.2 } } = r.events :=
  (map_ev_zip (f := fun (e : EncEv × (List Fl × Counts)) => { e.1 with cnt := e.1.cnt.add e.2.2 }) (fun _ => rfl)
    (Nat.le_of_eq ((EncRun.length_evs he).trans hlen.symm))).trans he

/-- An operator keeps the events. -/
theorem EncRun.events_op (r : EncRun) (im : List Byte) (o : OpRec) (g w : Nat) : (r.op im o g w).events = r.events := by
  have hinp : (r.evs.map fun e => e.buf o.inBuf).length = r.evs.length := List.length_map _
  have hvec (f : EncEv → List Fl) : (r.put o.out (r.evs.map fun e => writeAll (vecOut o.wide) (f e))).events = r.events :=
    r.events_put o.out (List.length_map _)
  unfold EncRun.op
  dsimp only
  split
  case h_1 =>
    obtain ⟨he, hy⟩ := EncRun.layer_step im o.first o.wide (rfl : r.events = r.events) hinp
    exact EncRun.put_step he _ ((List.length_map _).trans hy)
  case h_2 =>
    generalize (r.evs.map fun e => e.buf o.inBuf) = inp at hinp
    obtain ⟨e₁, hx⟩ := EncRun.layer_step im o.first Config.innerFp32 (rfl : r.events = r.events) hinp
    obtain ⟨e₂, hu⟩ := EncRun.layer_step im (o.first + 1) Config.innerFp32 e₁ hinp
    obtain ⟨e₃, hz⟩ := EncRun.layer_step im (o.first + 2) Config.innerFp32 e₂ hinp
    obtain ⟨e₄, hb⟩ := EncRun.layer_step im (o.first + 3) Config.innerFp32 e₃ hinp
    obtain ⟨e₅, hc⟩ := EncRun.layer_step im (o.first + 4) Config.innerFp32 e₄ hinp
    have hlen := EncRun.length_evs e₅
    exact (EncRun.events_glr _ im o g (hx.trans hlen.symm) (hu.trans hlen.symm) (hz.trans hlen.symm) (hb.trans hlen.symm) (hc.trans hlen.symm)).trans e₅
  case h_3 =>
    generalize (r.evs.map fun e => e.buf o.inBuf) = inp at hinp
    obtain ⟨e₁, hq⟩ := EncRun.layer_step im o.first Config.innerFp32 (rfl : r.events = r.events) hinp
    obtain ⟨e₂, hk⟩ := EncRun.layer_step im (o.first + 1) Config.innerFp32 e₁ hinp
    obtain ⟨e₃, hv⟩ := EncRun.layer_step im (o.first + 2) Config.innerFp32 e₂ hinp
    have hlen := EncRun.length_evs e₃
    obtain ⟨ea, ha⟩ := EncRun.attn_keeps _ o w (hq.trans hlen.symm) (hk.trans hlen.symm) (hv.trans hlen.symm)
    obtain ⟨e₅, hy⟩ := EncRun.layer_step im (o.first + 3) o.wide (ea.trans e₃) (ha.trans hlen)
    exact EncRun.put_step e₅ _ ((List.length_map _).trans hy)
  case h_4 =>
    generalize (r.evs.map fun e => e.buf o.inBuf) = inp at hinp
    obtain ⟨e₁, hg⟩ := EncRun.layer_step im o.first Config.innerFp32 (rfl : r.events = r.events) hinp
    split
    · obtain ⟨e₂, hu⟩ := EncRun.layer_step im (o.first + 1) Config.innerFp32 e₁ hinp
      have hmids := (List.length_map (as := (r.layer im o.first Config.innerFp32 inp).2.zip
        ((r.layer im o.first Config.innerFp32 inp).1.layer im (o.first + 1) Config.innerFp32 inp).2)
        fun p => writeAll (vecOut Config.innerFp32) ((p.1.zip p.2).map fun q => r32 ((vfn o.sub q.1).mul q.2))).trans
          (by rw [List.length_zip, hg, hu, Nat.min_self])
      have e₃ := EncRun.addCounts_step e₂ hmids
      obtain ⟨e₄, hy⟩ := EncRun.layer_step im (o.first + 2) o.wide e₃ ((List.length_map fun (m : List Fl × Counts) => m.1).trans hmids)
      exact EncRun.put_step e₄ _ ((List.length_map _).trans hy)
    · have hmids := (List.length_map (as := (r.layer im o.first Config.innerFp32 inp).2)
        fun u => writeAll (vecOut Config.innerFp32) (u.map (vfn o.sub))).trans hg
      have e₃ := EncRun.addCounts_step e₁ hmids
      obtain ⟨e₄, hy⟩ := EncRun.layer_step im (o.first + 1) o.wide e₃ ((List.length_map fun (m : List Fl × Counts) => m.1).trans hmids)
      exact EncRun.put_step e₄ _ ((List.length_map _).trans hy)
  case h_5 => exact hvec _
  case h_6 => exact hvec _
  case h_7 => exact hvec _
  case h_8 => exact hvec _
  case h_9 => exact hvec _
  case h_10 =>
    obtain ⟨he, hy⟩ := EncRun.layer_step im o.first (o.wide || imgNavFormat im == 1) (rfl : r.events = r.events) hinp
    generalize r.layer im o.first (o.wide || imgNavFormat im == 1) (r.evs.map fun e => e.buf o.inBuf) = p at he hy
    have hlen : p.1.evs.length ≤ ((r.evs.map fun e => e.buf o.inBuf).zip p.2).length :=
      Nat.le_of_eq (by rw [List.length_zip, hinp, hy, Nat.min_self, EncRun.length_evs he])
    unfold EncRun.events at he ⊢
    dsimp only
    rw [map_ev_zip (fun _ => ?_) hlen]
    · exact he
    · rfl
  case h_11 => rfl

/-- All operators of a Score keep the events. -/
theorem EncRun.events_all (r : EncRun) (im : List Byte) : (r.all im).events = r.events :=
  foldl_keeps (fun a : EncRun × Nat × Nat => a.1.events) (fun a o => a.1.events_op im o a.2.1 a.2.2) (imgOpList im) (r, 0, 0)

end Sys2Proof.Machine
end

section
/-!
Batches: what the end of a batch leaves alone, and their steps (08 R281, R287, R288, R293, R300; 09 R315, R316, R322).
-/

namespace Sys2Proof.Machine

/-- `u` runs the batches of `s`, and has counted the same events on every cluster. -/
structure State.BatchesStand (s u : State) : Prop where
  running : u.enc.running = s.enc.running
  events  : ∀ i < 4, u.count (pgEnc i) 0x058 = s.count (pgEnc i) 0x058

namespace State.BatchesStand

theorem refl (s : State) : s.BatchesStand s := ⟨rfl, fun _ _ => rfl⟩

theorem trans {s u v : State} (h : s.BatchesStand u) (h' : u.BatchesStand v) : s.BatchesStand v :=
  ⟨h'.running.trans h.running, fun i hi => (h'.events i hi).trans (h.events i hi)⟩

/-- `trans` read from its second step. -/
theorem after {s u v : State} (h' : u.BatchesStand v) (h : s.BatchesStand u) : s.BatchesStand v := h.trans h'

theorem of_eq {s u : State} (hr : u.enc.running = s.enc.running) (hc : u.counts = s.counts) : s.BatchesStand u :=
  ⟨hr, fun _ _ => by rw [State.count, State.count, hc]⟩

theorem of_post {s u : State} (h : s.PostStep u) (hp : s.PagesStand u) : s.BatchesStand u :=
  ⟨by rw [h.enc], fun i hi => hp.count (by unfold pgEnc; omega) (by unfold pgEnc; omega) (by decide)⟩

theorem foldl {α : Type} {f : State → α → State} (h : ∀ (s : State) a, s.BatchesStand (f s a)) (l : List α) (s : State) : s.BatchesStand (l.foldl f s) := by
  induction l generalizing s with
  | nil => exact refl s
  | cons a l ih => exact (ih _).after (h s a)

end State.BatchesStand

/-- The state of an answer that names it. -/
theorem State.BatchesStand.of_fst {β : Type} {s u : State} {p : State × β} {b : β} (h : s.BatchesStand p.1) (hp : p = (u, b)) : s.BatchesStand u := by
  rw [hp] at h
  exact h

theorem State.batchesStand_bump (s : State) {page off : Nat} (n : Nat) (h : ∀ i < 4, pgEnc i * 4096 + 0x058 ≠ page * 4096 + off) :
    s.BatchesStand (s.bump page off n) := ⟨rfl, fun i hi => State.count_bump_ne _ _ (h i hi)⟩

/-- A completion touches no other block's commands; where no command has the number, nothing happens. -/
theorem State.batchesStand_post (s : State) (cid : Nat) (c : Comp) (rest : List Byte) : s.BatchesStand (s.post cid c rest) := by
  cases hk : s.cmd? cid with
  | none =>
    have : s.post cid c rest = s := by simp only [State.post, hk]
    rw [this]
    exact .refl s
  | some k =>
    have hpost := s.postStep_post cid c rest
    exact ⟨by rw [hpost.enc], fun i hi => (State.post_stands hk c rest).count (by unfold pgEnc; omega) (by unfold pgEnc; omega) (by decide)⟩

theorem State.batchesStand_finish (s : State) (cid : Nat) (st : Status) (n d : Nat) : s.BatchesStand (s.finish cid st n d) :=
  s.batchesStand_post cid _ _

theorem State.batchesStand_refuseSearch (s : State) (n : Nat) (st : Status) (enc : Option EncodedPart) : s.BatchesStand (s.refuseSearch n st enc) :=
  s.batchesStand_post n _ _

theorem State.batchesStand_cmdWrite (s : State) (cid ptr off : Nat) (bs : List Byte) : s.BatchesStand (s.cmdWrite cid ptr off bs) := by
  unfold State.cmdWrite
  split
  · exact .refl s
  split
  · exact .of_post (State.postStep_writeBytes _ _ _ _) (State.pagesStand_writeBytes _ _ _ _)
  · exact .of_eq rfl rfl

theorem State.batchesStand_sendMsg (s : State) (m : Msg) : s.BatchesStand (s.sendMsg m) :=
  .of_post (State.postStep_sendMsg _ _) (State.pagesStand_sendMsg _ _)

/-! ### Extents taken and returned, and the insert of an encoded item (03 R30, R74) -/

theorem State.batchesStand_quotaFail (s : State) : s.BatchesStand s.quotaFail := s.batchesStand_bump 1 (by decide)

theorem State.batchesStand_tierShort (s : State) (d tier : Nat) : s.BatchesStand (s.tierShort d tier) :=
  s.batchesStand_quotaFail.trans (.of_eq rfl rfl)

theorem State.batchesStand_takeHeart (s : State) (d n : Nat) : s.BatchesStand (s.takeHeart d n).1 := by
  unfold State.takeHeart
  dsimp only
  split
  · exact .refl s
  split
  · exact s.batchesStand_quotaFail
  split
  · exact s.batchesStand_tierShort d 1
  · exact .of_eq rfl rfl

theorem State.batchesStand_takeBase (s : State) (d n : Nat) : s.BatchesStand (s.takeBase d n).1 := by
  unfold State.takeBase
  dsimp only
  split
  · exact s.batchesStand_quotaFail
  split
  · exact s.batchesStand_tierShort d 2
  · exact .of_eq rfl rfl

theorem State.batchesStand_growFull (s : State) (c : Coll) (gib : Nat) : s.BatchesStand (s.growFull c gib).1 := by
  unfold State.growFull
  cases c.fullVolume
  all_goals
    dsimp only
    split
    · exact .refl s
    split
    · next u h => exact (s.batchesStand_takeBase c.owner _).of_fst h
    · next u h => exact ((s.batchesStand_takeBase c.owner _).of_fst h).trans (.of_eq rfl rfl)

/-- The charge, the growth and the sizes are made opaque first, so that nothing evaluates the sizes of extents. -/
theorem State.batchesStand_growColl (s : State) (c : Coll) (n : Nat) : s.BatchesStand (s.growColl c n).1 := by
  have hcharge := State.batchesStand_takeHeart
  have hgrow := State.batchesStand_growFull
  have hdef : State.growColl = State.growColl := rfl
  conv at hdef => rhs; delta State.growColl
  rw [hdef]
  generalize State.takeHeart = charge at hcharge ⊢
  generalize State.growFull = grow at hgrow ⊢
  generalize Coll.extentsFor = extents
  generalize Coll.baseFor = base
  rcases h : charge s c.owner (extents c n - c.extents) with ⟨u, _ | _⟩
  · simp only [h]
    exact (hcharge s _ _).of_fst h
  · have hu := (hcharge s _ _).of_fst h
    rcases hv : grow u c (base c n) with ⟨v, o, _ | _⟩
    · simp only [h, hv]
      exact (hu.trans ((hgrow u _ _).of_fst hv)).trans (.of_eq rfl rfl)
    · simp only [h, hv]
      exact hu.trans ((hgrow u _ _).of_fst hv)

theorem State.batchesStand_replGo (s : State) (twin coll w n : Nat) : s.BatchesStand (s.replGo twin coll w n) := by
  induction n generalizing s with
  | zero => exact .refl s
  | succ n ih =>
    unfold State.replGo
    split
    · exact .refl s
    split
    · exact .refl s
    · exact (ih _).after ((State.batchesStand_sendMsg _ _).after (.of_eq rfl rfl))

theorem State.batchesStand_replicate (s : State) (coll w : Nat) : s.BatchesStand (s.replicate coll w) := by
  unfold State.replicate
  split
  · split
    · exact .refl s
    split
    · exact .of_eq rfl rfl
    · exact s.batchesStand_replGo _ _ _ _
  · exact .refl s

theorem State.batchesStand_holdForTwin (s : State) (coll op q : Nat) (raw : List Byte) : s.BatchesStand (s.holdForTwin coll op q raw) := by
  unfold State.holdForTwin
  split
  · exact .refl s
  split
  · exact .refl s
  · exact .of_eq rfl rfl

/-- The growth is made opaque first, so that nothing evaluates its sizes. -/
theorem State.batchesStand_stampEncoded (s : State) (k : Cmd) (coll q key : Nat) (attrs : List Byte) (nav emb : List Nat) :
    s.BatchesStand (s.stampEncoded k coll q key attrs nav emb).1 := by
  obtain ⟨grow, hgrow, hopaque⟩ : ∃ grow, (∀ (s : State) c n, s.BatchesStand (grow s c n).1) ∧ State.growColl = grow :=
    ⟨_, State.batchesStand_growColl, rfl⟩
  delta State.stampEncoded
  rw [hopaque]
  dsimp only
  split
  · refine iteInduction (motive := fun r : State × InsertFate => s.BatchesStand r.1) (fun _ => .refl s) fun _ => ?_
    refine iteInduction (motive := fun r : State × InsertFate => s.BatchesStand r.1) (fun _ => .refl s) fun _ => ?_
    refine iteInduction (motive := fun r : State × InsertFate => s.BatchesStand r.1) (fun _ => .refl s) fun _ => ?_
    split
    · next hu => exact (hgrow s _ _).of_fst hu
    · next u c' hu =>
      have hset (v : Source) (n src : Nat) (c : Coll) : s.BatchesStand ((u.setColl n c).setSource src v) := ((hgrow s _ _).of_fst hu).trans (.of_eq rfl rfl)
      refine (State.batchesStand_replicate _ _ _).after ?_
      split
      · exact (State.batchesStand_holdForTwin _ _ _ _ _).after (hset _ _ _ _)
      · exact hset _ _ _ _
  · exact .refl s

/-! ### The search of an encoded event (15 R503) -/

theorem State.batchesStand_askShard (s : State) (n index node : Nat) (payload : List Byte) : s.BatchesStand (s.askShard n index node payload) := by
  unfold State.askShard
  dsimp only
  refine (State.batchesStand_sendMsg _ _).after ?_
  split
  · exact .of_eq rfl rfl
  · exact .of_eq rfl rfl

theorem State.batchesStand_scatter (s : State) (n coll asOf : Nat) (raw nav full predicate : List Byte) :
    s.BatchesStand (s.scatter n coll asOf raw nav full predicate) := by
  unfold State.scatter
  split
  · exact .refl s
  · refine .foldl (fun u e => ?_) _ _
    split
    · exact .refl u
    · exact u.batchesStand_askShard _ _ _ _

theorem State.batchesStand_admitSearch (s : State) (n coll asked : Nat) (raw predicate : List Byte) (d : Desc) (home : Bool) (enc : Option EncodedPart) :
    s.BatchesStand (s.admitSearch n coll asked raw predicate d home enc) := by
  have hstarted (u : State) : u.BatchesStand (match u.cmd? n with
      | some k => u.setCmd n { k with phase := .started }
      | none => u) := by
    split
    · exact .of_eq rfl rfl
    · exact .refl u
  unfold State.admitSearch
  split
  · exact s.batchesStand_refuseSearch _ _ _
  next c hc =>
    cases hr : descRefusal c raw d with
    | some st => exact s.batchesStand_refuseSearch _ _ _
    | none =>
      dsimp only
      refine iteInduction (fun _ => s.batchesStand_refuseSearch _ _ _) fun _ => ?_
      refine iteInduction (fun _ => s.batchesStand_refuseSearch _ _ _) fun _ => ?_
      refine iteInduction (fun _ => (State.batchesStand_scatter _ _ _ _ _ _ _ _).after ?_) fun _ => ?_
      · exact (hstarted _).after (.of_eq rfl rfl)
      · exact (hstarted _).after (.of_eq rfl rfl)

theorem State.batchesStand_afterCommit (s : State) (cid : Nat) (e : EncEvent) (part : EncodedPart) (nav emb : List Nat) (raw program : List Byte) :
    s.BatchesStand (s.afterCommit cid e part nav emb raw program) := by
  have hstamp := State.batchesStand_stampEncoded
  unfold State.afterCommit
  generalize State.stampEncoded = stamp at hstamp ⊢
  cases hk : s.cmd? cid with
  | none => exact .refl s
  | some k =>
    dsimp only
    cases hc : s.coll? (fieldAt k.raw 8 4) with
    | none => exact s.batchesStand_refuseSearch _ _ _
    | some c =>
      dsimp only
      have hfate (p : State × InsertFate) (ins : Bool) (hp : s.BatchesStand p.1) : s.BatchesStand (match p.2 with
          | .refused st => p.1.refuseSearch cid st none
          | .waits => State.setCmd (p.1.withEnc fun b => { b with
              encoded := b.encoded.set cid part
              vectors := b.vectors.set cid (nav, emb)
              cmds := b.cmds.set cid { score := part.handle, events := [e], since := p.1.now, taken := 1, raw := raw, program := program } }) cid
              { k with phase := .waiting, progress := 1 }
          | .decided o =>
            let u := p.1.withEnc fun b => { b with encoded := b.encoded.erase cid, vectors := b.vectors.erase cid, cmds := b.cmds.erase cid }
            let full := if fieldAt raw 8 2 = 0 then [] else emb.flatMap (natLE 2)
            u.admitSearch cid (fieldAt k.raw 8 4) (cmdPos k.raw) raw program (u.descOf c raw (nav.flatMap (natLE 2)) full program) true
              (some { part with insertOutcome := if ins then some o else none })) := by
        split
        · exact hp.trans (State.batchesStand_refuseSearch _ _ _ _)
        · exact hp.trans (.of_eq rfl rfl)
        · exact (State.batchesStand_admitSearch _ _ _ _ _ _ _ _ _).after (hp.trans (.of_eq rfl rfl))
      cases hi : encInserts k with
      | true => exact hfate _ true (hstamp s k _ _ _ _ _ _)
      | false => exact hfate (s, .decided 0) false (.refl s)

theorem State.batchesStand_eventDone (s : State) (h : Nat) (v : Score) (f : Folded) (r : SeqRec) : s.BatchesStand (s.eventDone h v f r) := by
  unfold State.eventDone
  dsimp only
  split
  · exact .refl s
  split
  · exact (State.batchesStand_afterCommit _ _ _ _ _ _ _ _).after (.of_eq rfl rfl)
  · split
    · exact (s.batchesStand_cmdWrite _ _ _ _).trans (.of_eq rfl rfl)
    · exact (State.batchesStand_finish _ _ _ _ _).after ((s.batchesStand_cmdWrite _ _ _ _).trans (.of_eq rfl rfl))

/-! ### The pool and the forming of batches (09 R320; 08 R288) -/

theorem State.trimPool_keeps (s : State) (h : Nat) : ∃ dom tier scores, s.trimPool h =
    { s with dom := dom, tier := tier, enc := { s.enc with scores := scores } } := by
  unfold State.trimPool
  split
  · exact ⟨_, _, _, rfl⟩
  dsimp only
  split
  · exact ⟨_, _, _, rfl⟩
  · exact ⟨_, _, _, rfl⟩

theorem State.closeBatches_none (s : State) (h : Nat) : s.closeBatches h [] = s := by
  simp only [State.closeBatches, State.withEnc, List.map_nil, List.append_nil, List.flatten_nil, List.foldl_nil]

theorem State.formBatches_keeps (s : State) (h : Nat) : ∃ closed cmds, s.formBatches h = { s with enc := { s.enc with closed := closed, cmds := cmds } } ∧
    ∀ cid, s.enc.cmds.find? cid = none → cmds.find? cid = none := by
  refine ⟨_, _, rfl, fun cid hc => ?_⟩
  refine List.foldlRecOn (motive := fun t : Table EncCmd => t.find? cid = none) _ _ hc fun t ht v _ => ?_
  rw [find?_modify]
  split
  · next hv => rw [← hv, ht]; rfl
  · exact ht

end Sys2Proof.Machine
end

section
/-!
The steps of a batch: it closes, starts, streams, lands, commits and is abandoned (08 R281, R287, R288, R293; 09 R315, R316, R322).
-/

namespace Sys2Proof.Machine

/-! ### A batch closes and starts (08 R288) -/

section
variable {s : State} {h : Nat}

theorem batchWaitExpiry_closes (hnone : (s.forming h).closed = []) (hcur : (s.forming h).cur ≠ [])
    (hw : (((s.forming h).cur.map fun v => ((s.enc.cmds.find? v.cid).map fun c => c.since).getD s.now).foldl min s.now) +
      min 10000 (s.reg (pgEnc 0) 0x04C) * 1000 ≤ s.now) : batchWaitExpiry h s = s.closeBatches h [(s.forming h).cur] := by
  have hform : s.formBatches h = s := by rw [State.formBatches, hnone, State.closeBatches_none]
  unfold batchWaitExpiry
  simp only [hform]
  refine if_neg ?_
  rw [List.isEmpty_eq_false_iff.mpr hcur, Bool.false_or, decide_eq_true_eq]
  exact Nat.not_lt.mpr hw

theorem batchStart_front {cluster : Nat} {b : Batch} {rest : List Batch} {v : Score} (hfree : (List.range 4).find? s.clusterFree = some cluster)
    (hb : s.enc.closed = b :: rest) (hv : s.score? b.score = some v) (hmay : s.clustersOf b.score < imgMaxClusters v.image) :
    batchStart s = { s with enc := { s.enc with closed := rest, running := s.enc.running.set cluster { b with startAt := s.now } } } := by
  unfold batchStart
  simp only [hfree, hb, List.findIdx?_cons, hv, decide_eq_true hmay, if_true, List.getElem?_cons_zero]
  simp only [State.withEnc, hb, List.eraseIdx_cons_zero]

theorem batchStart_full (h : (List.range 4).find? s.clusterFree = none) : batchStart s = s := by
  unfold batchStart
  simp only [h]

end

/-! ### Slices stream and tiles land (08 R281; 09 R315, R316) -/

section
variable {s : State} {cluster : Nat} {b : Batch} {v : Score} (hb : s.enc.running.find? cluster = some b)
include hb

theorem sliceStreamStart_streaming (ht : b.tile.isSome = true) : sliceStreamStart cluster s = s := by
  unfold sliceStreamStart
  obtain ⟨j, hj⟩ := Option.isSome_iff_exists.mp ht
  simp only [hb, hj, Option.isNone_some, Bool.false_and, Bool.false_eq_true, if_false]

variable (hv : s.score? b.score = some v)
include hv

theorem sliceStreamStart_next (ht : b.tile = none) (hn : b.slices < (imgSlices v.image).length) :
    sliceStreamStart cluster s = { s with enc := { s.enc with running := s.enc.running.set cluster { b with tile := some 0 } } } := by
  unfold sliceStreamStart
  simp only [hb, hv, ht, Option.map_some, Option.getD_some, decide_eq_true hn, Option.isNone_none, Bool.and_true, if_true]
  rfl

variable {j tile : Nat} {bytes : List Byte} (hj : b.tile = some j) (ht : ((imgSlices v.image).getD b.slices [])[j]? = some tile)
include hj ht

theorem tileLanding_next (hcrc : crc32c bytes = (tileDesc v.image tile).2.2) (hn : j + 1 < ((imgSlices v.image).getD b.slices []).length) :
    tileLanding cluster bytes none s =
      { s with enc := { s.enc with running := s.enc.running.set cluster { b with tile := some (j + 1), reread := false } } } := by
  unfold tileLanding
  simp only [hb, hv, hj, ht, hcrc, hn, if_true]
  rfl

theorem tileLanding_last (hcrc : crc32c bytes = (tileDesc v.image tile).2.2) (hn : ((imgSlices v.image).getD b.slices []).length ≤ j + 1) :
    tileLanding cluster bytes none s =
      { s with enc := { s.enc with running := s.enc.running.set cluster { b with tile := none, slices := b.slices + 1, reread := false } } } := by
  unfold tileLanding
  simp only [hb, hv, hj, ht, hcrc, Nat.not_lt.mpr hn, if_true, if_false]
  rfl

theorem tileLanding_bad (hcrc : crc32c bytes ≠ (tileDesc v.image tile).2.2) : tileLanding cluster bytes none s =
    if b.reread then ((s.bump (pgEnc cluster) 0x060).sticky (pgEnc cluster) 0x044 8).abandonBatch cluster b
    else ((s.bump (pgEnc cluster) 0x060).sticky (pgEnc cluster) 0x044 8).withEnc fun x => { x with running := x.running.set cluster { b with reread := true } } := by
  unfold tileLanding
  simp only [hb, hv, hj, ht, hcrc, if_false]

end

/-! ### A batch is abandoned (08 R281) -/

theorem State.failEnc_keeps (s : State) (cids : List Nat) (st : Status) : (s.failEnc cids st).enc.running = s.enc.running ∧ (s.failEnc cids st).flt = s.flt := by
  unfold State.failEnc
  refine List.foldlRecOn (motive := fun u : State => u.enc.running = s.enc.running ∧ u.flt = s.flt) _ _ ⟨rfl, rfl⟩ fun u hu cid _ => ?_
  split
  · exact hu
  next k _ =>
    have hrefuse (w : State) : w.PostStep (w.finish cid st) ∧ w.PostStep (w.refuseSearch cid st none) := ⟨w.postStep_finish _ _ _ _, w.postStep_post _ _ _⟩
    obtain ⟨hrun, hflt⟩ := hu
    unfold State.refuseEnc
    cases st == .tooLong
    all_goals
      dsimp only
      simp only [State.when_true, State.when_false]
      split
      · exact ⟨(congrArg EncBlock.running (hrefuse _).2.enc).trans hrun, (hrefuse _).2.flt.trans hflt⟩
      · exact ⟨(congrArg EncBlock.running (hrefuse _).1.enc).trans hrun, (hrefuse _).1.flt.trans hflt⟩

theorem State.abandonBatch_keeps (s : State) (cluster : Nat) (b : Batch) : (s.abandonBatch cluster b).enc.running.find? cluster = none ∧
    (s.abandonBatch cluster b).flt = { s.flt with inbox := s.flt.inbox ++ [faultMsg s (pgEnc cluster) .tileChecksum 0 0 false] } := by
  unfold State.abandonBatch
  dsimp only
  obtain ⟨hrun, hflt⟩ := ((s.sendFault (pgEnc cluster) .tileChecksum).freeCluster cluster b).failEnc_keeps (batchCids b) .uncorrected
  generalize ((s.sendFault (pgEnc cluster) .tileChecksum).freeCluster cluster b).failEnc (batchCids b) .uncorrected = u at hrun hflt
  obtain ⟨dom, tier, scores, htrim⟩ := u.trimPool_keeps b.score
  obtain ⟨closed, cmds, hform, _⟩ := (u.trimPool b.score).formBatches_keeps b.score
  rw [hform, htrim]
  exact ⟨(congrArg (Table.find? · cluster) hrun).trans (Table.find?_erase_self _ _), hflt⟩

end Sys2Proof.Machine
end

section
/-!
A batch commits: its cluster is free, its events are counted, and a command whose last event it holds completes (08 R287, R293).
-/

namespace Sys2Proof.Machine

/-- The headers' fold answers the events in their order. -/
theorem foldHeaders_events (seqs : Table SeqRec) (evs : List EncEv) : (foldHeaders seqs evs).2.1.map Folded.ev = evs := by
  have hgo (acc : Table SeqRec × List Folded × Nat) : (evs.foldl (fun (a : Table SeqRec × List Folded × Nat) e =>
      let r := Table.getD a.1 e.ev.seq {}
      let (r', closed) := r.fold e
      (Table.set a.1 e.ev.seq r', a.2.1 ++ [{ ev := e, index := if e.reset then 0 else r.count }], a.2.2 + boolNat closed)) acc).2.1.map Folded.ev =
        acc.2.1.map Folded.ev ++ evs := by
    induction evs generalizing acc with
    | nil => simp
    | cons e evs ih =>
      rw [List.foldl_cons, ih]
      simp
  simpa [foldHeaders] using hgo (seqs, [], 0)

/-- ENCODE's output of a command's last event completes the command, and nothing waits for it any more. -/
theorem State.eventDone_last {s : State} {f : Folded} {e : EncEvent} {k : Cmd} {c : EncCmd} (h : Nat) (v : Score) (r : SeqRec) (he : f.ev.ev = e)
    (hk : s.cmd? e.cid = some k) (hop : cmdOpcode k.raw = 0x03) (hc : s.enc.cmds.find? e.cid = some c) (hlast : c.events.length = e.index + 1) :
    (s.eventDone h v f r).cmd? e.cid = none ∧ (s.eventDone h v f r).enc.cmds.find? e.cid = none := by
  have h4 : ¬ cmdOpcode k.raw = 0x04 := by rw [hop]; decide
  unfold State.eventDone
  simp only [he, hk, hc, Option.getD_some, if_neg h4, hlast, Nat.lt_irrefl, if_false]
  generalize (f.ev.output v.image) = out
  obtain ⟨k', hk', -, -⟩ := State.cmdWrite_found hk (cmdPtrC k.raw) (e.index * out.length) out
  have henc := (s.postStep_cmdWrite e.cid (cmdPtrC k.raw) (e.index * out.length) out).enc
  generalize s.cmdWrite e.cid (cmdPtrC k.raw) (e.index * out.length) out = u at hk' henc ⊢
  constructor
  · exact State.finish_cmd?_self (s := u.withEnc _) hk' _ _ _
  · rw [(State.postStep_finish _ _ _ _ _).enc]
    exact Table.find?_erase_self _ _

section
variable {s : State} {cluster : Nat} {b : Batch} {v : Score}

/-- Without unreadable states, a commit folds all events of the batch over a state that has freed the cluster and counted them. -/
theorem batchCommit_folds (hb : s.enc.running.find? cluster = some b) (hv : s.score? b.score = some v) (ht : b.tile = none)
    (hn : (imgSlices v.image).length ≤ b.slices) : ∃ (u : State) (folded : List Folded) (rec : Folded → SeqRec),
    batchCommit cluster [] s = ((folded.foldl (fun s f => s.eventDone b.score v f (rec f)) u).trimPool b.score).formBatches b.score ∧
      u.enc.running = s.enc.running.erase cluster ∧ u.enc.cmds = s.enc.cmds ∧ u.qmg = s.qmg ∧
      u.count (pgEnc cluster) 0x058 = (s.count (pgEnc cluster) 0x058 + b.events.length) % 2 ^ 64 ∧
      folded.map (fun f => f.ev.ev) = b.events := by
  unfold batchCommit
  simp only [hb, hv, ht, Option.isSome_none, decide_eq_false (Nat.not_lt.mpr hn), Bool.or_false, Bool.false_eq_true, if_false, List.filter_nil,
    List.foldl_nil, List.any_nil, Bool.not_false, filter_const_true, filter_const_false, List.map_nil, List.eraseDups_nil, State.failEnc, List.length_map]
  refine ⟨_, _, _, rfl, rfl, rfl, rfl, ?_, ?_⟩
  · refine (State.count_bump_ne (page := pgEnc cluster) (off := 0x064) _ _ ?_).trans ?_
    · omega
    · refine (State.count_bump64_self _ _ _ _).trans (congrArg (fun n => (n + b.events.length) % 2 ^ 64) ?_)
      exact State.count_bump64_ne (page := pgEnc cluster) (off := 0x050) _ _ (by omega)
  · refine (List.map_map (f := Folded.ev) (g := EncEv.ev)).symm.trans ?_
    rw [foldHeaders_events]
    refine (EncRun.events_all _ _).trans ?_
    simp only [EncRun.events, List.map_map]
    exact List.map_id _

/-- A commit without unreadable states frees its cluster, counts its events, and completes a command whose last event is the batch's only one. -/
theorem batchCommit_keeps (hb : s.enc.running.find? cluster = some b) (hv : s.score? b.score = some v) (ht : b.tile = none)
    (hn : (imgSlices v.image).length ≤ b.slices) (hcl : cluster < 4) : (batchCommit cluster [] s).enc.running.find? cluster = none ∧
      (batchCommit cluster [] s).count (pgEnc cluster) 0x058 = (s.count (pgEnc cluster) 0x058 + b.events.length) % 2 ^ 64 ∧
      ∀ e c k, b.events = [e] → s.enc.cmds.find? e.cid = some c → c.events.length = e.index + 1 → s.cmd? e.cid = some k →
        cmdOpcode k.raw = 0x03 → (batchCommit cluster [] s).cmd? e.cid = none ∧ (batchCommit cluster [] s).enc.cmds.find? e.cid = none := by
  obtain ⟨u, folded, rec, heq, hrun, hcmds, hqmg, hcount, hevs⟩ := batchCommit_folds hb hv ht hn
  have hstands : u.BatchesStand (folded.foldl (fun s f => s.eventDone b.score v f (rec f)) u) :=
    .foldl (fun w f => w.batchesStand_eventDone b.score v f (rec f)) _ _
  have hlast : ∀ e c k, b.events = [e] → s.enc.cmds.find? e.cid = some c → c.events.length = e.index + 1 → s.cmd? e.cid = some k →
      cmdOpcode k.raw = 0x03 → (folded.foldl (fun s f => s.eventDone b.score v f (rec f)) u).cmd? e.cid = none ∧
        (folded.foldl (fun s f => s.eventDone b.score v f (rec f)) u).enc.cmds.find? e.cid = none := by
    intro e c k he hc hlen hk hop
    rw [he] at hevs
    obtain ⟨f, rfl, hf⟩ := List.map_eq_singleton_iff.mp hevs
    exact State.eventDone_last b.score v (rec f) hf ((congrArg (fun q : QmgBlock => q.cmds.find? e.cid) hqmg).trans hk) hop
      ((congrArg (Table.find? · e.cid) hcmds).trans hc) hlen
  generalize folded.foldl (fun s f => s.eventDone b.score v f (rec f)) u = w at heq hstands hlast
  obtain ⟨dom, tier, scores, htrim⟩ := w.trimPool_keeps b.score
  obtain ⟨closed, cmds, hform, hnone⟩ := (w.trimPool b.score).formBatches_keeps b.score
  rw [heq, hform]
  rw [htrim] at hnone ⊢
  refine ⟨?_, ?_, fun e c k he hc hlen hk hop => ?_⟩
  · exact (congrArg (Table.find? · cluster) (hstands.running.trans hrun)).trans (Table.find?_erase_self _ _)
  · exact (hstands.events cluster hcl).trans hcount
  · obtain ⟨hcmd, henc⟩ := hlast e c k he hc hlen hk hop
    exact ⟨hcmd, hnone _ henc⟩

end

/-! ### Arrays (08 R300) -/

theorem State.disableArray_new {s : State} {cluster array : Nat} (h : (cluster, array) ∉ s.enc.disabled) : s.disableArray cluster array =
    ({ s with enc := { s.enc with disabled := s.enc.disabled ++ [(cluster, array)] } }).sendFault (pgEnc cluster) .arrayFailed array :=
  if_neg (by rwa [List.contains_iff_mem])

theorem State.disableArray_again {s : State} {cluster array : Nat} (h : (cluster, array) ∈ s.enc.disabled) : s.disableArray cluster array = s :=
  if_pos (List.contains_iff_mem.mpr h)

/-- Settles O42: each step of a batch, by its own rule. -/
theorem batches : Obligations.Batches := by
  intro s t cluster hl hcl
  refine ⟨fun h hnone => ?_, fun b rest v hfree hb hv hmay => ?_, fun hfull => ?_, fun b v hb hv => ⟨fun ht hn => ?_, fun ht => ?_, fun j bytes tile hj ht =>
    ⟨fun hcrc hn => ?_, fun hcrc hn => ?_, fun hcrc hr => ?_, fun hcrc hr => ?_⟩, fun ht hn => ?_⟩, fun array ha => ⟨fun h => ?_, fun h => ?_⟩⟩
  · intro cur since hcur hw
    exact ⟨_, congrArg done ((State.onlyIf_of hl _).trans (batchWaitExpiry_closes (s := s.at t) hnone hcur hw)), rfl, rfl, rfl, rfl, rfl⟩
  · exact congrArg done ((State.onlyIf_of hl _).trans (batchStart_front (s := s.at t) hfree hb hv hmay))
  · exact congrArg done ((State.onlyIf_of hl _).trans (batchStart_full (s := s.at t) hfull))
  · exact congrArg done ((State.onlyIf_of hl _).trans (sliceStreamStart_next (s := s.at t) hb hv ht hn))
  · exact congrArg done ((State.onlyIf_of hl _).trans (sliceStreamStart_streaming (s := s.at t) hb ht))
  · exact congrArg done ((State.onlyIf_of hl _).trans (tileLanding_next (s := s.at t) hb hv hj ht hcrc hn))
  · exact congrArg done ((State.onlyIf_of hl _).trans (tileLanding_last (s := s.at t) hb hv hj ht hcrc hn))
  · refine ⟨_, congrArg done ((State.onlyIf_of hl _).trans ((tileLanding_bad (s := s.at t) hb hv hj ht hcrc).trans (if_neg (by rw [hr]; exact Bool.false_ne_true)))),
      rfl, ?_, rfl⟩
    exact (s.at t).count_bump_self _ _ _
  · obtain ⟨hrun, hflt⟩ := State.abandonBatch_keeps (((s.at t).bump (pgEnc cluster) 0x060).sticky (pgEnc cluster) 0x044 8) cluster b
    exact ⟨_, congrArg done ((State.onlyIf_of hl _).trans ((tileLanding_bad (s := s.at t) hb hv hj ht hcrc).trans (if_pos hr))), hrun,
      _, hflt, faultMsg_kind _ _ .tileChecksum _ _ _⟩
  · exact ⟨_, congrArg done (State.onlyIf_of hl _), batchCommit_keeps (s := s.at t) hb hv ht hn hcl⟩
  · exact congrArg done ((State.onlyIf_of (by rw [hl, decide_eq_true hcl, decide_eq_true ha]; rfl) _).trans (State.disableArray_new (s := s.at t) h))
  · exact congrArg done ((State.onlyIf_of (by rw [hl, decide_eq_true hcl, decide_eq_true ha]; rfl) _).trans (State.disableArray_again (s := s.at t) h))

end Sys2Proof.Machine
end

section
/-!
Searches from their local cast to their posted result (04 R137, R138, R141; 05 R187; 07 R237, R246).
-/

namespace Sys2Proof.Machine

/-! ### A cast (07 R237, R240, R243) -/

/-- `u` differs from `s` in registers and in counts other than the walker's and the count of casts. -/
structure State.CastStep (s u : State) : Prop where
  rest  : ∃ counts regs, u = { s with counts := counts, regs := regs }
  walk  : ∀ off < 4096, u.count pgWlk off = s.count pgWlk off
  casts : u.count pgCst 0x050 = s.count pgCst 0x050

namespace State.CastStep

theorem refl (s : State) : s.CastStep s := ⟨⟨_, _, rfl⟩, fun _ _ => rfl, rfl⟩

variable {s u : State} (h : s.CastStep u)
include h

theorem bump {off : Nat} (n : Nat) (ho : off ≠ 0x050) : s.CastStep (u.bump pgCst off n) := by
  obtain ⟨counts, regs, rfl⟩ := h.rest
  refine ⟨⟨_, _, rfl⟩, fun o hlt => (State.count_bump_ne _ _ ?_).trans (h.walk o hlt), (State.count_bump_ne _ _ ?_).trans h.casts⟩
  · unfold pgWlk pgCst; omega
  · unfold pgCst; omega

theorem bump64 {off : Nat} (n : Nat) (ho : off ≠ 0x050) : s.CastStep (u.bump64 pgCst off n) := by
  obtain ⟨counts, regs, rfl⟩ := h.rest
  refine ⟨⟨_, _, rfl⟩, fun o hlt => (State.count_bump64_ne _ _ ?_).trans (h.walk o hlt), (State.count_bump64_ne _ _ ?_).trans h.casts⟩
  · unfold pgWlk pgCst; omega
  · unfold pgCst; omega

theorem sticky (page off bits : Nat) : s.CastStep (u.sticky page off bits) := by
  obtain ⟨counts, regs, rfl⟩ := h.rest
  exact ⟨⟨_, _, rfl⟩, h.walk, h.casts⟩

theorem when (c : Bool) (f : State → State) (hf : s.CastStep (f u)) : s.CastStep (u.when c f) := by
  cases c
  · exact h
  · exact hf

theorem frame : u.qmg = s.qmg ∧ u.flt = s.flt ∧ u.host = s.host ∧ u.win = s.win := by
  obtain ⟨counts, regs, rfl⟩ := h.rest
  exact ⟨rfl, rfl, rfl, rfl⟩

theorem wlk : u.wlk = s.wlk := by
  obtain ⟨counts, regs, rfl⟩ := h.rest
  rfl

end State.CastStep

/-- With no block lost, every entry is read. -/
theorem readable_nil (xs : List (Nat × Entry)) : readable [] xs = xs := by
  show (xs.zipIdx.filter fun _ => true).map (fun e => e.1) = xs
  rw [filter_const_true, List.zipIdx_map_fst]

theorem castOf_lost (k : Nat) (higher dedup : Bool) (lists : List CastList) : (castOf k higher dedup lists []).report.lost = 0 := by
  show _ - (readable [] _).length = 0
  rw [readable_nil, Nat.sub_self]

/-- A cast that loses nothing answers `castOf`, is counted, and leaves all else but statistics and registers. -/
theorem State.cast_keeps (s : State) (k : Nat) (higher dedup : Bool) (lists : List CastList) : ∃ u,
    s.cast k higher dedup lists [] = (u, castOf k higher dedup lists []) ∧ (s.bump64 pgCst 0x050).CastStep u := by
  refine ⟨_, rfl, ?_⟩
  have hlost := castOf_lost k higher dedup lists
  generalize castOf k higher dedup lists [] = r at hlost ⊢
  rw [hlost, decide_eq_false (Nat.lt_irrefl 0)]
  have hcounted := ((((CastStep.refl (s.bump64 pgCst 0x050)).bump64 (off := 0x058) r.read (by decide)).bump (off := 0x060) r.report.duplicates (by decide)).bump
    (off := 0x064) r.report.nanDropped (by decide)).bump (off := 0x06C) 0 (by decide)
  have hnan := hcounted.when (decide (0 < r.report.nanDropped)) (·.sticky pgCst 0x044 2) (hcounted.sticky _ _ _)
  have hties := hnan.when (decide (r.report.taken < r.report.ties)) (·.bump pgCst 0x068) (hnan.bump _ (by decide))
  have hpass := hties.when r.report.multipass (·.bump pgCst 0x070) (hties.bump _ (by decide))
  exact hpass.when _ (·.bump pgCst 0x074) (hpass.bump _ (by decide))

/-- A cast of nothing chooses nothing. -/
theorem castOf_nil (k : Nat) (higher : Bool) (carried : Option (BitVec 64)) : (castOf k higher true [{ entries := [], carried := carried }] []).chosen = [] := by
  simp [castOf, readable, dedupe, sortBest, sortBy]

/-- A cast of one entry with a number for its score chooses it. -/
theorem castOf_single {k : Nat} (hk : 1 ≤ k) (higher : Bool) (carried : Option (BitVec 64)) {e : Entry} (he : isNaN32 e.score = false) :
    (castOf k higher true [{ entries := [e], carried := carried }] []).chosen = [e] := by
  obtain ⟨k, rfl⟩ : ∃ j, k = j + 1 := ⟨k - 1, by omega⟩
  simp [castOf, readable, dedupe, keepBest, sortBest, sortBy, insertBy, he]

/-! ### The local cast (04 R117, R137, R138) -/

/-- The end of a stage notes its time in the histograms and in its search, and changes the walker's state alone. -/
theorem State.stageEnd_keeps {s : State} {n : Nat} {q : Search} (hq : s.search? n = some q) (k : Nat) : ∃ wlk,
    s.stageEnd n k = { s with wlk := wlk } ∧ ({ s with wlk := wlk } : State).search? n = some { q with stageAt := s.now } := by
  simp only [State.stageEnd, hq]
  exact ⟨_, rfl, State.search?_setSearch_self _ _ _⟩

/-- A search is set and its stage ends: the search stands so, and nothing outside the walker changes. -/
theorem State.setSearch_stageEnd (s : State) (n : Nat) (q : Search) (k : Nat) : ∃ wlk,
    (s.setSearch n q).stageEnd n k = { s with wlk := wlk } ∧ ({ s with wlk := wlk } : State).search? n = some { q with stageAt := s.now } :=
  State.stageEnd_keeps (s.search?_setSearch_self n q) k

section
variable {s : State} {n : Nat} {q : Search} (hq : s.search? n = some q)
include hq

/-- Without shards and rules the local list is posted. -/
theorem State.localDone_alone (hsc : q.desc.scatter = false) (hr : q.rules = []) :
    s.localDone n = (s.setSearch n { q with sets := [] }).postSearch n 0 false := by
  simp only [State.localDone, hq, hsc, Bool.not_false, Bool.true_or, if_true]
  simp only [State.conclude, hq, hr, State.precedents, List.map_nil, List.eraseDups_nil, List.foldl_nil, State.watchFaults, List.filter_nil,
    List.filterMap_nil, List.isEmpty_nil, if_true]

theorem selection_elsewhere (hw : q.stage ≠ .walked) : selection n [] 0 s = s := by
  unfold selection
  simp only [hq, bne_iff_ne.mpr hw, if_true]

variable {c : Coll} (hc : s.coll? q.coll = some c) (hw : q.stage = .walked) (hex : q.desc.exact = false)
include hc hw hex

/-- The local cast of a search that re-scores. -/
theorem selection_rescores (hd : 1 ≤ q.desc.rescore) (hnear : q.desc.rescoreOnNear = false) : ∃ (v : State) (wlk : WlkBlock) (r : Search) (mine : Nat),
    (s.bump64 pgCst 0x050).CastStep v ∧ selection n [] 0 s = { v with wlk := wlk } ∧ ({ v with wlk := wlk } : State).search? n = some r ∧
      r.stage = .rescoring ∧ r.report = (castOf (max q.desc.k q.desc.rescore) (higherBetter c.metric) true [{ entries := q.results }] []).report ∧
      r.localList = (castOf (max q.desc.k q.desc.rescore) (higherBetter c.metric) true [{ entries := q.results }] []).chosen.map
        fun e => { e with shard := mine } := by
  obtain ⟨v, hcast, hv⟩ := s.cast_keeps (max q.desc.k q.desc.rescore) (higherBetter c.metric) true [{ entries := q.results }]
  have hgo : (q.desc.rescore != 0) = true := bne_iff_ne.mpr (by omega)
  have hexact (tag : Nat) (es : List Entry) : v.exactSample c q tag es = q := by
    simp only [State.exactSample, State.runsExact, hex, Bool.false_and, Bool.not_false, if_true]
  unfold selection
  simp only [hq, hc, hw, bne_self_eq_false, Bool.false_eq_true, if_false, List.isEmpty_nil, if_true, hcast, hexact, hgo, hnear, Bool.not_false, Bool.true_or,
    Bool.and_self]
  obtain ⟨wlk, heq, hr⟩ := v.setSearch_stageEnd n _ 3
  exact ⟨v, wlk, _, _, hv, heq, hr, rfl, rfl, rfl⟩

/-- The local cast of a search that does not, alone on its node and under no rule, is posted. -/
theorem selection_posts (hd : q.desc.rescore = 0) (hsc : q.desc.scatter = false) (hr : q.rules = []) : ∃ (v : State) (wlk : WlkBlock) (r : Search) (mine : Nat),
    (s.bump64 pgCst 0x050).CastStep v ∧ selection n [] 0 s = State.postSearch { v with wlk := wlk } n 0 false ∧
      ({ v with wlk := wlk } : State).search? n = some r ∧
      r.report = (castOf q.desc.k (higherBetter c.metric) true [{ entries := q.results }] []).report ∧
      r.localList = (castOf q.desc.k (higherBetter c.metric) true [{ entries := q.results }] []).chosen.map fun e => { e with shard := mine } := by
  obtain ⟨v, hcast, hv⟩ := s.cast_keeps (max q.desc.k q.desc.rescore) (higherBetter c.metric) true [{ entries := q.results }]
  have hexact (tag : Nat) (es : List Entry) : v.exactSample c q tag es = q := by
    simp only [State.exactSample, State.runsExact, hex, Bool.false_and, Bool.not_false, if_true]
  have hstay : (q.desc.rescore != 0) = false := by rw [hd]; rfl
  unfold selection
  simp only [hq, hc, hw, bne_self_eq_false, Bool.false_eq_true, if_false, List.isEmpty_nil, if_true, hcast, hexact, Bool.false_and, hstay]
  obtain ⟨wlk, heq, hq'⟩ := v.setSearch_stageEnd n _ 3
  rw [heq, State.localDone_alone hq' hsc hr]
  exact ⟨v, _, _, _, hv, rfl, State.search?_setSearch_self _ _ _, rfl, rfl⟩

end

end Sys2Proof.Machine
end

section
/-!
Re-score, and the wait for shards (01 R28; 04 R138, R141 to R145).
-/

namespace Sys2Proof.Machine

/-! ### The cache of full vectors (04 R144) -/

theorem State.fvcShrink_keeps (s : State) (n : Nat) : ∃ fvc, s.fvcShrink n = { s with wlk := { s.wlk with fvc := fvc } } := by
  induction n generalizing s with
  | zero => exact ⟨_, rfl⟩
  | succ n ih =>
    unfold State.fvcShrink
    split
    · exact ⟨_, rfl⟩
    · obtain ⟨fvc, h⟩ := ih { s with wlk := { s.wlk with fvc := s.wlk.fvc.drop 1 } }
      exact ⟨fvc, h⟩

/-- A look into the cache changes the cache and its two counts. -/
theorem State.fvcLook_keeps (s : State) (coll slot size : Nat) (ok : Bool) : ∃ fvc counts,
    s.fvcLook coll slot size ok = { s with wlk := { s.wlk with fvc := fvc }, counts := counts } ∧
      (s.fvcLook coll slot size ok).count pgWlk 0x088 = s.count pgWlk 0x088 := by
  unfold State.fvcLook
  dsimp only
  split
  · exact ⟨_, _, rfl, State.count_bump64_ne _ _ (by decide)⟩
  have hmiss : (s.bump64 pgWlk 0x078).count pgWlk 0x088 = s.count pgWlk 0x088 := State.count_bump64_ne _ _ (by decide)
  split
  · obtain ⟨fvc, h⟩ := State.fvcShrink_keeps { s.bump64 pgWlk 0x078 with wlk := { s.wlk with fvc := s.wlk.fvc ++ [(coll, slot)] } }
      (s.wlk.fvc ++ [(coll, slot)]).length
    exact ⟨fvc, _, h, (congrArg (fun u : State => u.count pgWlk 0x088) h).trans hmiss⟩
  · exact ⟨_, _, rfl, hmiss⟩

/-! ### Entries re-scored one by one (04 R142, R145) -/

section
variable {s : State} {n : Nat} {q : Search} (hq : s.search? n = some q) (c : Coll) (failed : List Nat) (e : Entry)
include hq

/-- A vector that could not be read leaves its entry, and is counted. -/
theorem State.rescoreOne_failed (hf : e.slot ∈ failed) : ∃ fvc counts, let u : State := { s with wlk := { s.wlk with fvc := fvc }, counts := counts }
    s.rescoreOne n c failed e = ((u.setSearch n { q with rescoreFail := q.rescoreFail + 1, rescoreIncomplete := true }).bump pgWlk 0x088, e) ∧
      u.count pgWlk 0x088 = s.count pgWlk 0x088 := by
  obtain ⟨fvc, counts, hlook, hcount⟩ := s.fvcLook_keeps q.coll e.slot (fullBytes c.fullFormat c.fullDim) (!true)
  refine ⟨fvc, counts, ?_, hlook ▸ hcount⟩
  unfold State.rescoreOne
  simp only [hq, List.contains_iff_mem.mpr hf, if_true, hlook]

/-- A vector that was read, and whose score is a number, gives its entry that score. -/
theorem State.rescoreOne_read (hf : e.slot ∉ failed) {w : Word}
    (hw : w = fullScore c.metric c.fullFormat c.fullDim q.desc.fullQ (((c.slots.find? e.slot).map fun x => x.full).getD [])) (hnan : isNaN32 w = false) :
    ∃ fvc counts, s.rescoreOne n c failed e = (State.setSearch { s with wlk := { s.wlk with fvc := fvc }, counts := counts } n
      { q with rescoreDone := q.rescoreDone + 1 }, { e with full := true, score := w }) := by
  obtain ⟨fvc, counts, hlook, -⟩ := s.fvcLook_keeps q.coll e.slot (fullBytes c.fullFormat c.fullDim) (!false)
  have hread : failed.contains e.slot = false := Bool.eq_false_iff.mpr fun h => hf (List.contains_iff_mem.mp h)
  refine ⟨fvc, counts, ?_⟩
  unfold State.rescoreOne
  simp only [hq, hread, hlook, Bool.false_eq_true, if_false, ← hw, hnan, State.when_false]
  rfl

end

/-- The best entries, re-scored in their order. -/
def State.rescoreAll (s : State) (n : Nat) (c : Coll) (failed : List Nat) (es : List Entry) : State × List Entry :=
  es.foldl (fun a e => ((a.1.rescoreOne n c failed e).1, a.2 ++ [(a.1.rescoreOne n c failed e).2])) (s, [])

theorem State.rescoreAll_single (s : State) (n : Nat) (c : Coll) (failed : List Nat) {e e' : Entry} {u : State} (h : s.rescoreOne n c failed e = (u, e')) :
    s.rescoreAll n c failed [e] = (u, [e']) := by
  simp only [State.rescoreAll, List.foldl_cons, List.foldl_nil, List.nil_append, h]

/-- Once its entries are re-scored, a search alone on its node and under no rule is cast again and posted. -/
theorem rescoreReadComplete_posts {s u : State} {n : Nat} {q q' : Search} {c : Coll} {failed : List Nat} {es : List Entry} (hq : s.search? n = some q)
    (hst : q.stage = .rescoring) (hab : q.aborting = false) (hc : s.coll? q.coll = some c)
    (hall : s.rescoreAll n c failed (q.localList.take q.desc.rescore) = (u, es)) (hu : u.search? n = some q') (hsc : q'.desc.scatter = false) (hr : q'.rules = []) :
    ∃ (v : State) (wlk : WlkBlock) (r : Search), (u.bump64 pgCst 0x050).CastStep v ∧
      rescoreReadComplete n failed s = State.postSearch { v with wlk := wlk } n 0 false ∧ ({ v with wlk := wlk } : State).search? n = some r ∧
      r.localList = (castOf q.desc.k (higherBetter c.metric) true [{ entries := es ++ q.localList.drop q.desc.rescore, carried := some q.report.leftOutMass }] []).chosen ∧
      r.rescoreFail = q'.rescoreFail ∧ r.rescoreDone = q'.rescoreDone ∧ r.rescoreIncomplete = q'.rescoreIncomplete := by
  obtain ⟨v, hcast, hv⟩ := u.cast_keeps q.desc.k (higherBetter c.metric) true
    [{ entries := es ++ q.localList.drop q.desc.rescore, carried := some q.report.leftOutMass }]
  have hvq : v.search? n = some q' := by rw [State.search?, hv.wlk]; exact hu
  obtain ⟨wlk, heq, hw⟩ := v.setSearch_stageEnd n { q' with
    localList := (castOf q.desc.k (higherBetter c.metric) true [{ entries := es ++ q.localList.drop q.desc.rescore, carried := some q.report.leftOutMass }] []).chosen
    report := (castOf q.desc.k (higherBetter c.metric) true [{ entries := es ++ q.localList.drop q.desc.rescore, carried := some q.report.leftOutMass }] []).report
    dups := q'.dups + (castOf q.desc.k (higherBetter c.metric) true [{ entries := es ++ q.localList.drop q.desc.rescore, carried := some q.report.leftOutMass }] []).report.duplicates } 4
  have hdone : rescoreReadComplete n failed s = State.localDone { v with wlk := wlk } n := by
    unfold State.rescoreAll at hall
    unfold rescoreReadComplete
    simp only [hq, hst, hab, bne_self_eq_false, Bool.or_false, Bool.false_eq_true, if_false, hc, hall, hcast, hvq]
    rw [heq]
  rw [hdone, State.localDone_alone hw hsc hr]
  exact ⟨v, _, _, hv, rfl, State.search?_setSearch_self _ _ _, rfl, rfl, rfl, rfl⟩

end Sys2Proof.Machine
end

section
/-!
The end of a search: shards that do not answer, evidence, and the Sillage ring (01 R28; 05 R187; 11 R360, R362, R363, R378).
-/

namespace Sys2Proof.Machine

theorem State.searchDomain_of {s : State} {n : Nat} {k : Cmd} (hk : s.cmd? n = some k) : s.searchDomain n = k.domain := by
  rw [State.searchDomain, hk]
  rfl

section
variable {s : State} {n : Nat} {q : Search} (hq : s.search? n = some q)
include hq

theorem shardWaitExpiry_early (ho : s.shardWaitOver q = false) : shardWaitExpiry n s = s := by
  unfold shardWaitExpiry
  simp only [hq, ho, Bool.and_false, Bool.false_eq_true, if_false]

theorem shardWaitExpiry_over (hg : q.stage = .gathering) (ho : s.shardWaitOver q = true) : shardWaitExpiry n s =
    (s.setSearch n { q with shards := q.shards.map fun (a : ShardAsk) => if a.settled then a else { a with missing := true } }).mergeShards n := by
  unfold shardWaitExpiry
  simp only [hq, hg, ho, decide_true, Bool.and_self, if_true]

variable {k : Cmd} (hk : s.cmd? n = some k)
include hk

/-- Without a ring the record is dropped. -/
theorem State.tryRing_none (hr : s.ring? k.domain = none) : s.tryRing n = s.dropRecord n := by
  unfold State.tryRing
  simp only [hq, State.searchDomain_of hk, hr]

/-- Without evidence and without a ring, the record is built and dropped. -/
theorem evidenceFetchComplete_drops (hst : q.stage = .evidence) (hsets : q.sets = []) (hr : s.ring? k.domain = none) :
    evidenceFetchComplete n [] s = ((s.bump pgQmg 0x418 0).setSearch n { q with record := sillageRecord q k [] [] }).dropRecord n := by
  have hps : s.listedPrecs q [] = [] := by simp [State.listedPrecs, hsets]
  unfold evidenceFetchComplete
  simp only [hq, hk, hst, hps, bne_self_eq_false, Bool.false_eq_true, if_false, List.filter_nil, List.length_nil, Nat.lt_irrefl, decide_false, State.when_false,
    List.foldl_nil, distinctEvents, List.filterMap_nil, List.eraseDups_nil, State.eventBytes, List.flatMap_nil]
  exact State.tryRing_none (State.search?_setSearch_self _ _ _) hk hr

variable {r : Ring} (hst : q.stage = .ringWait) (hr : s.ring? k.domain = some r) (hlen : q.record.length + 64 ≤ r.length)
include hst hr hlen

theorem sillageTailPoll_waits (hu : s.tapeTime < q.ringUntil) (hfit : r.fits (leNat (s.readBytes s.view r.tail 8)) q.record.length = false) :
    sillageTailPoll n s = s := by
  unfold sillageTailPoll State.tryRing
  simp only [hq, hst, if_true, State.searchDomain_of hk, hr, hfit, if_neg (show ¬ r.length - 64 < q.record.length by omega), Bool.false_eq_true, if_false,
    if_neg (Nat.not_le.mpr hu)]

/-- A record that fits without a pad is written at the head, which moves past it. -/
theorem sillageTailPoll_writes (hfit : r.fits (leNat (s.readBytes s.view r.tail 8)) q.record.length = true) (hend : r.head + q.record.length ≤ r.length)
    (hhead : r.head < r.length) : sillageTailPoll n s =
      (((((s.writeBytes s.view (r.base + r.head) q.record).setRing k.domain { r with head := (r.head + q.record.length) % r.length }).bump64 pgQmg 0x408).when
        q.omits (·.bump pgQmg 0x41C)).postSearch n (r.base + r.head) true) := by
  have hplace : r.place q.record.length = (0, (r.head + q.record.length) % r.length) := by
    simp only [Ring.place, if_neg (Nat.not_lt.mpr hend), Nat.add_zero]
  unfold sillageTailPoll State.tryRing
  simp only [hq, hst, if_true, State.searchDomain_of hk, hr, hfit, if_neg (show ¬ r.length - 64 < q.record.length by omega), hplace, Nat.add_zero,
    Nat.mod_eq_of_lt hhead]

end

end Sys2Proof.Machine
end

section
/-!
A record in its ring, and the steps that end a search together (04 R137, R138, R141; 05 R187; 11 R360, R362, R363).
-/

namespace Sys2Proof.Machine

/-! ### Writes leave other bytes, whether the link is up or down -/

theorem State.readByte_writeByte_other (s : State) (v : View) {a x : Nat} (b : Byte) (h : x ≠ a) : (s.writeByte v a b).readByte v x = s.readByte v x := by
  cases hu : linkUp s with
  | true => exact State.readByte_writeByte_ne hu v b h
  | false =>
    rw [State.readByte, s.writeByte_linkUp, hu, State.writeByte, hu, State.readByte, hu]
    cases hx : v.inWin x with
    | false => cases v.inWin a <;> rfl
    | true =>
      cases ha : v.inWin a
      · rfl
      · have hne : x - v.base ≠ a - v.base := by
          have := View.inWin_le hx
          have := View.inWin_le ha
          omega
        simp [Memory.read_write_ne b hne]

theorem State.readByte_writeBytes_other (s : State) (v : View) {a x : Nat} (bs : List Byte) (h : x < a ∨ a + bs.length ≤ x) :
    (s.writeBytes v a bs).readByte v x = s.readByte v x := by
  have hgo : (s.writeBytesGo v a bs).readByte v x = s.readByte v x := by
    induction bs generalizing s a with
    | nil => rfl
    | cons b bs ih =>
      rw [List.length_cons] at h
      exact (ih (s.writeByte v a b) (by omega)).trans (s.readByte_writeByte_other v b (by omega))
  unfold State.writeBytes
  dsimp only
  split
  · exact hgo
  · exact hgo

/-! ### A record in its ring (11 R362) -/

/-- The state that has written a record at the head of its ring. -/
def State.recordWritten (s : State) (d : Nat) (r : Ring) (record : List Byte) (omits : Bool) : State :=
  (((s.writeBytes s.view (r.base + r.head) record).setRing d { r with head := (r.head + record.length) % r.length }).bump64 pgQmg 0x408).when
    omits (·.bump pgQmg 0x41C)

section
variable (s : State) (d : Nat) (r : Ring) (record : List Byte) (omits : Bool)

theorem State.recordWritten_eq : ∃ qmg counts, s.recordWritten d r record omits =
    { s.writeBytes s.view (r.base + r.head) record with qmg := qmg, counts := counts } := by
  unfold State.recordWritten
  cases omits
  · exact ⟨_, _, rfl⟩
  · exact ⟨_, _, rfl⟩

theorem State.recordWritten_ring : (s.recordWritten d r record omits).ring? d = some { r with head := (r.head + record.length) % r.length } :=
  (State.when_keeps (fun u : State => u.ring? d) omits rfl).trans (Table.find?_set_self _ _ _)

theorem State.recordWritten_count : (s.recordWritten d r record omits).count pgQmg 0x408 = (s.count pgQmg 0x408 + 1) % 2 ^ 64 := by
  refine (State.when_keeps (fun u : State => u.count pgQmg 0x408) omits (State.count_bump_ne _ _ (by decide))).trans ((State.count_bump64_self _ _ _ _).trans ?_)
  have hcount : (s.writeBytes s.view (r.base + r.head) record).count pgQmg 0x408 = s.count pgQmg 0x408 := by
    unfold State.writeBytes
    dsimp only
    rw [State.writeBytesGo_eq]
    split
    · exact State.count_bump_ne _ _ (by decide)
    · rfl
  exact congrArg (fun n => (n + 1) % 2 ^ 64) hcount

theorem State.recordWritten_flt : (s.recordWritten d r record omits).flt = s.flt := by
  obtain ⟨qmg, counts, h⟩ := s.recordWritten_eq d r record omits
  rw [h, State.writeBytes_eq]

theorem State.recordWritten_readByte (x : Nat) : (s.recordWritten d r record omits).readByte s.view x =
    (s.writeBytes s.view (r.base + r.head) record).readByte s.view x := by
  obtain ⟨qmg, counts, h⟩ := s.recordWritten_eq d r record omits
  rw [h]
  rfl

end

/-- What a re-score of one entry posts: the outcome of the search, and nothing outside the walker's state and statistics. -/
theorem rescored_single {s u : State} {n : Nat} {q q' : Search} {c : Coll} {failed : List Nat} {e e' : Entry} (hq : s.search? n = some q)
    (hst : q.stage = .rescoring) (hab : q.aborting = false) (hc : s.coll? q.coll = some c) (hlist : q.localList = [e]) (hd : 1 ≤ q.desc.rescore)
    (hk : 1 ≤ q.desc.k) (hone : s.rescoreOne n c failed e = (u, e')) (hnan : isNaN32 e'.score = false) (hu : u.search? n = some q')
    (hsc : q'.desc.scatter = false) (hr : q'.rules = []) : ∃ (w : State) (r : Search), rescoreReadComplete n failed s = w.postSearch n 0 false ∧
      w.search? n = some r ∧ r.localList = [e'] ∧ r.rescoreFail = q'.rescoreFail ∧ r.rescoreDone = q'.rescoreDone ∧
      r.rescoreIncomplete = q'.rescoreIncomplete ∧ w.count pgWlk 0x088 = u.count pgWlk 0x088 ∧ w.qmg = u.qmg ∧ w.flt = u.flt ∧ w.host = u.host ∧ w.win = u.win := by
  have htake : q.localList.take q.desc.rescore = [e] := by rw [hlist, List.take_of_length_le (by simpa using hd)]
  have hdrop : q.localList.drop q.desc.rescore = [] := by rw [hlist, List.drop_of_length_le (by simpa using hd)]
  obtain ⟨v, wlk, r, hv, heq, hr', hlocal, hfail, hdone, hinc⟩ :=
    rescoreReadComplete_posts hq hst hab hc (by rw [htake]; exact State.rescoreAll_single s n c failed hone) hu hsc hr
  rw [hdrop, List.append_nil, castOf_single hk _ _ hnan] at hlocal
  obtain ⟨hqmg, hflt, hhost, hwin⟩ := hv.frame
  exact ⟨_, r, heq, hr', hlocal, hfail, hdone, hinc, (hv.walk 0x088 (by decide)).trans (State.count_bump64_ne _ _ (by decide)), hqmg, hflt, hhost, hwin⟩

/-- Settles O37: each step by which a search ends, by its own rule. -/
theorem searchesEnd : Obligations.SearchesEnd := by
  intro s t cid q k c hl hq hk hc cast
  refine ⟨fun ha hw hex hd hnear => ?_, fun ha hw hex hd hsc hr => ?_, fun hw => ?_, fun hst hab hsc hr hlist => ?_,
    fun e hst hab hsc hr hlist hd hk1 hnan => ?_, fun e w hst hab hsc hr hlist hd hk1 hw hnan => ?_, fun hg ho => ?_, fun hg ho => ?_,
    fun hst hsets hr => ?_, fun r hst hr hlen hu hfit => ?_, fun r hst hr hlen hend hhead hfit => ?_⟩
  · obtain ⟨v, wlk, r, mine, hv, heq, hr, hstage, hreport, hlocal⟩ := selection_rescores (s := s.at t) hq hc hw hex hd hnear
    obtain ⟨hqmg, hflt, hhost, hwin⟩ := hv.frame
    refine ⟨_, congrArg done ((State.onlyIf_of (by rw [hl, ha]; rfl) _).trans heq), ?_, ?_, hqmg, hflt, hhost, hwin⟩
    · rw [hr, Option.map_some, hstage, hreport, hlocal, List.map_map]
      rfl
    · exact hv.casts.trans (State.count_bump64_self _ _ _ _)
  · obtain ⟨v, wlk, r, mine, hv, heq, hr, hreport, hlocal⟩ := selection_posts (s := s.at t) hq hc hw hex hd hsc hr
    obtain ⟨hqmg, hflt, hhost, hwin⟩ := hv.frame
    refine ⟨_, congrArg done ((State.onlyIf_of (by rw [hl, ha]; rfl) _).trans heq), ?_, hqmg, hflt, hhost, hwin⟩
    have hmax : max q.desc.k q.desc.rescore = q.desc.k := by rw [hd]; exact Nat.max_eq_left (Nat.zero_le _)
    rw [hr, Option.map_some, hreport, hlocal, List.map_map, ← hmax]
    rfl
  · by_cases ha : s.accepts pgCst = true
    · exact congrArg done ((State.onlyIf_of (by rw [hl, ha]; rfl) _).trans (selection_elsewhere (s := s.at t) hq hw))
    · exact congrArg done (if_neg (by rw [hl, Bool.true_and]; exact ha))
  · obtain ⟨v, wlk, r, hv, heq, hr, hlocal, -⟩ := rescoreReadComplete_posts (s := s.at t) (u := s.at t) (failed := []) (es := []) hq hst hab hc
      (by rw [hlist, List.take_nil]; rfl) hq hsc hr
    obtain ⟨hqmg, hflt, hhost, hwin⟩ := hv.frame
    rw [hlist, List.drop_nil, List.append_nil, castOf_nil] at hlocal
    refine ⟨_, congrArg done ((State.onlyIf_of hl _).trans heq), ?_, hqmg, hflt, hhost, hwin⟩
    rw [hr, Option.map_some, hlocal]
  · obtain ⟨fvc, counts, hone, hcount⟩ := State.rescoreOne_failed (s := s.at t) hq c [e.slot] e (List.mem_singleton_self _)
    obtain ⟨w, r, heq, hr', hlocal, hfail, hdone, hinc, hwlk, hqmg, hflt, hhost, hwin⟩ := rescored_single (s := s.at t) hq hst hab hc hlist hd hk1 hone hnan
      (State.search?_setSearch_self _ _ _) hsc hr
    refine ⟨w, congrArg done ((State.onlyIf_of hl _).trans heq), ?_, ?_, hqmg, hflt, hhost, hwin⟩
    · rw [hr', Option.map_some, hfail, hdone, hinc, hlocal]
    · exact hwlk.trans ((State.count_bump_self _ _ _ _).trans (congrArg (fun n => min 0xFFFFFFFF (n + 1)) hcount))
  · obtain ⟨fvc, counts, hone⟩ := State.rescoreOne_read (s := s.at t) hq c [] e List.not_mem_nil hw hnan
    obtain ⟨u, r, heq, hr', hlocal, hfail, hdone, -, -, hqmg, hflt, hhost, hwin⟩ := rescored_single (s := s.at t) hq hst hab hc hlist hd hk1 hone hnan
      (State.search?_setSearch_self _ _ _) hsc hr
    refine ⟨u, congrArg done ((State.onlyIf_of hl _).trans heq), ?_, hqmg, hflt, hhost, hwin⟩
    rw [hr', Option.map_some, hfail, hdone, hlocal]
  · exact congrArg done ((State.onlyIf_of hl _).trans (shardWaitExpiry_early (s := s.at t) hq ho))
  · exact congrArg done ((State.onlyIf_of hl _).trans (shardWaitExpiry_over (s := s.at t) hq hg ho))
  · refine ⟨_, congrArg done ((State.onlyIf_of hl _).trans (evidenceFetchComplete_drops (s := s.at t) hq hk hst hsets hr)), ?_, ?_, ?_, ⟨_, rfl, ?_⟩, rfl, rfl⟩
    · exact congrArg (Option.map (·.record)) (State.search?_setSearch_self (s := (s.at t).bump pgQmg 0x418 0) _ _)
    · refine (State.count_bump_self _ _ _ _).trans (congrArg (fun n => min 0xFFFFFFFF (n + 1)) ?_)
      exact (s.at t).count_bump_ne (page := pgQmg) (off := 0x418) 0 (by decide)
    · exact State.bitOf_reg_sticky _ _ _ rfl
    · exact faultMsg_kind _ _ .sillageDropped _ _ _
  · exact congrArg done ((State.onlyIf_of hl _).trans (sillageTailPoll_waits (s := s.at t) hq hk hst hr hlen hu hfit))
  · refine ⟨(s.at t).recordWritten k.domain r q.record q.omits, congrArg done ((State.onlyIf_of hl _).trans
      (sillageTailPoll_writes (s := s.at t) hq hk hst hr hlen hfit hend hhead)), (s.at t).recordWritten_ring .., (s.at t).recordWritten_count ..,
      (s.at t).recordWritten_flt .., fun hu => ?_, fun a ha => ?_⟩
    · exact (State.readBytes_congr fun x => (s.at t).recordWritten_readByte ..).trans (State.readBytes_writeBytes (s := s.at t) hu ..)
    · exact ((s.at t).recordWritten_readByte ..).trans ((s.at t).readByte_writeBytes_other _ _ ha)

end Sys2Proof.Machine
end

section
/-!
What leaves the node: a message that is queued, sent or waits changes the fabric's and SHP's state alone (17 R555, R559, R560; 18 R587, R596).
-/

namespace Sys2Proof.Machine

/-- `u` differs from `s` in what the fabric and SHP hold of messages, in registers and statistics, and in what has left the node. -/
structure State.SendStep (s u : State) : Prop where
  rest : u = { s with
    regs := u.regs, counts := u.counts, outbox := u.outbox, shp := u.shp
    fab := { s.fab with conns := u.fab.conns, ports := u.fab.ports, forwards := u.fab.forwards } }
  kept : ∀ o ∈ s.outbox, o ∈ u.outbox

namespace State.SendStep

theorem refl (s : State) : s.SendStep s := ⟨rfl, fun _ h => h⟩

theorem trans {s u v : State} (h : s.SendStep u) (h' : u.SendStep v) : s.SendStep v :=
  ⟨by rw [h'.rest, h.rest], fun o ho => h'.kept o (h.kept o ho)⟩

/-- `trans` read from its second step. -/
theorem after {s u v : State} (h' : u.SendStep v) (h : s.SendStep u) : s.SendStep v := h.trans h'

/-- A step that sends nothing. -/
theorem of_eq {s u : State} (h : u = { s with
    regs := u.regs, counts := u.counts, outbox := s.outbox, shp := u.shp
    fab := { s.fab with conns := u.fab.conns, ports := u.fab.ports, forwards := u.fab.forwards } }) : s.SendStep u := by
  have hout : u.outbox = s.outbox := by rw [h]
  exact ⟨by rw [hout]; exact h, fun o ho => by rw [hout]; exact ho⟩

theorem foldl {α : Type} {f : State → α → State} (h : ∀ (s : State) a, s.SendStep (f s a)) (l : List α) (s : State) : s.SendStep (l.foldl f s) := by
  induction l generalizing s with
  | nil => exact refl s
  | cons a l ih => exact (h s a).trans (ih _)

section
variable {s u : State} (h : s.SendStep u)
include h

theorem qmg : u.qmg = s.qmg := by rw [h.rest]
theorem host : u.host = s.host := by rw [h.rest]
theorem win : u.win = s.win := by rw [h.rest]
theorem wlk : u.wlk = s.wlk := by rw [h.rest]
theorem bft : u.bft = s.bft := by rw [h.rest]
theorem cue : u.cue = s.cue := by rw [h.rest]
theorem reqs : u.fab.reqs = s.fab.reqs := by rw [h.rest]
theorem repls : u.fab.repls = s.fab.repls := by rw [h.rest]
theorem ships : u.fab.ships = s.fab.ships := by rw [h.rest]
theorem epoch : u.fab.epoch = s.fab.epoch := by rw [h.rest]
theorem expiry : u.fab.expiry = s.fab.expiry := by rw [h.rest]

/-- The host's side of a step: queues and memories. -/
theorem hostSide : u.qmg = s.qmg ∧ u.host = s.host ∧ u.win = s.win := ⟨h.qmg, h.host, h.win⟩

end

end State.SendStep

theorem State.sendStep_setPort (s : State) (p : Nat) (v : FabPort) : s.SendStep (s.setPort p v) := .of_eq rfl
theorem State.sendStep_setConn (s : State) (n : Nat) (c : Conn) : s.SendStep (s.setConn n c) := .of_eq rfl
theorem State.sendStep_bump (s : State) (page off n : Nat) : s.SendStep (s.bump page off n) := .of_eq rfl
theorem State.sendStep_emit (s : State) (o : Out) : s.SendStep (s.emit o) := ⟨rfl, fun _ h => List.mem_cons_of_mem _ h⟩

theorem State.sendStep_sendData (s : State) (p : Nat) (m : Msg) : s.SendStep (s.sendData p m) :=
  (State.sendStep_emit _ _).after (.of_eq rfl)

/-- What a port sends has left the node. -/
theorem State.mem_sendData (s : State) (p : Nat) (m : Msg) : .fabric p m ∈ (s.sendData p m).outbox := List.mem_cons_self

theorem State.sendStep_shpQueue (s : State) (p : Nat) (m : Msg) : s.SendStep (s.shpQueue p m) := by
  unfold State.shpQueue
  dsimp only
  split
  · split
    · exact .of_eq rfl
    · exact .of_eq rfl
  · split
    · exact .of_eq rfl
    · exact .of_eq rfl

theorem State.sendStep_shpOffer (s : State) (p : Nat) (m : Msg) : s.SendStep (s.shpOffer p m).1 := by
  unfold State.shpOffer
  split
  · exact s.sendStep_shpQueue p m
  · exact .of_eq rfl

theorem State.sendStep_of_shpOffer {s u : State} {p : Nat} {m : Msg} {b : Bool} (h : s.shpOffer p m = (u, b)) : s.SendStep u := by
  have := s.sendStep_shpOffer p m
  rwa [h] at this

theorem State.sendStep_pumpGo (s : State) (node n : Nat) : s.SendStep (s.pumpGo node n) := by
  induction n generalizing s with
  | zero => exact .refl s
  | succ n ih =>
    unfold State.pumpGo
    dsimp only
    split
    · split
      · split
        · exact (ih _).after (.of_eq rfl)
        · split
          · next s' hs => exact State.sendStep_of_shpOffer hs
          · next s' hs => exact (ih _).after ((State.sendStep_of_shpOffer hs).trans (State.sendStep_setConn _ _ _))
      · exact .refl s
    · exact .refl s

theorem State.sendStep_pump (s : State) (node : Nat) : s.SendStep (s.pump node) := s.sendStep_pumpGo node _

theorem State.sendStep_flushSegsGo (s : State) (p : Nat) (l : List Msg) : s.SendStep (s.flushSegsGo p l) := by
  induction l generalizing s with
  | nil => exact s.sendStep_setPort _ _
  | cons m l ih =>
    unfold State.flushSegsGo
    split
    · exact (ih _).after (s.sendStep_sendData p m)
    · exact s.sendStep_setPort _ _

theorem State.sendStep_flushSegs (s : State) (p : Nat) : s.SendStep (s.flushSegs p) := s.sendStep_flushSegsGo p _

theorem State.sendStep_sendSegment (s : State) (m : Msg) : s.SendStep (s.sendSegment m) := by
  unfold State.sendSegment
  split
  · exact s.sendStep_bump _ _ _
  · exact (State.sendStep_flushSegs _ _).after (s.sendStep_setPort _ _)

theorem State.sendStep_openConn (s : State) (node : Nat) : s.SendStep (s.openConn node) :=
  (State.sendStep_sendSegment _ _).after (s.sendStep_setConn _ _)

theorem State.sendStep_sendMsg (s : State) (m : Msg) : s.SendStep (s.sendMsg m) := by
  unfold State.sendMsg
  dsimp only
  split
  · exact (State.sendStep_pump _ _).after (s.sendStep_setConn _ _)
  · exact s.sendStep_setConn _ _
  · exact (State.sendStep_openConn _ _).after (s.sendStep_setConn _ _)

theorem State.sendStep_takeRoom (s : State) : s.SendStep s.takeRoom := by
  unfold State.takeRoom
  dsimp only
  refine (State.SendStep.foldl (fun u n => u.sendStep_pump n) _ _).after (State.SendStep.foldl (fun u e => ?_) _ _)
  split
  · exact .refl u
  · split
    · exact ((State.sendStep_emit _ _).after (State.sendStep_shpQueue _ _ _)).after (.of_eq rfl)
    · exact .refl u

theorem State.sendStep_noteStall (s : State) (p : Nat) : s.SendStep (s.noteStall p) := by
  unfold State.noteStall
  dsimp only
  split
  · split
    · exact s.sendStep_setPort _ _
    · exact .refl s
  · split
    · exact .refl s
    · exact .of_eq rfl

theorem State.sendStep_noteWaits (s : State) (p : Nat) : s.SendStep (s.noteWaits p) := .of_eq rfl

theorem State.sendStep_loseDeficits (s : State) (p : Nat) (m : Msg) : s.SendStep (s.loseDeficits p m) := .of_eq rfl

theorem State.sendStep_startService (s : State) (p : Nat) (x : Queued) (q : ShpPort) : s.SendStep (s.startService p x q) := by
  unfold State.startService
  dsimp only
  refine (State.sendStep_loseDeficits _ _ _).after ?_
  split
  · exact (SendStep.of_eq rfl).after ((State.sendStep_sendData _ _ _).after (.of_eq rfl))
  · exact (State.sendStep_sendData _ _ _).after (.of_eq rfl)

/-- A service message that starts has left the node. -/
theorem State.mem_startService (s : State) (p : Nat) (x : Queued) (q : ShpPort) : .fabric p x.msg ∈ (s.startService p x q).outbox := by
  unfold State.startService
  dsimp only
  split
  · exact State.mem_sendData _ _ _
  · exact State.mem_sendData _ _ _

end Sys2Proof.Machine
end

section
/-!
Egress: what a port sends next, gates and shapers (18 R587, R588, R590, R592, R599, R601).
-/

namespace Sys2Proof.Machine

/-! ### What a port sends next (R587) -/

theorem State.sendStep_transmit (s : State) (p : Nat) : s.SendStep (s.transmit p) := by
  unfold State.transmit
  dsimp only
  split
  · exact (State.sendStep_sendData _ _ _).after (.of_eq rfl)
  · exact (State.sendStep_sendData _ _ _).after (.of_eq rfl)
  · split
    · exact .refl s
    · split
      · exact s.sendStep_noteWaits p
      · exact (State.sendStep_startService _ _ _ _).after (s.sendStep_noteWaits p)

section
variable {s : State} {p : Nat} {x : Queued}

theorem State.transmit_tape (h : (s.shpPort p).tape.find? (fun y => s.canSend p y.msg) = some x) : .fabric p x.msg ∈ (s.transmit p).outbox := by
  simp only [State.transmit, h]
  exact State.mem_sendData _ _ _

variable (ht : (s.shpPort p).tape.find? (fun y => s.canSend p y.msg) = none) (hs : (s.shpPort p).sending = none)
include ht hs

theorem State.transmit_fault (h : (s.shpPort p).fault.find? (fun y => s.canSend p y.msg) = some x) : .fabric p x.msg ∈ (s.transmit p).outbox := by
  simp only [State.transmit, ht, State.busyWith, hs, Option.any_none, Bool.not_false, Bool.and_true, h]
  exact State.mem_sendData _ _ _

theorem State.transmit_service {q : ShpPort} (hf : (s.shpPort p).fault = []) (hr : s.portRate p = 0)
    (h : (if (s.noteWaits p).hierarchical then (s.noteWaits p).chooseHier p else (s.noteWaits p).chooseFall p) = some (x, q)) :
    .fabric p x.msg ∈ (s.transmit p).outbox := by
  simp only [State.transmit, ht, State.busyWith, hs, hf, List.find?_nil, Option.isSome_none, hr, bne_self_eq_false, Bool.false_and, Bool.or_self,
    Bool.false_eq_true, if_false, h]
  exact State.mem_startService _ _ _ _

end

/-- A port that may send sends what `transmit` chooses, and whatever then finds room. -/
theorem messageTransmit_sends {s : State} {t p : Nat} {m : Msg} (hl : s.live = true) (hup : (s.port p).up = true) (hshp : s.accepts pgShp = true)
    (hfab : s.accepts (pgFab p) = true) (hm : .fabric p m ∈ ((s.at t).transmit p).outbox) : ∃ v : State, exec (.messageTransmit t p) s = .next v.settle ∧
      .fabric p m ∈ v.outbox ∧ v.qmg = s.qmg ∧ v.host = s.host ∧ v.win = s.win := by
  have hrest : ((s.at t).transmit p).SendStep ((((s.at t).transmit p).noteStall p).takeRoom) := (State.sendStep_takeRoom _).after (State.sendStep_noteStall _ _)
  have hall := ((s.at t).sendStep_transmit p).trans hrest
  exact ⟨_, congrArg done (State.onlyIf_of (by rw [hl, hup, hshp, hfab]; rfl) _), hrest.kept _ hm, hall.hostSide⟩

/-! ### Gates (R599, R601) -/

section
variable {s : State} {p : Nat}

theorem State.gatesMoved_idle (h : (s.shpPort p).sending = none) : s.gatesMoved p = s.setShpPort p { s.shpPort p with entry := s.gateEntry p } := by
  simp only [State.gatesMoved, h]

theorem State.gatesMoved_late {x : Sending} (h : (s.shpPort p).sending = some x) (he : s.now < x.ends) (hl : x.late = false)
    (hg : s.gateOpen p x.cls = false) : s.gatesMoved p =
      (s.setShpPort p { s.shpPort p with entry := s.gateEntry p, sending := some { x with late := true } }).bump pgShp 0x09C := by
  simp only [State.gatesMoved, h, decide_eq_true he, hl, hg, Bool.not_false, Bool.and_self, if_true]

end

end Sys2Proof.Machine
end

section
/-!
The end of a block's reset: the work of its commands ends, and they complete (20 R640; 15 R514).
-/

namespace Sys2Proof.Machine

/-- `u` runs the resets of `s` and no command that `s` does not hold. -/
structure State.EndStep (s u : State) : Prop where
  resets : u.flt.resets = s.flt.resets
  gone   : ∀ n, s.cmd? n = none → u.cmd? n = none

namespace State.EndStep

theorem refl (s : State) : s.EndStep s := ⟨rfl, fun _ h => h⟩

theorem trans {s u v : State} (h : s.EndStep u) (h' : u.EndStep v) : s.EndStep v :=
  ⟨h'.resets.trans h.resets, fun n hn => h'.gone n (h.gone n hn)⟩

/-- `trans` read from its second step. -/
theorem after {s u v : State} (h' : u.EndStep v) (h : s.EndStep u) : s.EndStep v := h.trans h'

theorem of_eq {s u : State} (hf : u.flt.resets = s.flt.resets) (hc : u.qmg.cmds = s.qmg.cmds) : s.EndStep u :=
  ⟨hf, fun n hn => by rw [State.cmd?, hc]; exact hn⟩

theorem foldl {α : Type} {f : State → α → State} (h : ∀ (s : State) a, s.EndStep (f s a)) (l : List α) (s : State) : s.EndStep (l.foldl f s) := by
  induction l generalizing s with
  | nil => exact refl s
  | cons a l ih => exact (h s a).trans (ih _)

end State.EndStep

/-- After a completion no command has the number. -/
theorem State.post_gone (s : State) (cid : Nat) (c : Comp) (rest : List Byte) : (s.post cid c rest).cmd? cid = none := by
  cases hk : s.cmd? cid with
  | none => simp only [State.post, hk]
  | some k =>
    rw [State.cmd?, (State.post_stands hk c rest).cmds]
    exact Table.find?_erase_self _ _

theorem State.endStep_post (s : State) (cid : Nat) (c : Comp) (rest : List Byte) : s.EndStep (s.post cid c rest) := by
  refine ⟨congrArg FltBlock.resets (s.postStep_post cid c rest).flt, fun n hn => ?_⟩
  by_cases hnc : n = cid
  · rw [hnc]
    exact s.post_gone cid c rest
  cases hk : s.cmd? cid with
  | none => simp only [State.post, hk, hn]
  | some k =>
    rw [State.cmd?, (State.post_stands hk c rest).cmds]
    exact (Table.find?_erase_ne _ hnc).trans hn

theorem State.endStep_cmdWrite (s : State) (cid ptr off : Nat) (bs : List Byte) : s.EndStep (s.cmdWrite cid ptr off bs) := by
  cases hk : s.cmd? cid with
  | none => simp only [State.cmdWrite, hk]; exact .refl s
  | some k =>
    refine ⟨congrArg FltBlock.resets (s.postStep_cmdWrite cid ptr off bs).flt, fun n hn => ?_⟩
    obtain ⟨k', hk', hother, -⟩ := State.cmdWrite_found hk ptr off bs
    have hne : n ≠ cid := fun h => by rw [h, hk] at hn; cases hn
    exact (hother n hne).trans hn

/-! ### The work of one command (R640) -/

theorem State.endStep_endSearch (s : State) (n : Nat) : s.EndStep (s.endSearch n) := by
  unfold State.endSearch
  split
  · exact .refl s
  · refine .trans (u := s.dropSearch n) ?_ (.of_eq rfl rfl)
    unfold State.dropSearch
    split
    · exact .refl s
    · dsimp only
      unfold State.reclaim
      split
      · exact .of_eq rfl rfl
      · exact .of_eq rfl rfl

theorem State.endStep_endEncode (s : State) (n : Nat) : s.EndStep (s.endEncode n) := by
  unfold State.endEncode
  split
  · exact .refl s
  · dsimp only
    generalize hu : State.withEnc s _ = u
    obtain ⟨dom, tier, scores, htrim⟩ := u.trimPool_keeps (EncCmd.score _)
    rw [htrim, ← hu]
    exact .of_eq rfl rfl

theorem State.endStep_startOp (s : State) (task : FlashTask) (page : Nat) : s.EndStep (s.startOp task page) := .of_eq rfl rfl

theorem State.endStep_verifyNext (s : State) (n : Nat) : s.EndStep (s.verifyNext n) := by
  unfold State.verifyNext
  split
  · exact .refl s
  split
  · exact .refl s
  split
  · exact s.endStep_startOp _ _
  · refine (State.endStep_startOp _ _ _).after (.trans (.foldl (fun u b => ?_) _ _) (.of_eq rfl rfl))
    split
    · exact .of_eq rfl rfl
    · exact .refl u

theorem State.endStep_pageEnded (s : State) (page : Nat) : s.EndStep (s.pageEnded page) := by
  unfold State.pageEnded
  split
  · exact .refl s
  · dsimp only
    split
    · exact .of_eq rfl rfl
    · exact (State.endStep_verifyNext _ _).after (.of_eq rfl rfl)

theorem State.endStep_endFlash (s : State) (n : Nat) : s.EndStep (s.endFlash n) := by
  unfold State.endFlash
  dsimp only
  refine .foldl (fun u e => ?_) _ _
  split
  · exact (State.endStep_pageEnded _ _).after (.of_eq rfl rfl)
  · exact .of_eq rfl rfl

theorem State.endStep_closeDone (s : State) : s.EndStep s.closeDone := by
  unfold State.closeDone
  refine .foldl (fun u cid => ?_) _ _
  split
  · exact .refl u
  · dsimp only
    split
    · exact .refl u
    · exact (State.endStep_post _ _ _ _).after ((State.endStep_cmdWrite _ _ _ _ _).after (.of_eq rfl rfl))

theorem State.endStep_endRuns (s : State) (n : Nat) : s.EndStep (s.endRuns n) := by
  unfold State.endRuns
  dsimp only
  refine (State.EndStep.foldl (fun u e => ?_) _ _).after (.of_eq rfl rfl)
  unfold State.dropRun
  split
  · exact .refl u
  · exact (State.endStep_closeDone _).after (.of_eq rfl rfl)

theorem State.endStep_endEntrance (s : State) (n : Nat) : s.EndStep (s.endEntrance n) := by
  unfold State.endEntrance
  refine .foldl (fun u e => ?_) _ _
  unfold State.abandonEntrance
  split
  · exact .refl u
  · split
    · exact .refl u
    · exact .of_eq rfl rfl

theorem State.endStep_undoWait (s : State) (n : Nat) : s.EndStep (s.undoWait n) := by
  unfold State.undoWait
  dsimp only
  generalize hu : List.foldl _ s _ = u
  have hheirs : s.EndStep u := by
    rw [← hu]
    refine .foldl (fun v e => ?_) _ _
    exact .of_eq rfl rfl
  exact hheirs.trans (.of_eq rfl rfl)

theorem State.endStep_endWork (s : State) (n : Nat) : s.EndStep (s.endWork n) :=
  (State.endStep_undoWait _ _).after ((State.endStep_endEntrance _ _).after ((State.endStep_endRuns _ _).after ((State.endStep_endFlash _ _).after
    ((State.endStep_endEncode _ _).after (s.endStep_endSearch n)))))

theorem State.endStep_idleBlock (s : State) (page : Nat) : s.EndStep (s.idleBlock page) := by
  unfold State.idleBlock
  split
  · exact .refl s
  · split
    · exact .of_eq rfl rfl
    · exact .of_eq rfl rfl
    · exact .of_eq rfl rfl
    · exact .of_eq rfl rfl
    · exact .of_eq rfl rfl
    · exact .of_eq rfl rfl
    · exact .of_eq rfl rfl
    · exact .refl s

/-! ### The completions that R514 owes -/

theorem State.finishMut_ends (s : State) (cid src : Nat) (st : Status) (n : Nat) : s.EndStep (s.finishMut cid src st n) ∧ (s.finishMut cid src st n).cmd? cid = none := by
  rw [State.finishMut_eq]
  exact ⟨(s.endStep_post _ _ _).trans (.of_eq rfl rfl), s.post_gone cid _ _⟩

theorem State.postOwed_ends (s : State) (cid : Nat) (k : Cmd) (ok : Bool) (n : Nat) : s.EndStep (s.postOwed cid k ok n) ∧ (s.postOwed cid k ok n).cmd? cid = none := by
  unfold State.postOwed
  dsimp only
  split
  · exact ⟨s.endStep_post _ _ _, s.post_gone _ _ _⟩
  · exact ⟨s.endStep_post _ _ _, s.post_gone _ _ _⟩
  split
  · exact s.finishMut_ends _ _ _ _
  · exact ⟨s.endStep_post _ _ _, s.post_gone _ _ _⟩

/-- Completions one after another leave none of their commands outstanding. -/
theorem State.foldl_postOwed (l : List (Nat × Cmd × Bool × Nat)) (s : State) : s.EndStep (l.foldl (fun s e => s.postOwed e.1 e.2.1 e.2.2.1 e.2.2.2) s) ∧
    ∀ e ∈ l, (l.foldl (fun s e => s.postOwed e.1 e.2.1 e.2.2.1 e.2.2.2) s).cmd? e.1 = none := by
  induction l generalizing s with
  | nil => exact ⟨.refl s, fun e he => by cases he⟩
  | cons a l ih =>
    obtain ⟨hend, hgone⟩ := s.postOwed_ends a.1 a.2.1 a.2.2.1 a.2.2.2
    obtain ⟨hrest, hall⟩ := ih (s.postOwed a.1 a.2.1 a.2.2.1 a.2.2.2)
    refine ⟨hend.trans hrest, fun e he => ?_⟩
    rcases List.mem_cons.mp he with rfl | he
    · exact hrest.gone _ hgone
    · exact hall e he

section
variable {s : State} {page : Nat}

theorem blockResetDone_idle (h : s.flt.resets.has page = false) : blockResetDone page s = s := by
  simp only [blockResetDone, h, Bool.not_false, if_true]

theorem blockResetDone_ends (h : s.flt.resets.has page = true) : (blockResetDone page s).flt.resets = s.flt.resets.erase page ∧
    ∀ n ∈ s.worksIn page, (blockResetDone page s).cmd? n = none := by
  simp only [blockResetDone, h, Bool.not_true, Bool.false_eq_true, if_false]
  generalize hends : ((s.worksIn page).filterMap fun n => (s.cmd? n).map fun k => (n, k, s.owed n k)) = ends
  have hwork : s.EndStep ((ends.foldl (fun s e => s.endWork e.1) s).idleBlock page) :=
    (State.endStep_idleBlock _ _).after (State.EndStep.foldl (f := fun s (e : Nat × Cmd × Bool × Nat) => s.endWork e.1) (fun u e => u.endStep_endWork e.1) _ _)
  generalize (ends.foldl (fun s e => s.endWork e.1) s).idleBlock page = u at hwork
  obtain ⟨hpost, hall⟩ := State.foldl_postOwed ends { u with flt := { u.flt with resets := u.flt.resets.erase page } }
  refine ⟨hpost.resets.trans (congrArg (Table.erase · page) hwork.resets), fun n hn => ?_⟩
  cases hk : s.cmd? n with
  | none => exact hpost.gone n (hwork.gone n hk)
  | some k =>
    refine hall (n, k, s.owed n k) ?_
    rw [← hends, List.mem_filterMap]
    exact ⟨n, hn, by rw [hk]; rfl⟩

end

end Sys2Proof.Machine
end

section
/-!
Egress and the end of a block's reset, together (18 R587, R588, R590, R592, R594, R599, R601; 20 R640).
-/

namespace Sys2Proof.Machine

/-- Settles O59: the port's choice, its gates and buckets, and the commands that a block's reset ends, each by its own rule. -/
theorem egressAndBlockReset : Obligations.EgressAndBlockReset := by
  intro s t p hl hp
  have hlp : (s.live && decide (p < 4)) = true := by rw [hl, decide_eq_true hp]; rfl
  refine ⟨fun h => ?_, fun hup hshp hfab => ⟨fun x hx => ?_, fun x ht hs hx => ?_, fun x q ht hf hs hr => ?_⟩, fun h => ?_, fun x h he hla hg => ?_, ?_, ?_,
    fun d => ?_, fun page => ⟨fun h => ?_, fun h => ?_⟩⟩
  · have hoff : (s.live && (s.port p).up && s.accepts pgShp && s.accepts (pgFab p)) = false := by
      rcases h with h | h | h
      · rw [h, Bool.and_false, Bool.false_and, Bool.false_and]
      · rw [h, Bool.and_false, Bool.false_and]
      · rw [h, Bool.and_false]
    exact congrArg done (if_neg (by rw [hoff]; exact Bool.false_ne_true))
  · exact messageTransmit_sends hl hup hshp hfab (State.transmit_tape (s := s.at t) hx)
  · exact messageTransmit_sends hl hup hshp hfab (State.transmit_fault (s := s.at t) ht hs hx)
  · intro w hx
    exact messageTransmit_sends hl hup hshp hfab (State.transmit_service (s := s.at t) ht hs hf hr hx)
  · exact congrArg done ((State.onlyIf_of hlp _).trans (State.gatesMoved_idle (s := s.at t) h))
  · exact congrArg done ((State.onlyIf_of hlp _).trans (State.gatesMoved_late (s := s.at t) h he hla hg))
  · exact ⟨_, _, congrArg done (State.onlyIf_of hl _), rfl, State.bitOf_reg_sticky _ _ _ rfl, rfl, faultMsg_kind _ _ .shaperTable _ _ _, rfl, rfl, rfl⟩
  · exact congrArg done (State.onlyIf_of hlp _)
  · exact congrArg done (State.onlyIf_of hlp _)
  · exact congrArg done ((State.onlyIf_of hl _).trans (blockResetDone_idle (s := s.at t) h))
  · obtain ⟨hresets, hgone⟩ := blockResetDone_ends (s := s.at t) h
    exact ⟨_, congrArg done (State.onlyIf_of hl _), hresets, hgone⟩

end Sys2Proof.Machine
end

section
/-!
Fabric administration: routes, maps, floors, leases, shard and cue transfers, and the idle report of a replication (17 R552, R558, R570, R573 to R576).
-/

namespace Sys2Proof.Machine

section
variable {s : State} (cid : Nat) {k : Cmd}

/-! ### Routes, shard maps and replications (R558, R566, R570) -/

theorem routeSet_set (hn : fieldAt k.raw 8 2 < 1024) (hp : fieldAt k.raw 49 1 < 4) (ha : fieldAt k.raw 50 1 < 4 ∨ fieldAt k.raw 50 1 = 0xFF) :
    routeSet cid k s = (State.finish { s with fab := { s.fab with
      routes := s.fab.routes.set (fieldAt k.raw 8 2) (fieldAt k.raw 49 1, fieldAt k.raw 50 1, fieldAt k.raw 51 1) } } cid .ok) := by
  have halt : (decide (4 ≤ fieldAt k.raw 50 1) && fieldAt k.raw 50 1 != 0xFF) = false := by
    rcases ha with ha | ha
    · rw [decide_eq_false (Nat.not_le.mpr ha), Bool.false_and]
    · rw [ha]; rfl
  refine if_neg ?_
  rw [decide_eq_false (Nat.not_le.mpr hn), decide_eq_false (Nat.not_le.mpr hp), halt]
  exact Bool.false_ne_true

theorem routeSet_malformed (h : 1024 ≤ fieldAt k.raw 8 2 ∨ 4 ≤ fieldAt k.raw 49 1) : routeSet cid k s = s.finish cid .malformed := by
  refine if_pos ?_
  rcases h with h | h
  · rw [decide_eq_true h, Bool.true_or, Bool.true_or]
  · rw [decide_eq_true h, Bool.or_true, Bool.true_or]

theorem shardmapSet_malformed (h : fieldAt k.raw 52 2 = 0 ∨ 1024 < fieldAt k.raw 52 2) : shardmapSet cid k s = s.finish cid .malformed := by
  refine if_pos ?_
  rcases h with h | h
  · rw [decide_eq_true h, Bool.true_or]
  · rw [decide_eq_true h, Bool.or_true]

theorem shardmapSet_set (h1 : 1 ≤ fieldAt k.raw 52 2) (h2 : fieldAt k.raw 52 2 ≤ 1024) (hc : (s.openColl? (fieldAt k.raw 8 4)).isSome = true)
    {es : List (Nat × Nat × Bool)} (hes : es = (List.range (fieldAt k.raw 52 2)).map fun i =>
      let e := s.cmdRead k (cmdPtrA k.raw + 8 * i) 8
      (fieldAt e 0 2, fieldAt e 2 2, bitOf (fieldAt e 4 1) 0)) (hok : ∀ e ∈ es, e.1 < 1024 ∧ e.2.1 < 1024) : shardmapSet cid k s =
    State.finish { s with fab := { s.fab with shardMaps := s.fab.shardMaps.set (fieldAt k.raw 8 4) es } } cid .ok := by
  have hcount : (decide (fieldAt k.raw 52 2 = 0) || decide (1024 < fieldAt k.raw 52 2)) = false := by
    rw [decide_eq_false (by omega), decide_eq_false (by omega)]; rfl
  have hnone : (s.openColl? (fieldAt k.raw 8 4)).isNone = false := by rw [← Option.not_isSome, hc]; rfl
  have hany : (es.any fun e => decide (1024 ≤ e.1) || decide (1024 ≤ e.2.1)) = false := by
    rw [List.any_eq_false]
    intro e he
    obtain ⟨ha, hb⟩ := hok e he
    rw [decide_eq_false (Nat.not_le.mpr ha), decide_eq_false (Nat.not_le.mpr hb)]
    exact Bool.false_ne_true
  unfold shardmapSet
  simp only [hcount, hnone, Bool.false_eq_true, if_false, ← hes, hany]
  rfl

theorem replSet_off {c : Coll} (hc : s.openColl? (fieldAt k.raw 8 4) = some c) (hsrc : fieldAt k.raw 12 2 < 256) (hoff : bitOf (fieldAt k.raw 49 1) 0 = false) :
    replSet cid k s = State.finish { s with fab := { s.fab with repls := s.fab.repls.erase (fieldAt k.raw 8 4) } } cid .ok := by
  unfold replSet
  simp only [Nat.not_le.mpr hsrc, if_false, hc, hoff, Bool.not_false, if_true]
  rfl

theorem replSet_new {c : Coll} (hc : s.openColl? (fieldAt k.raw 8 4) = some c) (hsrc : fieldAt k.raw 12 2 < 256) (hon : bitOf (fieldAt k.raw 49 1) 0 = true)
    (hnew : s.fab.repls.find? (fieldAt k.raw 8 4) = none) : replSet cid k s = State.finish { s with
      fab := { s.fab with
        repls := s.fab.repls.set (fieldAt k.raw 8 4) { source := fieldAt k.raw 12 2, domain := c.owner, twinW := s.wlk.watermark, sentTo := s.wlk.watermark } } }
      cid .ok := by
  unfold replSet
  simp only [Nat.not_le.mpr hsrc, if_false, hc, hon, Bool.not_true, Bool.false_eq_true, hnew]
  rfl

/-! ### The feature floor (R552) -/

theorem featureFloor_keeps (h0 : cmdPos k.raw = 0) (hf : s.fab.floor = 0) : featureFloor cid k s = State.finish { s with fab := { s.fab with floor := 0 } } cid .ok := by
  have hports : (s.fab.ports.any fun f => f.up && (0 ||| (f.offer.getD {}).feature) != (f.offer.getD {}).feature) = false := by
    rw [List.any_eq_false]
    intro f _
    rw [Nat.zero_or, bne_self_eq_false, Bool.and_false]
    exact Bool.false_ne_true
  have hconns : (List.any s.fab.conns fun e => e.2.state == .open && (0 ||| e.2.offer.feature) != e.2.offer.feature) = false := by
    rw [List.any_eq_false]
    intro e _
    rw [Nat.zero_or, bne_self_eq_false, Bool.and_false]
    exact Bool.false_ne_true
  unfold featureFloor
  simp only [h0, hf, Nat.or_zero, bne_self_eq_false, Bool.false_eq_true, if_false, ownFeatures, hports, hconns, Bool.or_self]
  rfl

theorem featureFloor_version (h0 : cmdPos k.raw ≠ 0) (hf : cmdPos k.raw ||| s.fab.floor = cmdPos k.raw) : featureFloor cid k s = s.finish cid .version := by
  unfold featureFloor
  simp only [hf, bne_self_eq_false, Bool.false_eq_true, if_false, ownFeatures, Nat.or_zero, bne_iff_ne.mpr h0, Bool.true_or, if_true]

theorem featureFloor_malformed (hf : cmdPos k.raw ||| s.fab.floor ≠ cmdPos k.raw) : featureFloor cid k s = s.finish cid .malformed := by
  unfold featureFloor
  simp only [bne_iff_ne.mpr hf, if_true]

end

end Sys2Proof.Machine
end

section
/-!
Leases, and what a node sends its Twin and its shards' next owners (17 R570, R573 to R576).
-/

namespace Sys2Proof.Machine

/-! ### Messages to the Twin (R570, R571) -/

/-- The state in which a request is noted and its number used. -/
def State.noteReq (s : State) (r : Req) : State :=
  { s with fab := { s.fab with nextReq := (s.fab.nextReq + 1) % 2 ^ 32, reqs := s.fab.reqs.set s.fab.nextReq r } }

theorem State.noteReq_find (s : State) (r : Req) : (s.noteReq r).fab.reqs.find? s.fab.nextReq = some r := Table.find?_set_self _ _ _

/-- A MUTATION_REPLICATE notes what its reply will answer, and is sent. -/
theorem State.sendStep_sendRepl (s : State) (twin coll : Nat) (r : Repl) (op : Nat) (complete : Bool) (pos : Nat) (items : List (List Byte)) (probe : Bool) :
    (s.noteReq { node := twin, what := if probe then .probe coll else .replicate coll }).SendStep (s.sendRepl twin coll r op complete probe pos items) :=
  State.sendStep_sendMsg _ _

/-! ### Leases (R575, R576) -/

/-- A lease's epoch and expiry, and the host's side of the node. -/
def State.leaseView (s : State) : (Nat × Nat) × QmgBlock × Memory × Memory := ((s.fab.epoch, s.fab.expiry), s.qmg, s.host, s.win)

theorem State.sendProbes_leaseView (s : State) : s.sendProbes.leaseView = s.leaseView := by
  unfold State.sendProbes
  split
  · rfl
  split
  · rfl
  · refine foldl_keeps State.leaseView (fun u e => ?_) _ _
    split
    · have h := u.sendStep_sendRepl ‹Nat› e.1 e.2 0x08 false 0 [] true
      simp only [State.leaseView, h.epoch, h.expiry, h.hostSide]
      rfl
    · rfl

/-- A Grant sets the lease, and touches nothing of the host's side. -/
theorem State.grant_leaseView (s : State) (e dur : Nat) : (s.grant e dur).leaseView =
    ((max s.fab.epoch e, if e < s.fab.epoch then s.fab.expiry else if e = s.fab.epoch then max s.fab.expiry (s.tapeTime + dur) else s.tapeTime + dur),
      s.qmg, s.host, s.win) := by
  unfold State.grant
  dsimp only
  generalize hu : (if e < s.fab.epoch then s else _) = u
  have hview : u.leaseView = ((max s.fab.epoch e, if e < s.fab.epoch then s.fab.expiry else if e = s.fab.epoch then max s.fab.expiry (s.tapeTime + dur)
      else s.tapeTime + dur), s.qmg, s.host, s.win) := by
    rw [← hu]
    by_cases h1 : e < s.fab.epoch
    · rw [if_pos h1, if_pos h1, Nat.max_eq_left (Nat.le_of_lt h1)]
      rfl
    by_cases h2 : e = s.fab.epoch
    · rw [if_neg h1, if_neg h1, if_pos h2, if_pos h2, h2, Nat.max_self]
      rfl
    · rw [if_neg h1, if_neg h1, if_neg h2, if_neg h2, Nat.max_eq_right (by omega)]
      rfl
  split
  · exact hview
  · exact (State.sendProbes_leaseView _).trans hview

section
variable {s : State} (cid : Nat) {k : Cmd}

theorem leaseGrant_malformed (h : fieldAt k.raw 52 4 < 1000 ∨ 10000000 < fieldAt k.raw 52 4) : leaseGrant cid k s = s.finish cid .malformed := by
  refine if_pos ?_
  rcases h with h | h
  · rw [decide_eq_true h, Bool.true_or]
  · rw [decide_eq_true h, Bool.or_true]

theorem leaseGrant_grants (h1 : 1000 ≤ fieldAt k.raw 52 4) (h2 : fieldAt k.raw 52 4 ≤ 10000000) :
    leaseGrant cid k s = (s.grant (cmdPos k.raw) (fieldAt k.raw 52 4 * 1000)).finish cid .ok := by
  refine if_neg ?_
  rw [decide_eq_false (Nat.not_lt.mpr h1), decide_eq_false (Nat.not_lt.mpr h2)]
  exact Bool.false_ne_true

/-! ### Shard transfer (R573) -/

theorem shardSend_malformed (h : 1024 ≤ fieldAt k.raw 12 2) : shardSend cid k s = s.finish cid .malformed := if_pos h

theorem shardSend_notFound (h : fieldAt k.raw 12 2 < 1024) (hc : s.newestCkpt (fieldAt k.raw 8 4) = none) : shardSend cid k s = s.finish cid .notFound := by
  unfold shardSend
  simp only [Nat.not_le.mpr h, if_false, hc]
  cases s.openColl? (fieldAt k.raw 8 4)
  · rfl
  · rfl

/-- A transfer with a part left sends its next segment and notes the request. -/
theorem State.shipNext_sends {x : Ship} {p : ShipPart} {rest : List ShipPart} (hx : s.fab.ships.find? cid = some x) (hp : x.parts = p :: rest) :
    ∃ x' : Ship, x'.node = x.node ∧
      (State.noteReq { s with fab := { s.fab with ships := s.fab.ships.set cid x' } } { node := x.node, what := .ship cid }).SendStep (s.shipNext cid) := by
  unfold State.shipNext
  rw [hx]
  dsimp only
  rw [hp]
  dsimp only
  refine ⟨_, ?_, State.sendStep_sendMsg _ _⟩
  split
  · rfl
  · rfl

/-- SHARD_SEND of a collection with a checkpoint sends its first segment, and its command waits. -/
theorem shardSend_sends (h : fieldAt k.raw 12 2 < 1024) (hc : (s.openColl? (fieldAt k.raw 8 4)).isSome = true)
    (hck : (s.newestCkpt (fieldAt k.raw 8 4)).isSome = true) : ∃ u : State, u.SendStep (shardSend cid k s) ∧
      u.cmd? cid = some { k with phase := .waiting } ∧ (u.fab.ships.find? cid).map (fun x => x.node) = some (fieldAt k.raw 12 2) ∧
      u.fab.reqs.find? s.fab.nextReq = some { node := fieldAt k.raw 12 2, what := .ship cid } ∧ u.wlk = s.wlk ∧ u.bft = s.bft ∧ u.host = s.host ∧ u.win = s.win := by
  obtain ⟨c, hc⟩ := Option.isSome_iff_exists.mp hc
  obtain ⟨ck, hck⟩ := Option.isSome_iff_exists.mp hck
  have hparts (l : List ShipPart) (a : ShipPart) : ∃ p rest, l ++ [a] = p :: rest := List.exists_cons_of_ne_nil (List.append_ne_nil_of_right_ne_nil l (List.cons_ne_nil a []))
  unfold shardSend
  simp only [Nat.not_le.mpr h, if_false, hc, hck]
  generalize hu : State.setCmd _ cid _ = u
  obtain ⟨x, hx, hxn, p, rest, hp⟩ : ∃ x, u.fab.ships.find? cid = some x ∧ x.node = fieldAt k.raw 12 2 ∧ ∃ p rest, x.parts = p :: rest := by
    rw [← hu]
    exact ⟨_, Table.find?_set_self _ _ _, rfl, hparts _ _⟩
  obtain ⟨x', hnode, hsend⟩ := State.shipNext_sends cid hx hp
  rw [hxn] at hnode hsend
  refine ⟨_, hsend, ?_, ?_, ?_, ?_⟩
  · rw [← hu]
    exact State.cmd?_setCmd_self _ _ _
  · exact (congrArg (Option.map fun x : Ship => x.node) (Table.find?_set_self _ _ _)).trans (congrArg some hnode)
  · rw [← hu]
    exact State.noteReq_find _ _
  · rw [← hu]
    exact ⟨rfl, rfl, rfl, rfl⟩

/-! ### Cue transfer (R574) -/

theorem cueSend_malformed (h : fieldAt k.raw 49 1 = 0 ∨ 8 < fieldAt k.raw 49 1 ∨ 4096 < fieldAt k.raw 52 2 + fieldAt k.raw 49 1) :
    cueSend cid k s = s.finish cid .malformed := by
  refine if_pos ?_
  rcases h with h | h | h
  · rw [decide_eq_true h, Bool.true_or, Bool.true_or]
  · rw [decide_eq_true h, Bool.or_true, Bool.true_or]
  · rw [decide_eq_true h, Bool.or_true]

variable (h1 : 1 ≤ fieldAt k.raw 49 1) (h8 : fieldAt k.raw 49 1 ≤ 8) (hend : fieldAt k.raw 52 2 + fieldAt k.raw 49 1 ≤ 4096)
include h1 h8 hend

theorem cueSend_notFound (ht : s.twin? = none) : cueSend cid k s = s.finish cid .notFound := by
  unfold cueSend
  simp only [decide_eq_false (show ¬ fieldAt k.raw 49 1 = 0 by omega), decide_eq_false (Nat.not_lt.mpr h8), decide_eq_false (Nat.not_lt.mpr hend), Bool.or_self,
    Bool.false_eq_true, if_false, ht]

theorem cueSend_sends {twin : Nat} (ht : s.twin? = some twin) :
    ((s.noteReq { node := twin, what := .cues cid }).setCmd cid { k with phase := .waiting }).SendStep (cueSend cid k s) := by
  unfold cueSend
  simp only [decide_eq_false (show ¬ fieldAt k.raw 49 1 = 0 by omega), decide_eq_false (Nat.not_lt.mpr h8), decide_eq_false (Nat.not_lt.mpr hend), Bool.or_self,
    Bool.false_eq_true, if_false, ht]
  exact State.sendStep_sendMsg _ _

end

/-! ### The idle report of a replication (R570) -/

section
variable {s : State} {c : Nat} {r : Repl} (hr : s.fab.repls.find? c = some r)
include hr

theorem replIdleSend_rests (h : r.broken = true ∨ s.twin? = none ∨ s.leaseHeld = false ∨ s.now < r.idleAt + s.reg (pgFab 0) 0x07C * 1000) :
    replIdleSend c s = s := by
  unfold replIdleSend
  cases ht : s.twin? with
  | none => simp only [hr]
  | some twin =>
    have hrest : (r.broken || !s.leaseHeld || decide (s.now < r.idleAt + s.reg (pgFab 0) 0x07C * us)) = true := by
      rcases h with h | h | h | h
      · rw [h, Bool.true_or, Bool.true_or]
      · rw [ht] at h; cases h
      · rw [h, Bool.not_false, Bool.or_true, Bool.true_or]
      · rw [us, decide_eq_true h, Bool.or_true]
    simp only [hr, hrest, if_true]

theorem replIdleSend_reports {twin : Nat} (hb : r.broken = false) (ht : s.twin? = some twin) (hl : s.leaseHeld = true)
    (hi : r.idleAt + s.reg (pgFab 0) 0x07C * 1000 ≤ s.now) (hp : r.probing = false) (hh : r.held = []) (hw : r.sentTo < s.wlk.watermark) :
    ((s.setRepl c { r with idleAt := s.now, sentTo := s.wlk.watermark }).noteReq { node := twin, what := .replicate c }).SendStep (replIdleSend c s) := by
  have hdue : decide (s.now < r.idleAt + s.reg (pgFab 0) 0x07C * us) = false := decide_eq_false (Nat.not_lt.mpr hi)
  unfold replIdleSend
  simp only [hr, ht, hb, hl, hdue, Bool.not_true, Bool.or_self, Bool.false_eq_true, if_false, hp, hh, List.any_nil,
    Nat.not_le.mpr hw]
  exact State.sendStep_sendRepl _ _ _ _ _ _ _ _ false

end

/-- Settles O58: each command and the idle report, by its own rule. -/
theorem fabricAdministration : Obligations.FabricAdministration := by
  intro s t cid k
  dsimp only
  refine ⟨fun h => ⟨fun hn hp ha => ?_, fun hbad => ?_⟩, fun h => ⟨fun hc => ?_, fun h1 h2 hc hes => ?_⟩, fun c h hc hsrc => ⟨fun hoff => ?_, fun hon hnew => ?_⟩,
    fun h => ⟨fun hbad => ?_, fun h1 h2 => ?_⟩, fun h => ⟨fun h0 hf => ?_, fun h0 hf => ?_, fun hf => ?_⟩,
    fun h => ⟨fun hn => ?_, fun hn hck => ?_, fun hn hc hck => ?_⟩, fun h => ⟨fun hbad => ?_, fun h1 h8 hend ht => ?_, fun twin h1 h8 hend ht => ?_⟩,
    fun c r hl hr => ⟨fun h => ?_, fun twin hb ht hle hi hp hh hw => ?_⟩⟩
  · exact (h.step t _).trans (congrArg done (routeSet_set (s := s.at t) cid hn hp ha))
  · exact (h.step t _).trans (congrArg done (routeSet_malformed (s := s.at t) cid hbad))
  · exact (h.step t _).trans (congrArg done (shardmapSet_malformed (s := s.at t) cid hc))
  · exact (h.step t _).trans (congrArg done (shardmapSet_set (s := s.at t) cid h1 h2 hc rfl hes))
  · exact (h.step t _).trans (congrArg done (replSet_off (s := s.at t) cid hc hsrc hoff))
  · exact (h.step t _).trans (congrArg done (replSet_new (s := s.at t) cid hc hsrc hon hnew))
  · exact (h.step t _).trans (congrArg done (leaseGrant_malformed (s := s.at t) cid hbad))
  · have hview := (s.at t).grant_leaseView (cmdPos k.raw) (fieldAt k.raw 52 4 * 1000)
    obtain ⟨hlease, hhost⟩ := Prod.ext_iff.mp hview
    obtain ⟨hepoch, hexpiry⟩ := Prod.ext_iff.mp hlease
    obtain ⟨hqmg, hmem⟩ := Prod.ext_iff.mp hhost
    obtain ⟨hmem, hwin⟩ := Prod.ext_iff.mp hmem
    refine ⟨_, (h.step t _).trans (congrArg done (leaseGrant_grants (s := s.at t) cid h1 h2)), hepoch, fun hnew => hexpiry.trans ?_, hqmg, hmem, hwin⟩
    exact (if_neg (Nat.not_lt.mpr (Nat.le_of_lt hnew))).trans (if_neg (Nat.ne_of_gt hnew))
  · exact (h.step t _).trans (congrArg done (featureFloor_keeps (s := s.at t) cid h0 hf))
  · exact (h.step t _).trans (congrArg done (featureFloor_version (s := s.at t) cid h0 hf))
  · exact (h.step t _).trans (congrArg done (featureFloor_malformed (s := s.at t) cid hf))
  · exact (h.step t _).trans (congrArg done (shardSend_malformed (s := s.at t) cid hn))
  · exact (h.step t _).trans (congrArg done (shardSend_notFound (s := s.at t) cid hn hck))
  · obtain ⟨u, hsend, hcmd, hships, hreqs, hwlk, hbft, hhost, hwin⟩ := shardSend_sends (s := s.at t) cid hn hc hck
    refine ⟨_, h.step t _, ?_, ?_, ?_, hsend.wlk.trans hwlk, hsend.bft.trans hbft, hsend.host.trans hhost, hsend.win.trans hwin⟩
    · exact (congrArg (fun q : QmgBlock => q.cmds.find? cid) hsend.qmg).trans hcmd
    · rw [hsend.ships]
      exact hships
    · rw [hsend.reqs]
      exact hreqs
  · exact (h.step t _).trans (congrArg done (cueSend_malformed (s := s.at t) cid hbad))
  · exact (h.step t _).trans (congrArg done (cueSend_notFound (s := s.at t) cid h1 h8 hend ht))
  · have hsend := cueSend_sends (s := s.at t) cid h1 h8 hend ht
    refine ⟨_, h.step t _, ?_, ?_, hsend.cue, hsend.host, hsend.win⟩
    · exact (congrArg (fun q : QmgBlock => q.cmds.find? cid) hsend.qmg).trans (State.cmd?_setCmd_self _ _ _)
    · rw [hsend.reqs]
      exact (s.at t).noteReq_find _
  · exact congrArg done ((State.onlyIf_of hl _).trans (replIdleSend_rests (s := s.at t) hr h))
  · have hsend := replIdleSend_reports (s := s.at t) hr hb ht hle hi hp hh hw
    refine ⟨_, congrArg done (State.onlyIf_of hl _), ?_, ?_, hsend.hostSide⟩
    · rw [hsend.repls]
      exact Table.find?_set_self _ _ _
    · rw [hsend.reqs]
      exact State.noteReq_find _ _

end Sys2Proof.Machine
end

section
/-!
Numbered messages, and the requests and replies that they carry (17 R559, R562, R564, R567 to R569; 18 R603).
-/

namespace Sys2Proof.Machine

/-! ### A numbered message arrives (R559, R562) -/

section
variable {s : State} {f : FabMsg} {ty : Nat}

/-- A message that is not its connection's next does nothing, whatever type is waited for. -/
theorem State.onMessage_stale (h : s.Arrives f ty) (hn : (s.conn (wire f).src).state ≠ .open ∨ (wire f).seq ≠ (s.conn (wire f).src).seqRx) (type : Nat)
    (g : Nat → Msg → State → State) : s.onMessage f type g = s := by
  have hrefused : s.accepted (wire f) = none := by
    unfold State.accepted
    refine if_neg ?_
    rw [Bool.and_eq_true, decide_eq_true_eq, decide_eq_true_eq]
    rintro ⟨ho, hs⟩
    exact hn.elim (fun h => h ho) (fun h => h hs)
  unfold State.onMessage
  simp only [h.up, h.whole, h.dest, h.type, h.major, bne_self_eq_false, Bool.not_true, Bool.or_self, Bool.false_or, Bool.false_eq_true, if_false, hrefused]
  split
  · rfl
  · rfl

/-- The next message of a connection is acknowledged and taken. -/
theorem State.onMessage_next (h : s.NextArrives f ty) (t : Nat) (g : Nat → Msg → State → State) :
    (s.at t).onMessage f ty g = g f.port (wire f) (s.acked t (wire f)) := by
  have harr := h.arrives
  have hacc : (s.at t).accepted (wire f) = some (s.acked t (wire f)) := by
    unfold State.accepted
    refine if_pos ?_
    rw [Bool.and_eq_true, decide_eq_true_eq, decide_eq_true_eq]
    exact ⟨h.isOpen, h.next⟩
  have hup : ((s.at t).port f.port).up = true := harr.up
  have hdest : (wire f).dest = (s.at t).nodeId := harr.dest
  unfold State.onMessage
  simp only [hup, harr.whole, hdest, harr.type, harr.major, bne_self_eq_false, Bool.not_true, Bool.or_self, Bool.false_eq_true, if_false, hacc]

end

/-! ### What an acknowledgement leaves alone (R559, R560) -/

theorem State.flushSegsGo_regs (s : State) (p : Nat) (l : List Msg) : (s.flushSegsGo p l).regs = s.regs := by
  induction l generalizing s with
  | nil => rfl
  | cons m l ih =>
    unfold State.flushSegsGo
    split
    · exact ih _
    · rfl

theorem State.sendSegment_regs (s : State) (m : Msg) : (s.sendSegment m).regs = s.regs := by
  unfold State.sendSegment
  split
  · rfl
  · exact State.flushSegsGo_regs _ _ _

theorem State.sendStep_acked (s : State) (t : Nat) (m : Msg) : (s.at t).SendStep (s.acked t m) :=
  (State.sendStep_sendSegment _ _).after ((s.at t).sendStep_setConn _ _)

theorem State.acked_reg (s : State) (t : Nat) (m : Msg) (page off : Nat) : (s.acked t m).reg page off = s.reg page off := by
  rw [State.reg, State.reg, State.regAt, State.regAt, State.acked, State.sendSegment_regs]
  rfl

/-! ### Requests (R567 to R569; 18 R603) -/

/-- With policing off every request goes on in its own class. -/
theorem State.policed_off {s : State} (h : bitOf (s.reg pgShp 0x040) 3 = false) (m : Msg) (g : Nat → State → State) : s.policed m g = g m.cls s := by
  unfold State.policed State.police
  simp only [h, Bool.not_false, Bool.true_or, if_true]

/-- A command that is let in or turned away takes no number. -/
theorem State.letIn_nextCid (s : State) (cid : Nat) (k : Cmd) : (s.letIn cid k).qmg.nextCid = s.qmg.nextCid := by
  have hpost (u : State) (c : Comp) (rest : List Byte) : (u.post cid c rest).qmg.nextCid = u.qmg.nextCid := by rw [(u.postStep_post cid c rest).rest]
  have hmut (u : State) (src : Nat) (st : Status) (n : Nat) : (u.finishMut cid src st n).qmg.nextCid = u.qmg.nextCid := by
    rw [State.finishMut_eq]
    exact hpost _ _ _
  unfold State.letIn
  split
  · next st r _ =>
    dsimp only
    generalize hu : (if r = 0 then _ else State.noteDenied _ _ _ r) = u
    have hcid : u.qmg.nextCid = s.qmg.nextCid := by
      rw [← hu]
      split
      · rfl
      · rfl
    split
    · exact (hmut _ _ _ _).trans hcid
    · exact (hpost _ _ _).trans hcid
  · dsimp only
    split
    · exact hpost _ _ _
    · rfl

theorem State.carried_nextCid (s : State) (k : Cmd) : (s.carried k).1.qmg.nextCid = s.qmg.nextCid + 1 := State.letIn_nextCid _ _ _

/-- A request for a search enters the node as a command, whose search is then admitted or refused. -/
theorem queryScatterSearch_enters {s : State} {p : Nat} {m : Msg} (ho : fieldAt m.payload 0 1 = 0) (hpol : bitOf (s.reg pgShp 0x040) 3 = false) {k : Cmd}
    (hk : k = { origin := .scatterSearch p m.src m.requestId (fieldAt m.payload 2 2) m.cls, domain := m.domain
                raw := natLE 1 1 ++ natLE 1 0 ++ natLE 1 (16 + m.cls) ++ natLE 1 0 ++ natLE 4 m.requestId ++ natLE 4 (fieldAt m.payload 4 4) ++ zeroBytes 4 ++
                  natLE 8 (fieldAt m.payload 8 8) ++ zeroBytes 40
                data := m.payload, winBase := s.view.base, winSize := s.view.size }) : queryScatterSearch p m s =
      if ((s.carried k).1.cmd? s.qmg.nextCid).isSome then
        (s.carried k).1.shardSearch s.qmg.nextCid m.payload (fieldAt m.payload 4 4) (fieldAt m.payload 2 2) (fieldAt m.payload 8 8)
      else (s.carried k).1 := by
  unfold queryScatterSearch
  simp only [ho, bne_self_eq_false, Bool.false_eq_true, if_false, State.policed_off hpol, ← hk]
  rfl

section
variable {s : State} {cid coll shard asOf : Nat} {pl : List Byte} {c : Coll} (hc : s.coll? coll = some c)
include hc

theorem State.shardSearch_admits (hours : s.notOurs coll shard = false) (hdim : fieldAt pl 16 4 = 64 + 2 * c.navDim) :
    s.shardSearch cid pl coll shard asOf =
      s.admitSearch cid coll asOf (bytesAt pl 32 64) (bytesAt pl (32 + roundUp (fieldAt pl 16 4) 16) (fieldAt pl 20 4))
        (s.descOf c (bytesAt pl 32 64) (bytesAt pl 96 (fieldAt pl 16 4 - 64))
          (bytesAt pl (32 + roundUp (fieldAt pl 16 4) 16 + roundUp (fieldAt pl 20 4) 16) (fieldAt pl 24 4))
          (bytesAt pl (32 + roundUp (fieldAt pl 16 4) 16) (fieldAt pl 20 4))) false none := by
  unfold State.shardSearch
  simp only [hc, hours, Bool.false_eq_true, if_false, bne_eq_false_iff_eq.mpr hdim]

theorem State.shardSearch_busy (hours : s.notOurs coll shard = true) : s.shardSearch cid pl coll shard asOf = s.refuseSearch cid .busy none := by
  unfold State.shardSearch
  simp only [hc, hours, if_true]

end

end Sys2Proof.Machine
end

section
/-!
Commands that messages carry, replies, and the steps of both together (17 R564, R569).
-/

namespace Sys2Proof.Machine

/-- The command that a QUERY_SCATTER carries. -/
def State.scatteredCmd (s : State) (p : Nat) (m : Msg) : Cmd :=
  { origin := .scatterCommand p m.src m.requestId m.cls, domain := m.domain, raw := bytesAt (m.payload ++ zeroBytes 128) 64 64, data := m.payload,
    winBase := s.view.base, winSize := s.view.size }

section
variable {s : State} {p : Nat} {m : Msg} (ho : fieldAt m.payload 0 1 = 1)
include ho

theorem queryScatterCommand_off (hc : s.fabCtrl p 2 = false) : queryScatterCommand p m s = s.bump (pgFab p) 0x0A4 := by
  unfold queryScatterCommand
  simp only [ho, bne_self_eq_false, Bool.false_eq_true, if_false, hc, Bool.not_false, if_true]

variable (hc : s.fabCtrl p 2 = true) (hpol : bitOf (s.reg pgShp 0x040) 3 = false)
include hc hpol

theorem queryScatterCommand_malformed (hf : cmdFormat (s.scatteredCmd p m).raw = 1) (hn : s.notCarried (s.scatteredCmd p m) = true) :
    queryScatterCommand p m s =
      (({ s with qmg := { s.qmg with nextCid := s.qmg.nextCid + 1 } }).setCmd s.qmg.nextCid (s.scatteredCmd p m)).finish s.qmg.nextCid .malformed := by
  unfold queryScatterCommand
  simp only [ho, bne_self_eq_false, Bool.false_eq_true, if_false, hc, Bool.not_true, State.policed_off hpol]
  refine if_pos ?_
  rw [Bool.and_eq_true, decide_eq_true_eq]
  exact ⟨hf, hn⟩

theorem queryScatterCommand_enters (hn : s.notCarried (s.scatteredCmd p m) = false) : queryScatterCommand p m s = (s.carried (s.scatteredCmd p m)).1 := by
  unfold queryScatterCommand
  simp only [ho, bne_self_eq_false, Bool.false_eq_true, if_false, hc, Bool.not_true, State.policed_off hpol]
  refine if_neg ?_
  rw [Bool.and_eq_true, not_and]
  exact fun _ h => Bool.false_ne_true (hn.symm.trans h)

end

/-! ### Replies (R564) -/

section
variable {s : State} {m : Msg}

theorem resultGather_unasked (h : s.fab.reqs.find? m.requestId = none) : resultGather m s = s := by
  unfold resultGather
  simp only [h]

variable {r : Req} (h : s.fab.reqs.find? m.requestId = some r) (hnode : r.node = m.src) (he : m.epoch ≤ s.fab.epoch)
include h hnode he

theorem resultGather_cues {c : Nat} (hw : r.what = .cues c) : resultGather m s =
    ({ s with fab := { s.fab with reqs := s.fab.reqs.erase m.requestId } }).finish c (statusOf (fieldAt m.payload 4 2)) := by
  unfold resultGather
  simp only [h, hnode, bne_self_eq_false, Bool.false_eq_true, if_false, decide_eq_false (Nat.not_lt.mpr he), Bool.and_false, hw]
  rfl

theorem resultGather_shard {n i : Nat} (hw : r.what = .shard n i) : resultGather m s =
    ({ s with fab := { s.fab with reqs := s.fab.reqs.erase m.requestId } }).shardReply n i m.payload := by
  unfold resultGather
  simp only [h, hnode, bne_self_eq_false, Bool.false_eq_true, if_false, decide_eq_false (Nat.not_lt.mpr he), Bool.and_false, hw]
  rfl

end

/-- A step that is taken only where its condition holds, and does nothing there, changes only the time. -/
theorem State.onlyIf_same {s : State} {c : Bool} {f : State → State} (h : f s = s) : s.onlyIf c f = s := by
  cases c
  · rfl
  · exact h

/-- Settles O56: a message that is not the next, and each request and reply that is, by its own rule. -/
theorem requestsAndReplies : Obligations.RequestsAndReplies := by
  intro s t f
  dsimp only
  refine ⟨fun ty h hn i hi => ?_, fun h ho hpol => ?_, fun h ho => ⟨fun hc => ?_, fun hc hpol => ⟨fun hf hcar => ?_, fun hcar => ?_⟩⟩,
    fun h => ⟨fun hr => ?_, fun r c hr hnode he hw => ?_, fun r n i hr hnode he hw => ?_⟩⟩
  · have hmsg (type : Nat) (g : Nat → Msg → State → State) : (s.at t).onMessage f type g = s.at t := State.onMessage_stale (s := s.at t) ⟨h.live, h.up, h.whole, h.dest, h.type, h.major⟩ hn type g
    simp only [List.mem_cons, List.not_mem_nil, or_false] at hi
    rcases hi with rfl | rfl | rfl | rfl | rfl | rfl | rfl | rfl | rfl | rfl
    all_goals exact congrArg done (State.onlyIf_same (hmsg _ _))
  · have hstep : exec (.queryScatterSearch t f) s = done (queryScatterSearch f.port (wire f) (s.acked t (wire f))) :=
      congrArg done ((State.onlyIf_of (by rw [h.arrives.live]; exact beq_iff_eq.mpr ho) _).trans (State.onMessage_next h t _))
    have hcid := (s.sendStep_acked t (wire f)).qmg
    have henter := queryScatterSearch_enters (s := s.acked t (wire f)) (p := f.port) (m := wire f) ho (by rw [State.acked_reg]; exact hpol) rfl
    rw [hcid] at henter
    refine ⟨(State.carried_nextCid _ _).trans (congrArg (fun q : QmgBlock => q.nextCid + 1) hcid), fun hnone => ?_, fun c hsome hc hours hdim => ?_,
      fun c hsome hc hours => ?_⟩
    · exact hstep.trans (congrArg done (henter.trans (if_neg (by rw [Option.isSome_iff_ne_none]; exact fun h => h hnone))))
    · exact hstep.trans (congrArg done (henter.trans ((if_pos hsome).trans (State.shardSearch_admits hc hours hdim))))
    · exact hstep.trans (congrArg done (henter.trans ((if_pos hsome).trans (State.shardSearch_busy hc hours))))
  · refine congrArg done ((State.onlyIf_of (by rw [h.arrives.live]; exact beq_iff_eq.mpr ho) _).trans ((State.onMessage_next h t _).trans ?_))
    exact queryScatterCommand_off ho (by rw [State.fabCtrl, State.acked_reg]; exact hc)
  · refine congrArg done ((State.onlyIf_of (by rw [h.arrives.live]; exact beq_iff_eq.mpr ho) _).trans ((State.onMessage_next h t _).trans ?_))
    have hmal := queryScatterCommand_malformed (s := s.acked t (wire f)) (p := f.port) (m := wire f) ho (by rw [State.fabCtrl, State.acked_reg]; exact hc) (by rw [State.acked_reg]; exact hpol) hf hcar
    rw [(s.sendStep_acked t (wire f)).qmg] at hmal
    rw [(s.sendStep_acked t (wire f)).qmg]
    exact hmal
  · refine congrArg done ((State.onlyIf_of (by rw [h.arrives.live]; exact beq_iff_eq.mpr ho) _).trans ((State.onMessage_next h t _).trans ?_))
    exact queryScatterCommand_enters ho (by rw [State.fabCtrl, State.acked_reg]; exact hc) (by rw [State.acked_reg]; exact hpol) hcar
  · refine congrArg done ((State.onlyIf_of h.arrives.live _).trans ((State.onMessage_next h t _).trans (resultGather_unasked ?_)))
    rw [(s.sendStep_acked t (wire f)).reqs]
    exact hr
  · refine congrArg done ((State.onlyIf_of h.arrives.live _).trans ((State.onMessage_next h t _).trans (resultGather_cues ?_ hnode ?_ hw)))
    · rw [(s.sendStep_acked t (wire f)).reqs]
      exact hr
    · rw [(s.sendStep_acked t (wire f)).epoch]
      exact he
  · refine congrArg done ((State.onlyIf_of h.arrives.live _).trans ((State.onMessage_next h t _).trans (resultGather_shard ?_ hnode ?_ hw)))
    · rw [(s.sendStep_acked t (wire f)).reqs]
      exact hr
    · rw [(s.sendStep_acked t (wire f)).epoch]
      exact he

end Sys2Proof.Machine
end

section
/-!
What a port keeps while its flits and segments go out (17 R553 to R557).
-/

namespace Sys2Proof.Machine

/-- `u` has the ports of `s` but for what port `p` has to send, to replay and to give back. -/
structure State.PortKeeps (s : State) (p : Nat) (u : State) : Prop where
  length : u.fab.ports.length = s.fab.ports.length
  others : ∀ j, j ≠ p → u.port j = s.port j
  own    : u.port p = { s.port p with
    txSeq := (u.port p).txSeq, replay := (u.port p).replay, replays := (u.port p).replays, credits := (u.port p).credits, segs := (u.port p).segs
    stallFrom := (u.port p).stallFrom, owed := (u.port p).owed }

namespace State.PortKeeps

variable {s u v : State} {p : Nat}

theorem refl (s : State) (p : Nat) : s.PortKeeps p s := ⟨rfl, fun _ _ => rfl, rfl⟩

theorem trans (h : s.PortKeeps p u) (h' : u.PortKeeps p v) : s.PortKeeps p v :=
  ⟨h'.length.trans h.length, fun j hj => (h'.others j hj).trans (h.others j hj), by rw [h'.own, h.own]⟩

theorem of_ports (h : u.fab.ports = s.fab.ports) : s.PortKeeps p u := by
  have hport : ∀ j, u.port j = s.port j := fun j => by rw [State.port, State.port, h]
  refine ⟨by rw [h], fun j _ => hport j, ?_⟩
  rw [hport p]

/-- A new state of the port that differs in what it has to send, to replay and to give back. -/
theorem of_set (hp : p < s.fab.ports.length) {f : FabPort} (hu : u.fab.ports = s.fab.ports.set p f) (h : f = { s.port p with
    txSeq := f.txSeq, replay := f.replay, replays := f.replays, credits := f.credits, segs := f.segs, stallFrom := f.stallFrom, owed := f.owed }) :
    s.PortKeeps p u := by
  have hport (j : Nat) : u.port j = (s.setPort p f).port j := by rw [State.port, hu]; rfl
  refine ⟨by rw [hu, List.length_set], fun j hj => (hport j).trans (s.port_setPort_ne f hj), ?_⟩
  rw [hport p, State.port_setPort_self hp]
  exact h

end State.PortKeeps

section
variable {s : State} {p : Nat} (hp : p < s.fab.ports.length)
include hp

theorem State.portKeeps_sendData (m : Msg) : s.PortKeeps p (s.sendData p m) := .of_set hp rfl rfl

theorem State.portKeeps_flushSegsGo (l : List Msg) : s.PortKeeps p (s.flushSegsGo p l) := by
  induction l generalizing s with
  | nil => exact .of_set hp rfl rfl
  | cons m l ih =>
    unfold State.flushSegsGo
    split
    · have hsent := State.portKeeps_sendData hp m
      exact hsent.trans (ih (by rw [hsent.length]; exact hp))
    · exact .of_set hp rfl rfl

theorem State.portKeeps_flushSegs : s.PortKeeps p (s.flushSegs p) := State.portKeeps_flushSegsGo hp _

theorem State.portKeeps_noteStall : s.PortKeeps p (s.noteStall p) := by
  unfold State.noteStall
  dsimp only
  split
  · split
    · exact .of_set hp rfl rfl
    · exact .refl s p
  · split
    · exact .refl s p
    · exact .of_set hp rfl rfl

theorem State.portKeeps_credited : s.PortKeeps p (s.credited p) := by
  have hflush := State.portKeeps_flushSegs hp
  exact hflush.trans (State.portKeeps_noteStall (by rw [hflush.length]; exact hp))

theorem State.portKeeps_returnOwed : s.PortKeeps p (s.returnOwed p) := by
  unfold State.returnOwed
  dsimp only
  split
  · exact .refl s p
  · exact .of_set hp rfl rfl

/-- An acknowledgement and credit leave a port's receiving side alone. -/
theorem State.portKeeps_takeAck (flit : List Byte) : s.PortKeeps p (s.setPort p ((s.port p).takeAck flit)) := by
  refine .of_set hp rfl ?_
  unfold FabPort.takeAck
  dsimp only
  cases (s.port p).replay.findIdx? fun e => e.1 == fieldAt flit 4 2
  all_goals
    dsimp only
    split
    · rfl
    · rfl

end

end Sys2Proof.Machine
end

section
/-!
Flits, NAKs and forwarded messages (17 R553 to R558; 18 R596).
-/

namespace Sys2Proof.Machine

/-! ### What a port does with a flit's AckSeq and credit (R554 to R557) -/

/-- The state in which a port has taken a flit's AckSeq and credit. -/
def State.ackTaken (s : State) (p : Nat) (flit : List Byte) : State := ((s.setPort p ((s.port p).takeAck flit)).credited p).returnOwed p

theorem State.ackTaken_eq (s : State) (p : Nat) (flit : List Byte) :
    ((s.setPort p ((s.port p).takeAck flit)).credited p).returnOwed p = s.ackTaken p flit := rfl

theorem State.flushSegsGo_dataCount (s : State) (p : Nat) (l : List Msg) : (s.flushSegsGo p l).count (pgFab p) 0x0B8 = s.count (pgFab p) 0x0B8 := by
  induction l generalizing s with
  | nil => rfl
  | cons m l ih =>
    unfold State.flushSegsGo
    split
    · exact (ih _).trans (State.count_bump64_ne _ _ (by omega))
    · rfl

theorem State.noteStall_dataCount (s : State) (p : Nat) : (s.noteStall p).count (pgFab p) 0x0B8 = s.count (pgFab p) 0x0B8 := by
  unfold State.noteStall
  dsimp only
  split
  · split
    · rfl
    · rfl
  · split
    · rfl
    · exact State.count_bump_ne _ _ (by omega)

section
variable (s : State) (p : Nat) (flit : List Byte)

theorem State.ackTaken_dataCount : (s.ackTaken p flit).count (pgFab p) 0x0B8 = s.count (pgFab p) 0x0B8 := by
  have hcredited : (State.credited (s.setPort p ((s.port p).takeAck flit)) p).count (pgFab p) 0x0B8 = s.count (pgFab p) 0x0B8 :=
    (State.noteStall_dataCount _ _).trans (State.flushSegsGo_dataCount _ _ _)
  unfold State.ackTaken State.returnOwed
  dsimp only
  split
  · exact hcredited
  · exact hcredited

theorem State.sendStep_ackTaken : s.SendStep (s.ackTaken p flit) := by
  have hcredited : s.SendStep (State.credited (s.setPort p ((s.port p).takeAck flit)) p) :=
    (State.sendStep_noteStall _ _).after ((State.sendStep_flushSegs _ _).after (s.sendStep_setPort _ _))
  unfold State.ackTaken State.returnOwed
  dsimp only
  split
  · exact hcredited
  · exact (State.sendStep_emit _ _).after ((State.sendStep_setPort _ _ _).after hcredited)

theorem State.portKeeps_ackTaken (hp : p < s.fab.ports.length) : s.PortKeeps p (s.ackTaken p flit) := by
  have hack := State.portKeeps_takeAck hp flit
  have hcredited := hack.trans (State.portKeeps_credited (by rw [hack.length]; exact hp))
  exact hcredited.trans (State.portKeeps_returnOwed (by rw [hcredited.length]; exact hp))

end

/-! ### Data flits and Idle flits (R553 to R555) -/

/-- The node asks for the Data flit it expects (R555). -/
theorem State.sendNak_port {s : State} {p : Nat} (hp : p < s.fab.ports.length) : (s.sendNak p).port p = { s.port p with nakSent := true } :=
  State.port_setPort_self hp _

theorem State.sendStep_sendNak (s : State) (p : Nat) : s.SendStep (s.sendNak p) := (State.sendStep_emit _ _).after (s.sendStep_setPort _ _)

section
variable {s : State} {p : Nat} {flit : List Byte}

theorem dataFlit_damaged (h : flitOk flit = false) : dataFlit p flit false s = (s.bump (pgFab p) 0x094).sendNak p := by
  unfold dataFlit
  simp only [h, Bool.not_false, Bool.false_eq_true, if_false, if_true]

theorem idleFlit_damaged (h : flitOk flit = false) : idleFlit p flit s = s.bump (pgFab p) 0x094 := by
  unfold idleFlit
  simp only [h, Bool.not_false, if_true]

theorem idleFlit_taken (h : flitOk flit = true) (hk : fieldAt flit 0 1 = 0) : idleFlit p flit s = s.ackTaken p flit := by
  unfold idleFlit
  simp only [h, Bool.not_true, Bool.false_eq_true, if_false, hk, bne_self_eq_false]
  rfl

variable (h : flitOk flit = true) (hk : fieldAt flit 0 1 = 1) (hp : p < s.fab.ports.length)
include h hk hp

/-- The expected Data flit moves the sequence on and joins its message. -/
theorem dataFlit_expected (hseq : fieldAt flit 2 2 = (s.port p).rxSeq) (hend : bitOf (fieldAt flit 1 1) 4 = false) :
    ((dataFlit p flit false s).port p).rxSeq = ((s.port p).rxSeq + 1) % 65536 ∧
      ((dataFlit p flit false s).port p).rx.find? (fieldAt flit 1 1 % 8) =
        some ((if bitOf (fieldAt flit 1 1) 3 then [] else (s.port p).rx.getD (fieldAt flit 1 1 % 8) []) ++ bytesAt flit 8 240) ∧
      (dataFlit p flit false s).count (pgFab p) 0x0B8 = (s.count (pgFab p) 0x0B8 + 1) % 2 ^ 64 ∧ s.SendStep (dataFlit p flit false s) := by
  have hkeeps := s.portKeeps_ackTaken p flit hp
  have hsend := s.sendStep_ackTaken p flit
  have hcount := s.ackTaken_dataCount p flit
  have hrx : ((s.ackTaken p flit).port p).rx = (s.port p).rx := by rw [hkeeps.own]
  have hrxSeq : ((s.ackTaken p flit).port p).rxSeq = (s.port p).rxSeq := by rw [hkeeps.own]
  have hlt : p < (s.ackTaken p flit).fab.ports.length := by rw [hkeeps.length]; exact hp
  have hflit : dataFlit p flit false s = State.when (((s.ackTaken p flit).setPort p { (s.ackTaken p flit).port p with
      rxSeq := ((s.port p).rxSeq + 1) % 65536, nakSent := false
      rx := (s.port p).rx.set (fieldAt flit 1 1 % 8)
        ((if bitOf (fieldAt flit 1 1) 3 then [] else (s.port p).rx.getD (fieldAt flit 1 1 % 8) []) ++ bytesAt flit 8 240) }).bump64 (pgFab p) 0x0B8)
      (decide (fieldAt flit 1 1 % 8 = 3) || decide (fieldAt flit 1 1 % 8 = 7)) (·.emit (.credit p (fieldAt flit 1 1 % 8) 1)) := by
    unfold dataFlit
    simp only [State.ackTaken_eq, h, Bool.not_true, Bool.false_eq_true, if_false, hk, bne_self_eq_false, hseq, hrxSeq, hrx, hend]
    rfl
  generalize s.ackTaken p flit = w at hkeeps hsend hcount hlt hflit
  rw [hflit]
  have hport (c : Bool) (u : State) (o : Out) : (u.when c (·.emit o)).port p = u.port p := State.when_keeps (fun x : State => x.port p) c rfl
  rw [hport]
  refine ⟨?_, ?_, ?_, ?_⟩
  · exact congrArg FabPort.rxSeq (State.port_setPort_self hlt _)
  · exact (congrArg (fun f : FabPort => f.rx.find? (fieldAt flit 1 1 % 8)) (State.port_setPort_self hlt _)).trans (Table.find?_set_self _ _ _)
  · refine (State.when_keeps (fun u : State => u.count (pgFab p) 0x0B8) _ rfl).trans ((State.count_bump64_self _ _ _ _).trans ?_)
    exact congrArg (fun n => (n + 1) % 2 ^ 64) hcount
  · have hmoved (v : FabPort) : s.SendStep ((w.setPort p v).bump64 (pgFab p) 0x0B8) := (State.SendStep.of_eq rfl).after hsend
    cases decide (fieldAt flit 1 1 % 8 = 3) || decide (fieldAt flit 1 1 % 8 = 7)
    · exact hmoved _
    · exact (State.sendStep_emit _ _).after (hmoved _)

/-- A Data flit out of sequence moves nothing. -/
theorem dataFlit_unexpected (hseq : fieldAt flit 2 2 ≠ (s.port p).rxSeq) : ((dataFlit p flit false s).port p).rxSeq = (s.port p).rxSeq ∧
    ((dataFlit p flit false s).port p).rx = (s.port p).rx ∧ s.SendStep (dataFlit p flit false s) := by
  have hkeeps := s.portKeeps_ackTaken p flit hp
  have hsend := s.sendStep_ackTaken p flit
  have hrx : ((s.ackTaken p flit).port p).rx = (s.port p).rx := by rw [hkeeps.own]
  have hrxSeq : ((s.ackTaken p flit).port p).rxSeq = (s.port p).rxSeq := by rw [hkeeps.own]
  have hflit : dataFlit p flit false s = if ((s.ackTaken p flit).port p).nakSent then s.ackTaken p flit else (s.ackTaken p flit).sendNak p := by
    unfold dataFlit
    simp only [State.ackTaken_eq, h, Bool.not_true, Bool.false_eq_true, if_false, hk, bne_self_eq_false, hrxSeq, bne_iff_ne.mpr hseq, if_true]
    rfl
  have hlt : p < (s.ackTaken p flit).fab.ports.length := by rw [hkeeps.length]; exact hp
  rw [hflit]
  split
  · exact ⟨hrxSeq, hrx, hsend⟩
  · rw [State.sendNak_port hlt]
    exact ⟨hrxSeq, hrx, (State.sendStep_sendNak _ _).after hsend⟩

end

end Sys2Proof.Machine
end

section
/-!
NAKs, forwarded messages, and the steps of flits together (17 R555, R558; 18 R596).
-/

namespace Sys2Proof.Machine

/-! ### NAKs (R555) -/

section
variable {s : State} {p ack : Nat} (hack : (s.port p).replay.findIdx? (fun e => e.1 == ack) = none)
include hack

theorem nakReceive_empty (h : (s.port p).replay = []) : nakReceive p ack s = s.setPort p (s.port p) := by
  unfold nakReceive
  simp only [hack, List.isEmpty_iff.mpr h, if_true]

variable (h : (s.port p).replay ≠ [])
include h

theorem nakReceive_replays (hn : (s.port p).replays < 7) : nakReceive p ack s =
    ((s.setPort p { s.port p with replays := (s.port p).replays + 1 }).bump (pgFab p) 0x098).emit (.replay p ((s.port p).replay.map fun e => e.2)) := by
  unfold nakReceive
  simp only [hack, List.isEmpty_eq_false_iff.mpr h, Bool.false_eq_true, if_false, if_neg (show ¬ 8 ≤ (s.port p).replays + 1 by omega)]

theorem nakReceive_retrains (hn : 7 ≤ (s.port p).replays) : nakReceive p ack s =
    (((s.setPort p { s.port p with replays := (s.port p).replays + 1 }).bump (pgFab p) 0x098).emit
      (.replay p ((s.port p).replay.map fun e => e.2))).retrain p := by
  unfold nakReceive
  simp only [hack, List.isEmpty_eq_false_iff.mpr h, Bool.false_eq_true, if_false, if_pos (show 8 ≤ (s.port p).replays + 1 by omega)]

end

/-- A port that retrains is down, and keeps its replay buffer. -/
theorem State.retrain_keeps {s : State} {p : Nat} (hp : p < s.fab.ports.length) : ((s.retrain p).port p).up = false ∧
    ((s.retrain p).port p).retraining = true ∧ ((s.retrain p).port p).replay = (s.port p).replay := by
  have hport : (s.retrain p).port p = { s.port p with up := false, negotiated := false, retraining := true, replays := 0, nakSent := false } :=
    State.port_setPort_self hp _
  rw [hport]
  exact ⟨rfl, rfl, rfl⟩

/-! ### Forwarding (R558; 18 R596) -/

/-- Bytes that end before an overlay begins are the bytes under it. -/
theorem bytesAt_overlay_before {bs new : List Byte} {off o n : Nat} (h : o + n ≤ off) (hb : off ≤ bs.length) :
    bytesAt (overlay bs off new) o n = bytesAt bs o n := by
  have hcut (xs : List Byte) : bytesAt (xs.take off) o n = bytesAt xs o n := by
    rw [bytesAt, bytesAt, List.drop_take, List.take_take, Nat.min_eq_left (Nat.le_sub_of_add_le' h)]
  have hprefix : (overlay bs off new).take off = bs.take off := by
    simp only [overlay, List.append_assoc, List.take_append_of_le_length hb]
    exact List.take_left' (by rw [List.length_take, Nat.min_eq_left hb])
  rw [← hcut, hprefix, hcut]

section
variable {s : State} {p : Nat} {m : Msg}

theorem State.forward_drops (h : m.hops = 0 ∨ m.major ≠ 1 ∨ s.routePort m.dest = none) : s.forward p m = s.bump (pgFab p) 0x0A4 := by
  unfold State.forward
  dsimp only
  split
  · rfl
  next hgo =>
    rcases h with h | h | h
    · exact absurd (by rw [decide_eq_true h, Bool.true_or, Bool.true_or]) hgo
    · exact absurd (by rw [bne_iff_ne.mpr h, Bool.or_true, Bool.true_or]) hgo
    · rw [h]

variable {out : Nat} (hlen : 3 ≤ m.header.length) (hh : 1 ≤ m.hops) (hm : m.major = 1) (h1 : 1 ≤ m.type) (h9 : m.type ≤ 9) (hr : s.routePort m.dest = some out)
include hlen hh hm h1 h9 hr

/-- A message that goes on is handed to SHP, or waits for room. -/
theorem State.forward_goes : s.forward p m =
    if s.shpRoom out { m with header := overlay m.header 3 (natLE 1 (fieldAt m.header 3 1 - 16)) } then
      s.shpQueue out { m with header := overlay m.header 3 (natLE 1 (fieldAt m.header 3 1 - 16)) }
    else { s.shpWaits { m with header := overlay m.header 3 (natLE 1 (fieldAt m.header 3 1 - 16)) } with
      fab := { s.fab with forwards := s.fab.forwards ++ [(p, { m with header := overlay m.header 3 (natLE 1 (fieldAt m.header 3 1 - 16)) })] } } := by
  have hgo : (decide (m.hops = 0) || m.major != 1 || decide (9 < m.type)) = false := by
    rw [decide_eq_false (by omega), hm, decide_eq_false (by omega)]
    rfl
  have htype : ({ m with header := overlay m.header 3 (natLE 1 (fieldAt m.header 3 1 - 16)) } : Msg).type ≠ 0 := by
    have hsame : ({ m with header := overlay m.header 3 (natLE 1 (fieldAt m.header 3 1 - 16)) } : Msg).type = m.type :=
      congrArg leNat (bytesAt_overlay_before (by omega) hlen)
    omega
  unfold State.forward
  simp only [hgo, Bool.false_eq_true, if_false, hr, htype, State.shpOffer]
  generalize ({ m with header := overlay m.header 3 (natLE 1 (fieldAt m.header 3 1 - 16)) } : Msg) = w
  cases s.shpRoom out w
  · rfl
  · rfl

end

/-- A message that is whole has a header of 32 bytes. -/
theorem Msg.length_header_of_whole {m : Msg} (h : m.whole = true) : m.header.length = 32 := by
  simp only [Msg.whole, Bool.and_eq_true, beq_iff_eq] at h
  exact h.1.1

/-- Settles O54: flits, NAKs and forwarded messages, each by its own rule. -/
theorem flitsAndForwarding : Obligations.FlitsAndForwarding := by
  intro s t p hl hp hlen hup
  have hpu : (s.live && (s.port p).up) = true := by rw [hl, hup]; rfl
  refine ⟨fun flit => ⟨?_, fun hbad => ?_, fun hok hk hseq hend => ?_, fun hok hk hseq => ?_, fun hbad => ?_, fun hok hk => ?_⟩,
    fun ack hack => ⟨fun h => ?_, fun h hn => ?_, fun h hn => ?_⟩, fun m hm hw hd hb => ⟨fun hdrop => ?_, fun out hh hmaj h1 h9 hr => ?_⟩⟩
  · refine ⟨_, congrArg done (State.onlyIf_of hpu _), ?_, ?_, ?_, ?_, rfl, rfl, rfl, rfl⟩
    · exact (State.count_bump_ne (page := pgFab p) (off := 0x094) _ _ (by omega)).trans ((s.at t).count_bump_self _ _ _)
    · exact (State.count_bump_self _ _ _ _).trans (congrArg (fun n => min 0xFFFFFFFF (n + 1)) ((s.at t).count_bump_ne (page := pgFab p) (off := 0x090) _ (by omega)))
    · exact congrArg FabPort.nakSent (State.sendNak_port (s := ((s.at t).bump (pgFab p) 0x090).bump (pgFab p) 0x094) hlen)
    · exact (congrArg FabPort.rxSeq (State.sendNak_port (s := ((s.at t).bump (pgFab p) 0x090).bump (pgFab p) 0x094) hlen)).trans rfl
  · refine ⟨_, congrArg done ((State.onlyIf_of hpu _).trans (dataFlit_damaged (s := s.at t) hbad)), ?_, ?_, (s.at t).count_bump_self _ _ _, rfl, rfl, rfl⟩
    · exact congrArg FabPort.nakSent (State.sendNak_port (s := (s.at t).bump (pgFab p) 0x094) hlen)
    · exact (congrArg FabPort.rxSeq (State.sendNak_port (s := (s.at t).bump (pgFab p) 0x094) hlen)).trans rfl
  · obtain ⟨hrxSeq, hrx, hcount, hsend⟩ := dataFlit_expected (s := s.at t) hok hk hlen hseq hend
    exact ⟨_, congrArg done (State.onlyIf_of hpu _), hrxSeq, hrx, hcount, hsend.hostSide⟩
  · obtain ⟨hrxSeq, hrx, hsend⟩ := dataFlit_unexpected (s := s.at t) hok hk hlen hseq
    exact ⟨_, congrArg done (State.onlyIf_of hpu _), hrxSeq, hrx, hsend.hostSide⟩
  · exact congrArg done ((State.onlyIf_of hpu _).trans (idleFlit_damaged (s := s.at t) hbad))
  · exact congrArg done ((State.onlyIf_of hpu _).trans (idleFlit_taken (s := s.at t) hok hk))
  · exact congrArg done ((State.onlyIf_of hpu _).trans (nakReceive_empty (s := s.at t) hack h))
  · exact congrArg done ((State.onlyIf_of hpu _).trans (nakReceive_replays (s := s.at t) hack h hn))
  · have hset (f : FabPort) (o : Out) : p < ((((s.at t).setPort p f).bump (pgFab p) 0x098).emit o).fab.ports.length := by
      rw [show ((((s.at t).setPort p f).bump (pgFab p) 0x098).emit o).fab.ports = s.fab.ports.set p f from rfl, List.length_set]
      exact hlen
    obtain ⟨hdown, htrain, hreplay⟩ := State.retrain_keeps (hset { s.port p with replays := (s.port p).replays + 1 } (.replay p ((s.port p).replay.map fun e => e.2)))
    refine ⟨_, congrArg done ((State.onlyIf_of hpu _).trans (nakReceive_retrains (s := s.at t) hack h hn)), hdown, htrain, hreplay.trans ?_, ?_, rfl, rfl, rfl⟩
    · exact (congrArg FabPort.replay (State.port_setPort_self (s := s.at t) hlen { s.port p with replays := (s.port p).replays + 1 })).trans rfl
    · exact (State.count_bump_self _ _ _ _).trans
        (congrArg (fun n => min 0xFFFFFFFF (n + 1)) (State.count_bump_ne (s := (s.at t).setPort p { s.port p with replays := (s.port p).replays + 1 }) (page := pgFab p) (off := 0x098) _ (by omega)))
  · subst hm
    refine congrArg done ((State.onlyIf_of ?_ _).trans (State.forward_drops (s := s.at t) hdrop))
    rw [hpu, hw, bne_iff_ne.mpr hd, bne_iff_ne.mpr hb]
    rfl
  · subst hm
    have hgoes := State.forward_goes (s := s.at t) (p := m.port) (by rw [Msg.length_header_of_whole hw]; decide) hh hmaj h1 h9 hr
    have hrun (f : State → State) : (s.at t).onlyIf (s.live && (s.port m.port).up && (wire m).whole && (wire m).dest != s.nodeId && (wire m).dest != 0xFFFF) f = f (s.at t) := by
      refine State.onlyIf_of ?_ f
      rw [hpu, hw, bne_iff_ne.mpr hd, bne_iff_ne.mpr hb]
      rfl
    exact ⟨fun hroom => congrArg done ((hrun _).trans (hgoes.trans (if_pos hroom))),
      fun hroom => congrArg done ((hrun _).trans (hgoes.trans (if_neg fun h => Bool.false_ne_true (hroom.symm.trans h))))⟩

end Sys2Proof.Machine
end

section
/-!
Lanes, modules, offers and delay of a fabric port (17 R545 to R547, R549, R551).
-/

namespace Sys2Proof.Machine

section
variable {s : State} {p : Nat}

/-! ### Lanes and modules (R545 to R547) -/

theorem laneSwap_swaps {logical u old : Nat} (hu : (s.port p).understudy = some u) (ho : (s.port p).lanes[logical]? = some old) : laneSwap p logical s =
    (((s.setPort p { s.port p with
      lanes := (s.port p).lanes.set logical u, understudy := none, displaced := (s.port p).displaced ++ [old] }).bump (pgFab p) 0x0A0).sticky
      (pgFab p) 0x044 0x10).sendFault (pgFab p) .laneSwap := by
  unfold laneSwap
  simp only [hu, ho]

theorem laneSwap_without (logical : Nat) (hu : (s.port p).understudy = none) : laneSwap p logical s = s := by
  unfold laneSwap
  simp only [hu]

/-! ### Offers and delay (R549, R551) -/

/-- An offer that shares a generation and meets the floor is taken. -/
theorem State.takeOffer_meets {o : Offer} {g mi : Nat} (hg : o.choose = some (g, mi)) (hf : s.lacksFloor o = false) : s.takeOffer p o =
    (s.setPort p { s.port p with offer := some o, negotiated := true, gen := g, minor := mi }, true) := by
  unfold State.takeOffer
  simp only [hg]
  exact if_neg fun h => Bool.false_ne_true (hf.symm.trans h)

/-- An offer already seen, that shares a generation and meets the floor, is taken. -/
theorem versionOffer_known {payload : List Byte} {g mi : Nat} (hseen : (s.port p).offer = some (offerOf payload))
    (hg : (offerOf payload).choose = some (g, mi)) (hf : s.lacksFloor (offerOf payload) = false) : versionOffer p payload s =
      s.setPort p { s.port p with offer := some (offerOf payload), negotiated := true, gen := g, minor := mi } := by
  unfold versionOffer
  simp only [hseen, beq_self_eq_true, State.takeOffer_meets hg hf, if_true]

theorem delayEcho_more {x : Int} (h : (s.port p).samples.length < 15) : delayEcho p x s = s.setPort p { s.port p with samples := (s.port p).samples ++ [x] } :=
  if_pos (by rw [List.length_append, List.length_singleton]; omega)

theorem delayEcho_last {x : Int} (h : (s.port p).samples.length = 15) : delayEcho p x s =
    s.setPort p { s.port p with samples := [], delay := meanDelay ((s.port p).samples ++ [x]) } :=
  if_neg (by rw [List.length_append, List.length_singleton]; omega)

/-! ### A link goes down (R548) -/

/-- What is sent of a port whose link has gone down. -/
theorem State.portFall_fields (hp : p < s.fab.ports.length) : (s.portFall p).port p = (s.port p).fallen s.now ∧
    (∀ j, j ≠ p → (s.portFall p).port j = s.port j) ∧ ((s.portFall p).shpPort p).sending = none := by
  refine ⟨State.port_setPort_self hp _, fun j hj => State.port_setPort_ne _ _ hj, ?_⟩
  by_cases hs : p < s.shp.ports.length
  · simp [State.portFall, State.shpPort, State.setShpPort, State.setPort, hs]
  · simp [State.portFall, State.shpPort, State.setShpPort, State.setPort, hs]

/-- A link that had been up sends its first failure; either way its port stays down. -/
theorem State.portFault_fields (hp : p < s.fab.ports.length) : (s.portFault p).port p = { s.port p with wasUp := false } ∧
    (∀ j, j ≠ p → (s.portFault p).port j = s.port j) ∧ (s.portFault p).shp = s.shp ∧ (s.portFault p).qmg = s.qmg ∧ (s.portFault p).host = s.host ∧
    (s.portFault p).win = s.win ∧ ((s.port p).wasUp = false → (s.portFault p).flt = s.flt) ∧
    ((s.port p).wasUp = true → ∃ m : FaultMsg, (s.portFault p).flt = { s.flt with inbox := s.flt.inbox ++ [m] } ∧ m.kind = 0x43) := by
  have hkeep (f : FabPort) (h : f.wasUp = false) : f = { f with wasUp := false } := by
    cases f
    cases h
    rfl
  unfold State.portFault
  cases hw : (s.port p).wasUp with
  | true =>
    exact ⟨State.port_setPort_self hp _, fun j hj => State.port_setPort_ne _ _ hj, rfl, rfl, rfl, rfl, fun h => absurd h (by decide),
      fun _ => ⟨_, rfl, faultMsg_kind _ _ .fabricLinkDown _ _ _⟩⟩
  | false => exact ⟨hkeep _ hw, fun j _ => rfl, rfl, rfl, rfl, rfl, fun _ => rfl, fun h => absurd h (by decide)⟩

end

end Sys2Proof.Machine
end

section
/-!
The bring-up of a fabric port, and the steps of ports and lanes together (17 R545 to R549, R551, R552).
-/

namespace Sys2Proof.Machine

/-! ### Handing messages over changes no port -/

theorem State.shpQueue_fab (s : State) (p : Nat) (m : Msg) : (s.shpQueue p m).fab = s.fab := by
  unfold State.shpQueue
  dsimp only
  split
  · split
    · rfl
    · rfl
  · split
    · rfl
    · rfl

theorem State.shpOffer_fab (s : State) (p : Nat) (m : Msg) : (s.shpOffer p m).1.fab = s.fab := by
  unfold State.shpOffer
  split
  · exact s.shpQueue_fab p m
  · rfl

theorem State.pumpGo_ports (s : State) (node n : Nat) : (s.pumpGo node n).fab.ports = s.fab.ports := by
  induction n generalizing s with
  | zero => rfl
  | succ n ih =>
    unfold State.pumpGo
    dsimp only
    split
    · split
      · split
        · exact ih _
        · next p _ =>
          split
          · next u hu => exact congrArg FabBlock.ports ((congrArg (fun x : State × Bool => x.1.fab) hu).symm.trans (s.shpOffer_fab p _))
          · next u hu =>
            have hfab : u.fab = s.fab := (congrArg (fun x : State × Bool => x.1.fab) hu).symm.trans (s.shpOffer_fab p _)
            refine (ih _).trans ?_
            show u.fab.ports = s.fab.ports
            rw [hfab]
      · rfl
    · rfl

theorem State.takeRoom_ports (s : State) : s.takeRoom.fab.ports = s.fab.ports := by
  unfold State.takeRoom
  dsimp only
  refine (foldl_keeps (fun u : State => u.fab.ports) (fun u n => u.pumpGo_ports n _) _ _).trans (foldl_keeps (fun u : State => u.fab.ports) (fun u e => ?_) _ _)
  split
  · rfl
  · split
    · show (State.shpQueue _ _ _).fab.ports = u.fab.ports
      rw [State.shpQueue_fab]
    · rfl

/-! ### Bring-up (R548) -/

section
variable {s : State} {p : Nat} {b : PortBringUp} (first : Bool)

theorem State.bringUp_without (hb : b.modulePresent = false) :
    s.bringUp p b first = (s.setPort p { s.port p with modulePresent := false, tried := s.now }).bringUpFails p := by
  unfold State.bringUp
  simp only [hb, Bool.not_false, if_true]

/-- A state whose fabric is another's with one port set. -/
theorem State.fab_setPort_fields {u z : State} {f : FabPort} (hp : p < u.fab.ports.length) (hz : z.fab = (u.setPort p f).fab) :
    z.fab.ports.length = u.fab.ports.length ∧ (∀ j, j ≠ p → z.port j = u.port j) ∧ z.port p = f := by
  have hport (j : Nat) : z.port j = (u.setPort p f).port j := by rw [State.port, hz]; rfl
  refine ⟨?_, fun j hj => (hport j).trans (State.port_setPort_ne u f hj), (hport p).trans (State.port_setPort_self hp f)⟩
  rw [hz]
  exact List.length_set ..

/-- A port whose bring-up has passed its last step (R548). -/
def FabPort.raised (f : FabPort) (b : PortBringUp) : FabPort :=
  { f with
    up := true, wasUp := true, retraining := false, samples := []
    delay := meanDelay (b.delays.map fun d => d.2.2.2 - d.1 - (d.2.2.1 - d.2.1))
    credits := (List.range 8).map fun v => b.partnerCredits.getD v 0 }

/-- Port `p` has come up with what was negotiated, and nothing else of its queues, memories and ports is changed. -/
structure State.CameUp (s : State) (p : Nat) (b : PortBringUp) (o : Offer) (g mi : Nat) (z : State) : Prop where
  length : z.fab.ports.length = s.fab.ports.length
  others : ∀ j, j ≠ p → z.port j = s.port j
  up : (z.port p).up = true
  negotiated : (z.port p).negotiated = true
  gen : (z.port p).gen = g
  minor : (z.port p).minor = mi
  offer : (z.port p).offer = some o
  lanes : (z.port p).lanes = ((s.port p).withLanes b.goodLanes).lanes
  delay : (z.port p).delay = meanDelay (b.delays.map fun d => d.2.2.2 - d.1 - (d.2.2.1 - d.2.1))
  kept : z.qmg = s.qmg ∧ z.host = s.host ∧ z.win = s.win

/-- Sending keeps a port that has come up. -/
theorem State.CameUp.trans {o : Offer} {g mi : Nat} {z u : State} (h : s.CameUp p b o g mi z) (hk : z.PortKeeps p u) (hs : z.SendStep u) :
    s.CameUp p b o g mi u := by
  obtain ⟨hq, hh, hw⟩ := h.kept
  exact {
    length := hk.length.trans h.length
    others := fun j hj => (hk.others j hj).trans (h.others j hj)
    up := by rw [hk.own]; exact h.up
    negotiated := by rw [hk.own]; exact h.negotiated
    gen := by rw [hk.own]; exact h.gen
    minor := by rw [hk.own]; exact h.minor
    offer := by rw [hk.own]; exact h.offer
    lanes := by rw [hk.own]; exact h.lanes
    delay := by rw [hk.own]; exact h.delay
    kept := ⟨hs.qmg.trans hq, hs.host.trans hh, hs.win.trans hw⟩ }

/-- What waits for a port that has come up goes out, and the port stays as it came up. -/
theorem State.CameUp.handOver {o : Offer} {g mi : Nat} {z : State} (hp : p < s.fab.ports.length) (h : s.CameUp p b o g mi z) :
    s.CameUp p b o g mi (z.flushSegs p).takeRoom :=
  (h.trans (State.portKeeps_flushSegs (h.length.symm ▸ hp)) (State.sendStep_flushSegs _ _)).trans
    (.of_ports (State.takeRoom_ports _)) (State.sendStep_takeRoom _)

/-- A bring-up whose every step passes leaves the port up with what was negotiated. -/
theorem State.bringUp_passes (hp : p < s.fab.ports.length) (hm : b.modulePresent = true) (hs : b.moduleSupported = true)
    (hl : 2 ≤ ((s.port p).withLanes b.goodLanes).lanes.length) {bs : List Byte} {g mi : Nat} (ho : b.offer = some bs)
    (hg : (offerOf bs).choose = some (g, mi)) (hf : s.lacksFloor (offerOf bs) = false) (hd : b.delays.length = 16) :
    s.CameUp p b (offerOf bs) g mi (s.bringUp p b first) := by
  have hlanes (f : FabPort) : ¬ (f.withLanes b.goodLanes).lanes.length < 2 := Nat.not_lt.mpr hl
  have hmeets (u : State) (hu : u.fab.floor = s.fab.floor) := State.takeOffer_meets (s := u) (p := p) hg (by rw [State.lacksFloor, hu]; exact hf)
  unfold State.bringUp
  simp only [hm, Bool.not_true, Bool.false_eq_true, if_false, hs, hlanes, ho, hd, bne_self_eq_false]
  generalize hw : State.emit _ _ = w
  have hown : (w.port p).lanes = ((s.port p).withLanes b.goodLanes).lanes := by
    rw [← hw]
    exact (congrArg FabPort.lanes (State.port_setPort_self (s := s.setPort p _) ((List.length_set ..).symm ▸ hp) _)).trans rfl
  have hlength : w.fab.ports.length = s.fab.ports.length := by
    rw [← hw]
    exact (List.length_set ..).trans (List.length_set ..)
  have hothers (j : Nat) (hj : j ≠ p) : w.port j = s.port j := by
    rw [← hw]
    exact (State.port_setPort_ne (s.setPort p _) _ hj).trans (State.port_setPort_ne s _ hj)
  have hfloor : w.fab.floor = s.fab.floor := by rw [← hw]; rfl
  have hhost : w.qmg = s.qmg ∧ w.host = s.host ∧ w.win = s.win := by rw [← hw]; exact ⟨rfl, rfl, rfl⟩
  rw [hmeets w hfloor]
  dsimp only
  refine State.CameUp.handOver hp ?_
  have hpw : p < w.fab.ports.length := hlength.symm ▸ hp
  generalize hx : w.setPort p _ = x
  obtain ⟨hxlength, hxothers, hxown⟩ := State.fab_setPort_fields hpw (congrArg State.fab hx.symm)
  have hxhost : x.qmg = w.qmg ∧ x.host = w.host ∧ x.win = w.win := by rw [← hx]; exact ⟨rfl, rfl, rfl⟩
  rw [hxown]
  have hpx : p < x.fab.ports.length := hxlength.symm ▸ hpw
  have hend (z : State)
      (hz : z.fab = (x.setPort p (FabPort.raised { w.port p with offer := some (offerOf bs), negotiated := true, gen := g, minor := mi } b)).fab)
      (hk : z.qmg = x.qmg ∧ z.host = x.host ∧ z.win = x.win) : s.CameUp p b (offerOf bs) g mi z := by
    obtain ⟨hzlength, hzothers, hzown⟩ := State.fab_setPort_fields hpx hz
    obtain ⟨hzq, hzh, hzw⟩ := hk
    obtain ⟨hxq, hxh, hxw⟩ := hxhost
    obtain ⟨hwq, hwh, hww⟩ := hhost
    exact {
      length := hzlength.trans (hxlength.trans hlength)
      others := fun j hj => (hzothers j hj).trans ((hxothers j hj).trans (hothers j hj))
      up := congrArg FabPort.up hzown
      negotiated := congrArg FabPort.negotiated hzown
      gen := congrArg FabPort.gen hzown
      minor := congrArg FabPort.minor hzown
      offer := congrArg FabPort.offer hzown
      lanes := (congrArg FabPort.lanes hzown).trans hown
      delay := congrArg FabPort.delay hzown
      kept := ⟨hzq.trans (hxq.trans hwq), hzh.trans (hxh.trans hwh), hzw.trans (hxw.trans hww)⟩ }
  split
  · exact hend _ rfl ⟨rfl, rfl, rfl⟩
  · exact hend _ rfl ⟨rfl, rfl, rfl⟩

end

end Sys2Proof.Machine
end

section
/-!
The steps of fabric ports and lanes together (17 R545 to R549, R551, R552).
-/

namespace Sys2Proof.Machine

section
variable {s : State} {t p : Nat}

/-- A port that is down, enabled and out of recovery is brought up. -/
theorem exec_portBringUp (hl : s.live = true) (hp : p < 4) (hr : s.sec.recovery = false) (hc : s.fabCtrl p 0 = true) (hup : (s.port p).up = false)
    (b : PortBringUp) : exec (.portBringUp t p b) s = done ((s.at t).bringUp p b true) := by
  refine congrArg done (State.onlyIf_of ?_ _)
  rw [hl, hr, decide_eq_true hp, hc, hup]
  rfl

/-- A port is tried again once 100 ms have passed. -/
theorem exec_portBringUpRetry (hl : s.live = true) (hp : p < 4) (hr : s.sec.recovery = false) (hc : s.fabCtrl p 0 = true) (hup : (s.port p).up = false)
    (ht : (s.port p).tried + 100000000 ≤ max s.now t) (b : PortBringUp) :
    exec (.portBringUpRetry t p b) s = done ((s.at t).bringUp p b false) := by
  have hdue : decide ((s.port p).tried + 100 * ms ≤ (s.at t).now) = true := decide_eq_true ht
  refine congrArg done (State.onlyIf_of ?_ _)
  rw [hl, hr, decide_eq_true hp, hc, hup, hdue]
  rfl

theorem exec_portBringUpRetry_early (ht : max s.now t < (s.port p).tried + 100000000) (b : PortBringUp) :
    exec (.portBringUpRetry t p b) s = done (s.at t) := by
  have hdue : decide ((s.port p).tried + 100 * ms ≤ (s.at t).now) = false := decide_eq_false (Nat.not_le.mpr ht)
  refine congrArg done (if_neg ?_)
  rw [hdue, Bool.and_false]
  exact Bool.false_ne_true

/-- A port that is not enabled is not brought up. -/
theorem exec_portBringUp_disabled (hc : s.fabCtrl p 0 = false) (b : PortBringUp) :
    exec (.portBringUp t p b) s = done (s.at t) ∧ exec (.portBringUpRetry t p b) s = done (s.at t) := by
  refine ⟨congrArg done (if_neg ?_), congrArg done (if_neg ?_)⟩
  · simp [hc]
  · simp [hc]

end

/-- Settles O53: bring-up, loss, lanes, modules, offers and delay of a port, each by its own rule. -/
theorem portsAndLanes : Obligations.PortsAndLanes := by
  intro s t p hl hp hlen
  refine ⟨fun b hr hc hup => ⟨fun hb => ?_, fun ht hb => ?_, fun ht => ?_, fun i bs g mi hi hm hs hlanes ho hg hf hd => ?_⟩, fun hc b => ?_,
    fun hup => ?_, fun logical u old hup hc hu ho => ?_, fun logical hu => ?_, fun lane hlane => ?_, fun here => ?_, ?_,
    fun payload g mi hup h32 ho hg hf => ?_, fun hn => ?_⟩
  · exact (exec_portBringUp hl hp hr hc hup b).trans (congrArg done (State.bringUp_without (s := s.at t) true hb))
  · exact (exec_portBringUpRetry hl hp hr hc hup ht b).trans (congrArg done (State.bringUp_without (s := s.at t) false hb))
  · exact exec_portBringUpRetry_early ht b
  · have hcame (first : Bool) := State.bringUp_passes (s := s.at t) first hlen hm hs hlanes ho hg hf hd
    obtain ⟨first, hrun⟩ : ∃ first, exec i s = done ((s.at t).bringUp p b first) := by
      rcases hi with rfl | ⟨rfl, ht⟩
      · exact ⟨true, exec_portBringUp hl hp hr hc hup b⟩
      · exact ⟨false, exec_portBringUpRetry hl hp hr hc hup ht b⟩
    have h := hcame first
    exact ⟨_, hrun, h.up, h.negotiated, h.gen, h.minor, h.offer, h.lanes, h.delay, h.others, h.kept⟩
  · exact exec_portBringUp_disabled hc b
  · have hrun (f : State → State) : (s.at t).onlyIf (s.live && (s.port p).up) f = f (s.at t) := State.onlyIf_of (by rw [hl, hup]; rfl) f
    obtain ⟨hfown, hfothers, hfsending⟩ := State.portFall_fields (s := s.at t) hlen
    have hflen : p < ((s.at t).portFall p).fab.ports.length := (List.length_set ..).symm ▸ hlen
    obtain ⟨hown, hothers, hshp, hq, hh, hw, hnever, hfirst⟩ := State.portFault_fields hflen
    have hwas : (((s.at t).portFall p).port p).wasUp = (s.port p).wasUp := by rw [hfown]; rfl
    refine ⟨_, congrArg done (hrun _), ?_, ?_, ?_, fun j hj => (hothers j hj).trans (hfothers j hj), hq, hh, hw, fun h => hnever (hwas.trans h),
      fun h => hfirst (hwas.trans h)⟩
    · rw [hown, hfown]
      rfl
    · rw [hown, hfown]
      rfl
    · rw [State.shpPort, hshp]
      exact hfsending
  · exact congrArg done ((State.onlyIf_of (by rw [hl, hup, hc]; rfl) _).trans (laneSwap_swaps (s := s.at t) hu ho))
  · exact congrArg done (State.onlyIf_same (laneSwap_without (s := s.at t) logical hu))
  · have hrun (ok : Bool) : exec (.laneRetrainEnd t p lane ok) s = done (laneRetrainEnd p lane ok (s.at t)) :=
      congrArg done (State.onlyIf_of (by rw [hl, List.contains_iff_mem.mpr hlane]; rfl) _)
    exact ⟨hrun true, hrun false⟩
  · exact congrArg done ((State.onlyIf_of (by rw [hl, decide_eq_true hp]; rfl) _).trans (if_neg (by simp)))
  · exact congrArg done (State.onlyIf_of (by rw [hl, decide_eq_true hp]; rfl) _)
  · exact congrArg done ((State.onlyIf_of (by rw [hl, hup, h32]; rfl) _).trans (versionOffer_known (s := s.at t) ho hg hf))
  · have hrun (f : State → State) : (s.at t).onlyIf (s.live && (s.port p).negotiated) f = f (s.at t) := State.onlyIf_of (by rw [hl, hn]; rfl) f
    exact ⟨fun tag => congrArg done (hrun _), fun t1 t2 t3 t4 h => congrArg done ((hrun _).trans (delayEcho_more (s := s.at t) h)),
      fun t1 t2 t3 t4 h => congrArg done ((hrun _).trans (delayEcho_last (s := s.at t) h))⟩

end Sys2Proof.Machine
end
